-- ==== Sys2Proof/Word.lean ====
section
/-!
DEFINITION. The words of the machine: bytes, 64-bit granules and g registers, vector registers and their seals, sparse
tables, and the small enumerations that name element formats, scopes and stream directions (R22, R42, R132, R212).
-/

namespace Sys2Proof

/-- One byte of memory (R23). -/
abbrev Byte := BitVec 8
/-- A g register, or one aligned 64-bit granule of memory (R42). -/
abbrev Word := BitVec 64
/-- A v register: 32 lanes of 32 bits, lane j in bits 32j to 32j + 31 (R23). -/
abbrev Vec := BitVec 1024
/-- The sixteen seals of a v register, pair j in bits 8j to 8j + 7 (R42). -/
abbrev VSeals := BitVec 128
/-- A k register (R125). -/
abbrev Mask := BitVec 32

/-- A sparse table: keys strictly rising, no entry equal to the value that an unlisted key reads as. -/
abbrev Tab (α : Type) := List (Nat × α)

/-- Element formats, in the order of their codes (R22). -/
inductive Fmt where
  | f32 | f16 | b16 | e4 | e5 | s8 | n8 | s16 | n16 | s32 | n32 | s64 | q4x | s4
  deriving DecidableEq, Repr

/-- Scopes of synchronisation, in the order of their codes (R212). -/
inductive Scope where
  | cl | dv | sy
  deriving DecidableEq, Repr

/-- Stream directions, in the order of their codes (R132). -/
inductive Dir where
  | src | drn | upd | idx
  deriving DecidableEq, Repr

/-- The two structured sparsities of MLDBS (R293, R297). -/
inductive Sparse where
  | of4 | of2
  deriving DecidableEq, Repr

/-- The control and status registers that CSR8 can name (R346). -/
inductive Csr where
  | fpx | scb | lc | rsp | sealctl | seallog | evt | hbudget | age | self | part | w | time | xb
  | tcode | tpc | tinfo0 | tinfo1 | status | tvec | ssx0 | ssx1 | ssx2 | ssx3 | lmwin | actsel | asg | ptb
  | dbgsel | dbgdata
  deriving DecidableEq, Repr

end Sys2Proof
end

