-- ==== Sys2Proof/Syntax.lean ====
section
/-!
DEFINITION. The instructions: one constructor per row of the opcode table, the encoded forms first (R51, R53) and then the
events, whose arguments say what the spec leaves to the hardware or to the world outside the device.
Field names are those of R49: d, a, b registers, k mask or scope, l stall count, o offset, i immediate, s slot, z tile or size.
-/

namespace Sys2Proof

/-- Why a pattern decodes to no instruction: the cause of R59, and the values of the fields that fail with that cause
(one of them is the value that TINFO0 reports). -/
structure DecodeError where
  cause : BitVec 8
  vals : List Nat
  deriving DecidableEq, Repr

/-- Which message an event concerns: an outbound entry of a core, a message of a hardware sender, or the reply to a FREQ. -/
inductive MsgRef where
  | out (core id : Nat)
  | hw (id : Nat)
  | freq (core id : Nat)
  deriving DecidableEq, Repr

/-- Where the distributor puts one member of a gang: core, actor index, actor id, code base, window LO in 8 KiB units (R373). -/
structure Place where
  core : Nat
  idx : Nat
  id : Nat
  code : Nat
  lo : Nat
  deriving DecidableEq, Repr

/-- A function that can be ready: a core, an eave core or a Bolvan link (R401). -/
inductive Fn where
  | core (n : Nat)
  | eave (n : Nat)
  | link (n : Nat)
  deriving DecidableEq, Repr

/-- What a Fratre record supplies (R400): its digest, the page-swap threshold, the reserved frames, the part identity, the CIM repair maps by core and
bank with the physical row of each logical K-row (R313), the spare-line maps by cache, the training parameters by channel, the number of this device
in its domain and, for each other device, the links that its routes may take (R397). -/
structure Fratre where
  digest : BitVec 256
  threshold : Nat
  reserved : List Nat
  identity : Nat
  repair : List (Nat × List Nat)
  spares : List (Nat × List Nat)
  training : List (Nat × Nat)
  device : BitVec 8
  routes : List (Nat × List Nat)
  deriving DecidableEq, Repr

/-- What the device manager assigns when a partition becomes ACTIVE (R361). -/
structure PartSetup where
  cores : List Nat
  frames : List Nat
  ptb : Word
  park : List Nat
  aging : Nat
  hbudget : BitVec 32
  age : BitVec 16
  strict : Bool
  ways : Nat
  shares : Nat
  deriving DecidableEq, Repr

/-- One frame of a checkpoint: its number, the checkpoint key under which it travels, whether it is a cleared-frame marker, and its bytes and
seals (R405). -/
structure CkFrame where
  frame : Nat
  key : BitVec 512
  cleared : Bool
  bytes : List Host.Cell
  seals : List Host.Cell
  deriving DecidableEq, Repr

/-- What an export or import of a checkpoint names: the partition, and the key that the host supplies (R405). -/
structure CkRequest where
  part : Nat
  key : BitVec 512
  deriving DecidableEq, Repr

/-- Where a monitor samples: its function, and the images that the device manager names for gangs to be evicted there, by gang (R403). -/
structure MonitorSite where
  fn : Fn
  images : List (Nat × List Word)
  deriving DecidableEq, Repr

/-- The errors that the array's codes meet during one MMA (R311): corrected errors, column banks with an uncorrectable
error, and uncorrectable tile errors as 8 x row + column bank. -/
structure ArrayErrors where
  corrected : Nat
  banks : BitVec 8
  tiles : List Nat
  deriving DecidableEq, Repr

/-- The instructions and events (R51, R53; the rule of each is in its meaning). -/
inductive Instr where
  | add (b a d : BitVec 5) (l : BitVec 3)
  | sub (b a d : BitVec 5) (l : BitVec 3)
  | and (b a d : BitVec 5) (l : BitVec 3)
  | or (b a d : BitVec 5) (l : BitVec 3)
  | xor (b a d : BitVec 5) (l : BitVec 3)
  | andn (b a d : BitVec 5) (l : BitVec 3)
  | sll (b a d : BitVec 5) (l : BitVec 3)
  | srl (b a d : BitVec 5) (l : BitVec 3)
  | sra (b a d : BitVec 5) (l : BitVec 3)
  | ror (b a d : BitVec 5) (l : BitVec 3)
  | minS (b a d : BitVec 5) (l : BitVec 3)
  | maxS (b a d : BitVec 5) (l : BitVec 3)
  | minN (b a d : BitVec 5) (l : BitVec 3)
  | maxN (b a d : BitVec 5) (l : BitVec 3)
  | clz (a d : BitVec 5) (l : BitVec 3)
  | popc (a d : BitVec 5) (l : BitVec 3)
  | mul (b a d : BitVec 5) (l : BitVec 3)
  | mulhS (b a d : BitVec 5) (l : BitVec 3)
  | mulhN (b a d : BitVec 5) (l : BitVec 3)
  | divS (b a d : BitVec 5) (l : BitVec 3)
  | divN (b a d : BitVec 5) (l : BitVec 3)
  | remS (b a d : BitVec 5) (l : BitVec 3)
  | remN (b a d : BitVec 5) (l : BitVec 3)
  | madd (b a d : BitVec 5) (l : BitVec 3)
  | seq (b a d : BitVec 5) (l : BitVec 3)
  | sne (b a d : BitVec 5) (l : BitVec 3)
  | sltS (b a d : BitVec 5) (l : BitVec 3)
  | sltN (b a d : BitVec 5) (l : BitVec 3)
  | sleS (b a d : BitVec 5) (l : BitVec 3)
  | sleN (b a d : BitVec 5) (l : BitVec 3)
  | csel (b a d : BitVec 5) (l : BitVec 3)
  | bfx (b a d : BitVec 5) (l : BitVec 3)
  | addi (i : BitVec 8) (a d : BitVec 5) (l : BitVec 3)
  | andi (i : BitVec 8) (a d : BitVec 5) (l : BitVec 3)
  | ori (i : BitVec 8) (a d : BitVec 5) (l : BitVec 3)
  | xori (i : BitVec 8) (a d : BitVec 5) (l : BitVec 3)
  | slli (i : BitVec 6) (a d : BitVec 5) (l : BitVec 3)
  | srli (i : BitVec 6) (a d : BitVec 5) (l : BitVec 3)
  | srai (i : BitVec 6) (a d : BitVec 5) (l : BitVec 3)
  | slti (i : BitVec 8) (a d : BitVec 5) (l : BitVec 3)
  | li (i : BitVec 16) (d : BitVec 5) (l : BitVec 3)
  | lsh (i : BitVec 16) (d : BitVec 5) (l : BitVec 3)
  | beq (o : BitVec 11) (b a : BitVec 5)
  | bne (o : BitVec 11) (b a : BitVec 5)
  | bltS (o : BitVec 11) (b a : BitVec 5)
  | bgeS (o : BitVec 11) (b a : BitVec 5)
  | bltN (o : BitVec 11) (b a : BitVec 5)
  | bgeN (o : BitVec 11) (b a : BitVec 5)
  | bkany (o : BitVec 11) (a : BitVec 3)
  | bknone (o : BitVec 11) (a : BitVec 3)
  | j (o : BitVec 23)
  | call (o : BitVec 23)
  | loop (e : BitVec 11) (a : BitVec 5) (l : BitVec 3)
  | jr (a : BitVec 5) (l : BitVec 3)
  | callr (a : BitVec 5) (l : BitVec 3)
  | ret (l : BitVec 3)
  | endFiring (l : BitVec 3)
  | nop (l : BitVec 3)
  | trap (a : BitVec 5) (l : BitVec 3)
  | brk (l : BitVec 3)
  | ldlS8 (o : BitVec 8) (a d : BitVec 5) (l : BitVec 3)
  | ldlN8 (o : BitVec 8) (a d : BitVec 5) (l : BitVec 3)
  | ldlS16 (o : BitVec 8) (a d : BitVec 5) (l : BitVec 3)
  | ldlN16 (o : BitVec 8) (a d : BitVec 5) (l : BitVec 3)
  | ldlS32 (o : BitVec 8) (a d : BitVec 5) (l : BitVec 3)
  | ldlN32 (o : BitVec 8) (a d : BitVec 5) (l : BitVec 3)
  | ldl64 (o : BitVec 8) (a d : BitVec 5) (l : BitVec 3)
  | vldl (o : BitVec 8) (a d : BitVec 5) (l : BitVec 3)
  | stl8 (o : BitVec 8) (a d : BitVec 5) (l : BitVec 3)
  | stl16 (o : BitVec 8) (a d : BitVec 5) (l : BitVec 3)
  | stl32 (o : BitVec 8) (a d : BitVec 5) (l : BitVec 3)
  | stl64 (o : BitVec 8) (a d : BitVec 5) (l : BitVec 3)
  | vstl (o : BitVec 8) (a d : BitVec 5) (l : BitVec 3)
  | vgatl (o : BitVec 8) (a d : BitVec 5) (l : BitVec 3)
  | vscatl (o : BitVec 8) (a d : BitVec 5) (l : BitVec 3)
  | vbcl (o : BitVec 8) (a d : BitVec 5) (l : BitVec 3)
  | ldg32 (o : BitVec 8) (a d : BitVec 5) (l : BitVec 3)
  | ldg64 (o : BitVec 8) (a d : BitVec 5) (l : BitVec 3)
  | stg32 (o : BitVec 8) (a d : BitVec 5) (l : BitVec 3)
  | stg64 (o : BitVec 8) (a d : BitVec 5) (l : BitVec 3)
  | vldg (o : BitVec 8) (a d : BitVec 5) (l : BitVec 3)
  | vstg (o : BitVec 8) (a d : BitVec 5) (l : BitVec 3)
  | freq (o : BitVec 8) (a d : BitVec 5) (l : BitVec 3)
  | pfg (o : BitVec 8) (a : BitVec 5) (d : Bool) (l : BitVec 3)
  | cwb (b a : BitVec 5) (l : BitVec 3)
  | cinv (b a : BitVec 5) (l : BitVec 3)
  | cwbinv (b a : BitVec 5) (l : BitVec 3)
  | cflush (b a : BitVec 5) (l : BitVec 3)
  | cways (a d : BitVec 5) (l : BitVec 3)
  | cwayq (d : BitVec 5) (l : BitVec 3)
  | vaddF32 (k : BitVec 3) (b a d : BitVec 5) (l : BitVec 3)
  | vsubF32 (k : BitVec 3) (b a d : BitVec 5) (l : BitVec 3)
  | vmulF32 (k : BitVec 3) (b a d : BitVec 5) (l : BitVec 3)
  | vfmaF32 (k : BitVec 3) (b a d : BitVec 5) (l : BitVec 3)
  | vfmsF32 (k : BitVec 3) (b a d : BitVec 5) (l : BitVec 3)
  | vminF32 (k : BitVec 3) (b a d : BitVec 5) (l : BitVec 3)
  | vmaxF32 (k : BitVec 3) (b a d : BitVec 5) (l : BitVec 3)
  | vabsF32 (k : BitVec 3) (a d : BitVec 5) (l : BitVec 3)
  | vaddF16 (k : BitVec 3) (b a d : BitVec 5) (l : BitVec 3)
  | vmulF16 (k : BitVec 3) (b a d : BitVec 5) (l : BitVec 3)
  | vfmaF16 (k : BitVec 3) (b a d : BitVec 5) (l : BitVec 3)
  | vaddB16 (k : BitVec 3) (b a d : BitVec 5) (l : BitVec 3)
  | vmulB16 (k : BitVec 3) (b a d : BitVec 5) (l : BitVec 3)
  | vfmaB16 (k : BitVec 3) (b a d : BitVec 5) (l : BitVec 3)
  | vdotF16 (k : BitVec 3) (b a d : BitVec 5) (l : BitVec 3)
  | vdotB16 (k : BitVec 3) (b a d : BitVec 5) (l : BitVec 3)
  | vaddS32 (k : BitVec 3) (b a d : BitVec 5) (l : BitVec 3)
  | vsubS32 (k : BitVec 3) (b a d : BitVec 5) (l : BitVec 3)
  | vmulS32 (k : BitVec 3) (b a d : BitVec 5) (l : BitVec 3)
  | vmaddS32 (k : BitVec 3) (b a d : BitVec 5) (l : BitVec 3)
  | vminS32 (k : BitVec 3) (b a d : BitVec 5) (l : BitVec 3)
  | vmaxS32 (k : BitVec 3) (b a d : BitVec 5) (l : BitVec 3)
  | vdotbS8 (k : BitVec 3) (b a d : BitVec 5) (l : BitVec 3)
  | vdotqQ4x (k : BitVec 3) (b a d : BitVec 5) (l : BitVec 3)
  | vand (k : BitVec 3) (b a d : BitVec 5) (l : BitVec 3)
  | vor (k : BitVec 3) (b a d : BitVec 5) (l : BitVec 3)
  | vxor (k : BitVec 3) (b a d : BitVec 5) (l : BitVec 3)
  | vsll (k : BitVec 3) (b a d : BitVec 5) (l : BitVec 3)
  | vsrl (k : BitVec 3) (b a d : BitVec 5) (l : BitVec 3)
  | vsra (k : BitVec 3) (b a d : BitVec 5) (l : BitVec 3)
  | vsel (k : BitVec 2) (b a d : BitVec 5) (l : BitVec 3)
  | vmov (k : BitVec 3) (a d : BitVec 5) (l : BitVec 3)
  | vceqF32 (k : BitVec 3) (b a : BitVec 5) (d l : BitVec 3)
  | vcltF32 (k : BitVec 3) (b a : BitVec 5) (d l : BitVec 3)
  | vcleF32 (k : BitVec 3) (b a : BitVec 5) (d l : BitVec 3)
  | vcunF32 (k : BitVec 3) (b a : BitVec 5) (d l : BitVec 3)
  | vceqS32 (k : BitVec 3) (b a : BitVec 5) (d l : BitVec 3)
  | vcltS32 (k : BitVec 3) (b a : BitVec 5) (d l : BitVec 3)
  | vcltN32 (k : BitVec 3) (b a : BitVec 5) (d l : BitVec 3)
  | vcnz (k : BitVec 3) (a : BitVec 5) (d l : BitVec 3)
  | vcvtF32S32 (k : BitVec 3) (a d : BitVec 5) (l : BitVec 3)
  | vcvtS32F32 (k : BitVec 3) (a d : BitVec 5) (l : BitVec 3)
  | vcvtF16F32 (k : BitVec 3) (b a d : BitVec 5) (l : BitVec 3)
  | vcvtF32F16 (k : BitVec 3) (a d : BitVec 5) (l : BitVec 3)
  | vcvtB16F32 (k : BitVec 3) (b a d : BitVec 5) (l : BitVec 3)
  | vcvtF32B16 (k : BitVec 3) (a d : BitVec 5) (l : BitVec 3)
  | vcvtE4F32 (k : BitVec 3) (a d : BitVec 5) (l : BitVec 3)
  | vcvtF32E4 (k : BitVec 3) (a d : BitVec 5) (l : BitVec 3)
  | vperm (k : BitVec 3) (b a d : BitVec 5) (l : BitVec 3)
  | vbcst (k : BitVec 3) (a d : BitVec 5) (l : BitVec 3)
  | vext (b a d : BitVec 5) (l : BitVec 3)
  | vins (b a d : BitVec 5) (l : BitVec 3)
  | vcomp (k : BitVec 3) (a d : BitVec 5) (l : BitVec 3)
  | vnzscan (k : BitVec 2) (b a d : BitVec 5) (l : BitVec 3)
  | viota (k : BitVec 3) (a d : BitVec 5) (l : BitVec 3)
  | vunpq (k : BitVec 3) (b a d : BitVec 5) (l : BitVec 3)
  | vrsumF32 (k : BitVec 2) (a d : BitVec 5) (l : BitVec 3)
  | vrmaxF32 (k : BitVec 2) (a d : BitVec 5) (l : BitVec 3)
  | vrsumS32 (k : BitVec 2) (a d : BitVec 5) (l : BitVec 3)
  | vexp2F32 (k : BitVec 3) (a d : BitVec 5) (l : BitVec 3)
  | vlog2F32 (k : BitVec 3) (a d : BitVec 5) (l : BitVec 3)
  | vrcpF32 (k : BitVec 3) (a d : BitVec 5) (l : BitVec 3)
  | vrsqrtF32 (k : BitVec 3) (a d : BitVec 5) (l : BitVec 3)
  | vdivF32 (k : BitVec 3) (b a d : BitVec 5) (l : BitVec 3)
  | vrng (k : BitVec 3) (a d : BitVec 5) (l : BitVec 3)
  | vrngf (k : BitVec 3) (a d : BitVec 5) (l : BitVec 3)
  | kand (b a d l : BitVec 3)
  | kor (b a d l : BitVec 3)
  | kxor (b a d l : BitVec 3)
  | knot (a d l : BitVec 3)
  | kpop (a : BitVec 3) (d : BitVec 5) (l : BitVec 3)
  | kmovKk (a d l : BitVec 3)
  | kmovGk (a : BitVec 5) (d l : BitVec 3)
  | kmovKg (a : BitVec 3) (d : BitVec 5) (l : BitVec 3)
  | sopen (i : Dir) (a : BitVec 5) (s : BitVec 4) (l : BitVec 3)
  | sdim (i : BitVec 2) (b a : BitVec 5) (s : BitVec 4) (l : BitVec 3)
  | sbase (a : BitVec 5) (s : BitVec 4) (l : BitVec 3)
  | sidx (b : BitVec 5) (a s : BitVec 4) (l : BitVec 3)
  | sattNone (s : BitVec 4) (l : BitVec 3)
  | sattScale (a : BitVec 5) (s : BitVec 4) (l : BitVec 3)
  | sattAdds (a : BitVec 5) (s : BitVec 4) (l : BitVec 3)
  | sattFmas (b a : BitVec 5) (s : BitVec 4) (l : BitVec 3)
  | sattCvt (a : Fmt) (s : BitVec 4) (l : BitVec 3)
  | sattMins (a : BitVec 5) (s : BitVec 4) (l : BitVec 3)
  | sattMaxs (a : BitVec 5) (s : BitVec 4) (l : BitVec 3)
  | sattSumr (s : BitVec 4) (l : BitVec 3)
  | sattAdd2 (a s : BitVec 4) (l : BitVec 3)
  | sgo (s : BitVec 4) (l : BitVec 3)
  | sclose (a : BitVec 5) (s : BitVec 4) (l : BitVec 3)
  | spin (i : BitVec 2) (s : BitVec 4) (l : BitVec 3)
  | spop (a : BitVec 5) (s : BitVec 4) (l : BitVec 3)
  | spopk (b : BitVec 3) (a : BitVec 5) (s : BitVec 4) (l : BitVec 3)
  | spush (a : BitVec 5) (s : BitVec 4) (l : BitVec 3)
  | sgrant (a : BitVec 5) (f : Bool) (s : BitVec 4) (l : BitVec 3)
  | sfront (a : BitVec 5) (s : BitVec 4) (l : BitVec 3)
  | swaitf (a : BitVec 5) (s : BitVec 4) (l : BitVec 3)
  | sevt (a : BitVec 5) (s : BitVec 4) (l : BitVec 3)
  | srecall (s : BitVec 4) (l : BitVec 3)
  | sskip (a : BitVec 5) (s : BitVec 4) (l : BitVec 3)
  | ssave (a : BitVec 5) (s : BitVec 4) (l : BitVec 3)
  | sload (a : BitVec 5) (s : BitVec 4) (l : BitVec 3)
  | squery (i : BitVec 3) (a : BitVec 5) (s : BitVec 4) (l : BitVec 3)
  | send (z : BitVec 3) (b a d : BitVec 5) (t : BitVec 2)
  | sendr (z : BitVec 3) (b a d : BitVec 5) (t : BitVec 2)
  | sendw (z : BitVec 3) (b a d : BitVec 5) (t : BitVec 2)
  | sendt (z : BitVec 3) (b a d : BitVec 5) (t : BitVec 2)
  | sendv (b a d : BitVec 5) (t : BitVec 2)
  | reply (z : BitVec 3) (b a d : BitVec 5)
  | fwd (a d : BitVec 5) (t : BitVec 2)
  | sendg (z : BitVec 3) (b a d : BitVec 5) (t : BitVec 2)
  | mbcfg (b a d : BitVec 5) (l : BitVec 3)
  | mbcnt (b a d : BitVec 5) (l : BitVec 3)
  | mbmask (a d : BitVec 5) (l : BitVec 3)
  | msgf (a d : BitVec 5) (l : BitVec 3)
  | tagbind (b a d : BitVec 5) (l : BitVec 3)
  | tagwait (a d : BitVec 5) (l : BitVec 3)
  | wret (d : BitVec 5) (l : BitVec 3)
  | wq (d : BitVec 5) (l : BitVec 3)
  | jcfg (b a d : BitVec 5) (l : BitVec 3)
  | jadd (b a d : BitVec 5) (l : BitVec 3)
  | launch (b a d : BitVec 5) (l : BitVec 3)
  | selfq (a d : BitVec 5) (l : BitVec 3)
  | gangq (a d : BitVec 5) (l : BitVec 3)
  | fenceL (l : BitVec 3)
  | rel (k : Scope) (l : BitVec 3)
  | acq (k : Scope) (l : BitVec 3)
  | strel (k : Scope) (b a : BitVec 5) (l : BitVec 3)
  | ldacq (k : Scope) (a d : BitVec 5) (l : BitVec 3)
  | fenceS (l : BitVec 3)
  | fenceM (l : BitVec 3)
  | fenceA (l : BitVec 3)
  | aaddS32 (b a d : BitVec 5) (p : Bool) (c : Scope)
  | aaddS64 (b a d : BitVec 5) (p : Bool) (c : Scope)
  | aminS32 (b a d : BitVec 5) (p : Bool) (c : Scope)
  | amaxS32 (b a d : BitVec 5) (p : Bool) (c : Scope)
  | aminN32 (b a d : BitVec 5) (p : Bool) (c : Scope)
  | axchg (b a d : BitVec 5) (p : Bool) (c : Scope)
  | acas (b a d : BitVec 5) (p : Bool) (c : Scope)
  | aaddF32 (b a d : BitVec 5) (p : Bool) (c : Scope)
  | aor (b a d : BitVec 5) (p : Bool) (c : Scope)
  | aand (b a d : BitVec 5) (p : Bool) (c : Scope)
  | axor (b a d : BitVec 5) (p : Bool) (c : Scope)
  | aminN64 (b a d : BitVec 5) (p : Bool) (c : Scope)
  | barv (a l : BitVec 3)
  | barw (a l : BitVec 3)
  | barvw (a l : BitVec 3)
  | barq (a : BitVec 3) (d : BitVec 5) (l : BitVec 3)
  | watch (a d : BitVec 5) (l : BitVec 3)
  | waitw (b a d : BitVec 5) (l : BitVec 3)
  | unwatch (a : BitVec 5) (l : BitVec 3)
  | mldb (b a : BitVec 5) (e : Fmt) (l : BitVec 3)
  | mldbs (m : Sparse) (b a : BitVec 5) (e : Fmt) (l : BitVec 3)
  | mswap (l : BitVec 3)
  | mscale (m : Bool) (a : BitVec 5) (l : BitVec 3)
  | mzero (z : BitVec 1) (l : BitVec 3)
  | mquad (a : BitVec 5) (l : BitVec 3)
  | mma (m : Bool) (b a : BitVec 5) (e : Fmt) (z : BitVec 1) (l : BitVec 3)
  | mmas (m : Bool) (b a : BitVec 5) (e : Fmt) (z : BitVec 1) (l : BitVec 3)
  | moutl (b a : BitVec 5) (e : Fmt) (z : BitVec 1) (l : BitVec 3)
  | mrdz (m : Bool) (b a : BitVec 5) (e : Fmt) (z : BitVec 1) (l : BitVec 3)
  | mstz (m : Bool) (b a : BitVec 5) (e : Fmt) (z : BitVec 1) (l : BitVec 3)
  | mdrain (t : BitVec 2) (m : Bool) (b a : BitVec 5) (e : Fmt) (z : BitVec 1) (l : BitVec 3)
  | mwait (z : BitVec 1) (l : BitVec 3)
  | tlrdef (a d : BitVec 5) (l : BitVec 3)
  | tlrfree (a d : BitVec 5) (l : BitVec 3)
  | copy (a d : BitVec 5) (l : BitVec 3)
  | copyf (a d : BitVec 5) (l : BitVec 3)
  | cpatch (b a d : BitVec 5) (l : BitVec 3)
  | copyq (a d : BitVec 5) (l : BitVec 3)
  | ccancel (a d : BitVec 5) (l : BitVec 3)
  | pft (b a : BitVec 5) (l : BitVec 3)
  | bbinit (b a d : BitVec 5) (l : BitVec 3)
  | bget (b a d : BitVec 5) (l : BitVec 3)
  | bpeek (b d : BitVec 5) (l : BitVec 3)
  | bskip (b a : BitVec 5) (l : BitVec 3)
  | bput (b a d : BitVec 5) (l : BitVec 3)
  | bflush (a d : BitVec 5) (l : BitVec 3)
  | bgetx (b a d : BitVec 5) (l : BitVec 3)
  | bbpos (d : BitVec 5) (l : BitVec 3)
  | sealg (a d : BitVec 5) (l : BitVec 3)
  | sealset (b d : BitVec 5) (l : BitVec 3)
  | sealchk (a d : BitVec 5) (l : BitVec 3)
  | poison (d : BitVec 5) (l : BitVec 3)
  | sealmode (a d : BitVec 5) (l : BitVec 3)
  | csrr (c : Csr) (d : BitVec 5) (l : BitVec 3)
  | csrw (c : Csr) (a d : BitVec 5) (l : BitVec 3)
  | csrs (c : Csr) (a d : BitVec 5) (l : BitVec 3)
  | csrc (c : Csr) (a d : BitVec 5) (l : BitVec 3)
  | gstop (a d : BitVec 5) (l : BitVec 3)
  | gresume (a d : BitVec 5) (l : BitVec 3)
  | ctxsave (b a d : BitVec 5) (l : BitVec 3)
  | ctxload (b a d : BitVec 5) (l : BitVec 3)
  | evict (b a d : BitVec 5) (l : BitVec 3)
  | restore (b a d : BitVec 5) (l : BitVec 3)
  | tret (a : BitVec 5) (l : BitVec 3)
  | tlbinv (b a d : BitVec 5) (l : BitVec 3)
  | tlbinva (a d : BitVec 5) (l : BitVec 3)
  | xbset (a d : BitVec 5) (l : BitVec 3)
  | pageq (a d : BitVec 5) (l : BitVec 3)
  | amapset (b a d : BitVec 5) (l : BitVec 3)
  | cMov (a d : BitVec 5)
  | cAddi (i d : BitVec 5)
  | cLi (i d : BitVec 5)
  | cLdl (a d : BitVec 5)
  | cStl (a b : BitVec 5)
  | cBeqz (o a : BitVec 5)
  | cBnez (o a : BitVec 5)
  | cJ (o : BitVec 10)
  | cEnd
  | cRet
  | cSpop (s : BitVec 4) (d : BitVec 5)
  | cSpush (s : BitVec 4) (a : BitVec 5)
  | cVmov (a d : BitVec 5)
  | cVfmaF32 (b a d : BitVec 3)
  | cNop
  | lqrsvRead (part queue : Nat)
  | lqtailWrite (part queue : Nat) (idx : Word)
  | asgWrite (idx : BitVec 4) (val : Word)
  | lcWrite (val : Word)
  | messageLanding (m : MsgRef)
  | tagReplyLanding (m : MsgRef)
  | hwFaultMessageLanding (id : Nat)
  | mailboxOverflowTrap (core : Nat)
  | firingSelection (core : Nat)
  | ageExpiry (core idx mb : Nat)
  | budgetExpiry (core ctx : Nat)
  | slotHoldExpiry (core idx mb holder : Nat)
  | retrySignal (m : MsgRef)
  | retryBackoffExpiry (m : MsgRef)
  | parkAppend (m : MsgRef)
  | parkReplayRecord (core idx : Nat)
  | distributorTakeStage (part queue : Nat)
  | gangPlacement (stage gang : Nat) (places : List Place) (tags : List Nat) (evict : List (Nat × List Word))
  | stageAgingExpiry (stage : Nat)
  | weightReturnArrival (id : Nat)
  | hostAccess (part : Nat) (va : Word) (len : Nat) (data : Option (List Byte))
  | storeQueueDrain (core id : Nat)
  | loadReply (core id : Nat)
  | homeFillRequest (dst : Nat) (pa : Nat) (evicts : List Nat)
  | writeBackArrival (src : Nat) (fromCore : Bool) (line : Nat) (evicts : List Nat)
  | homeDirectAccess (core id : Nat) (err : Bool) (evicts : List Nat)
  | remoteDeviceAccess (core id : Nat) (routed : Bool)
  | freqReadAtHome (core id : Nat) (err : Bool)
  | atomicExecute (core id : Nat) (evicts : List Nat)
  | atomicReply (core id : Nat)
  | pageSwap (frame : Nat)
  | streamElement (core slot : Nat) (err : Bool)
  | nbuRowOperation (core slot n : Nat)
  | streamMove (core slot : Nat) (loc : BitVec 2) (locId : Nat)
  | streamPatchArrival (core id : Nat)
  | frontierAck (core slot : Nat)
  | copyRequest (id : Nat)
  | copyPart (id part : Nat) (err : Option Bool)
  | copyLanding (id part : Nat)
  | copyfFollowon (id : Nat)
  | matrixLoadComplete (core : Nat)
  | mmaComplete (core : Nat) (errs : ArrayErrors)
  | quadMmaReceive (core : Nat) (errs : ArrayErrors)
  | barrierRelease (gang tag : Nat)
  | waitwTimeout (core ctx : Nat)
  | rampWindowExpiry (slate demand : Nat)
  | monitorSample (site : MonitorSite) (temp volt proc : Int)
  | powerOn (r : Fratre) (genuine : Bool)
  | functionReady (f : Fn)
  | functionFailure (f : Fn)
  | flitReceive (link : Nat) (good : Bool)
  | linkFailure (link : Nat)
  | partitionCreate (part : Nat)
  | partitionActivate (part : Nat) (p : PartSetup)
  | partitionFree (part : Nat)
  | partitionErase (part : Nat)
  | eraseComplete (part : Nat)
  | keySlotGenerate (part slot : Nat)
  | keySlotDiscard (part slot : Nat)
  | frameAssign (frame part : Nat)
  | launchQueueSetup (part queue : Nat) (cb base : Word) (count : Nat) (enable : Bool)
  | checkpointExport (req : CkRequest)
  | checkpointImport (req : CkRequest) (frames : List CkFrame)
  | attestationReport (nonce : Word)
  | illegalEncoding (e : DecodeError) (word : BitVec 32) (half : Bool)
  | variableLatencyResult (core ctx id : Nat)
  deriving DecidableEq, Repr

end Sys2Proof
end

