-- ==== Sys2Proof/WellFormed.lean ====
section
/-!
DEFINITION. Which terms of Instr are instructions: the field rules of R50, R59, R109, R135, R194, R222 and R293 that the types
of the fields do not already state.  Events carry no encoding and are well formed.
-/

namespace Sys2Proof

/-- A governing mask field: K = 0b100 is no mask (R50). -/
def okMask (k : BitVec 3) : Bool := k != 4
/-- A k destination is k1 to k7 (R50). -/
def okKDest (d : BitVec 3) : Bool := d != 0
/-- A size class of a send is 0 to 4 (R50). -/
def okSize (z : BitVec 3) : Bool := z.toNat ≤ 4
/-- D of a posted atomic is 0 (R50). -/
def okPosted (p : Bool) (d : BitVec 5) : Bool := !p || d == 0

/-- The formats of B (R293). -/
def Fmt.bFmt : Fmt → Bool
  | .s4 | .q4x | .s8 | .s16 | .e4 | .e5 | .f16 | .b16 => true
  | _ => false
/-- The formats of A (R293). -/
def Fmt.aFmt : Fmt → Bool
  | .s4 | .s8 | .s16 | .e4 | .e5 | .f16 | .b16 => true
  | _ => false
/-- The formats of MOUTL (R293). -/
def Fmt.outFmt : Fmt → Bool
  | .s4 | .s8 | .s16 => true
  | _ => false
/-- The formats of MRDZ (R293). -/
def Fmt.rdFmt : Fmt → Bool
  | .f32 | .s32 => true
  | _ => false
/-- The formats of MSTZ and MDRAIN (R293). -/
def Fmt.stFmt : Fmt → Bool
  | .f32 | .f16 | .b16 | .e4 | .e5 | .s8 | .s16 | .s32 => true
  | _ => false

/-- The checks on the fields of an instruction. -/
def Instr.wf : Instr → Bool
  | .loop e _ _ => 3 ≤ e.toNat
  | .vaddF32 k _ _ _ _ => okMask k
  | .vsubF32 k _ _ _ _ => okMask k
  | .vmulF32 k _ _ _ _ => okMask k
  | .vfmaF32 k _ _ _ _ => okMask k
  | .vfmsF32 k _ _ _ _ => okMask k
  | .vminF32 k _ _ _ _ => okMask k
  | .vmaxF32 k _ _ _ _ => okMask k
  | .vabsF32 k _ _ _ => okMask k
  | .vaddF16 k _ _ _ _ => okMask k
  | .vmulF16 k _ _ _ _ => okMask k
  | .vfmaF16 k _ _ _ _ => okMask k
  | .vaddB16 k _ _ _ _ => okMask k
  | .vmulB16 k _ _ _ _ => okMask k
  | .vfmaB16 k _ _ _ _ => okMask k
  | .vdotF16 k _ _ _ _ => okMask k
  | .vdotB16 k _ _ _ _ => okMask k
  | .vaddS32 k _ _ _ _ => okMask k
  | .vsubS32 k _ _ _ _ => okMask k
  | .vmulS32 k _ _ _ _ => okMask k
  | .vmaddS32 k _ _ _ _ => okMask k
  | .vminS32 k _ _ _ _ => okMask k
  | .vmaxS32 k _ _ _ _ => okMask k
  | .vdotbS8 k _ _ _ _ => okMask k
  | .vdotqQ4x k _ _ _ _ => okMask k
  | .vand k _ _ _ _ => okMask k
  | .vor k _ _ _ _ => okMask k
  | .vxor k _ _ _ _ => okMask k
  | .vsll k _ _ _ _ => okMask k
  | .vsrl k _ _ _ _ => okMask k
  | .vsra k _ _ _ _ => okMask k
  | .vmov k _ _ _ => okMask k
  | .vceqF32 k _ _ d _ => okMask k && okKDest d
  | .vcltF32 k _ _ d _ => okMask k && okKDest d
  | .vcleF32 k _ _ d _ => okMask k && okKDest d
  | .vcunF32 k _ _ d _ => okMask k && okKDest d
  | .vceqS32 k _ _ d _ => okMask k && okKDest d
  | .vcltS32 k _ _ d _ => okMask k && okKDest d
  | .vcltN32 k _ _ d _ => okMask k && okKDest d
  | .vcnz k _ d _ => okMask k && okKDest d
  | .vcvtF32S32 k _ _ _ => okMask k
  | .vcvtS32F32 k _ _ _ => okMask k
  | .vcvtF16F32 k _ _ _ _ => okMask k
  | .vcvtF32F16 k _ _ _ => okMask k
  | .vcvtB16F32 k _ _ _ _ => okMask k
  | .vcvtF32B16 k _ _ _ => okMask k
  | .vcvtE4F32 k _ _ _ => okMask k
  | .vcvtF32E4 k _ _ _ => okMask k
  | .vperm k _ _ _ _ => okMask k
  | .vbcst k _ _ _ => okMask k
  | .vcomp k _ _ _ => okMask k
  | .viota k _ _ _ => okMask k
  | .vunpq k _ _ _ _ => okMask k
  | .vexp2F32 k _ _ _ => okMask k
  | .vlog2F32 k _ _ _ => okMask k
  | .vrcpF32 k _ _ _ => okMask k
  | .vrsqrtF32 k _ _ _ => okMask k
  | .vdivF32 k _ _ _ _ => okMask k
  | .vrng k _ _ _ => okMask k
  | .vrngf k _ _ _ => okMask k
  | .kand _ _ d _ => okKDest d
  | .kor _ _ d _ => okKDest d
  | .kxor _ _ d _ => okKDest d
  | .knot _ d _ => okKDest d
  | .kmovKk _ d _ => okKDest d
  | .kmovGk _ d _ => okKDest d
  | .spopk b _ _ _ => okKDest b
  | .squery i _ _ _ => i.toNat ≤ 5
  | .send z _ _ _ _ => okSize z
  | .sendr z _ _ _ _ => okSize z
  | .sendw z _ _ _ _ => okSize z
  | .sendt z _ _ _ _ => okSize z
  | .reply z _ _ _ => okSize z
  | .sendg z _ _ _ _ => okSize z
  | .aaddS32 _ _ d p _ => okPosted p d
  | .aaddS64 _ _ d p _ => okPosted p d
  | .aminS32 _ _ d p _ => okPosted p d
  | .amaxS32 _ _ d p _ => okPosted p d
  | .aminN32 _ _ d p _ => okPosted p d
  | .axchg _ _ d p _ => okPosted p d
  | .acas _ _ d p _ => okPosted p d
  | .aaddF32 _ _ d p _ => okPosted p d
  | .aor _ _ d p _ => okPosted p d
  | .aand _ _ d p _ => okPosted p d
  | .axor _ _ d p _ => okPosted p d
  | .aminN64 _ _ d p _ => okPosted p d
  | .mldb _ _ e _ => e.bFmt
  | .mldbs _ _ _ e _ => e.bFmt
  | .mma m _ a e _ _ => e.aFmt && (!m || a.toNat < 16)
  | .mmas m _ a e _ _ => e.aFmt && (!m || a.toNat < 16)
  | .moutl _ _ e _ _ => e.outFmt
  | .mrdz _ _ _ e _ _ => e.rdFmt
  | .mstz _ _ _ e _ _ => e.stFmt
  | .mdrain _ _ _ _ e _ _ => e.stFmt
  | _ => true

/-- A well-formed instruction. -/
abbrev WellFormed (i : Instr) : Prop := i.wf = true

end Sys2Proof
end

