-- ==== Sys2Proof/Decode.lean ====
section
/-!
DEFINITION. The decoder, total on any bytes, and the encoder (R47 to R53, R59).  A 32-bit word is decoded by its major
opcode (bits 7:2) and its function (bits 31:29); a pattern that is no instruction is refused with the cause of R59.
-/

namespace Sys2Proof

/-- Bits lo to lo + n - 1 of an instruction word (R49). -/
def fld (w : BitVec 32) (lo n : Nat) : BitVec n := w.extractLsb' lo n

/-- One decode check: whether it fails, its cause, and the value of the field (R59). -/
structure Check where
  fails : Bool
  cause : BitVec 8
  value : Nat

/-- A field whose only permitted value is zero: cause 0x04 (R59). -/
def must0 {n : Nat} (v : BitVec n) : Check := ⟨v != 0, 4, v.toNat⟩
/-- A k-register field: bits [4:3] must be zero, cause 0x06 (R50). -/
def kreg (v : BitVec 5) : Check := ⟨v.extractLsb' 3 2 != 0, 6, v.toNat⟩
/-- A destination k0: cause 0x07 with value 0 (R59). -/
def notK0 (v : BitVec 5) : Check := ⟨v == 0, 7, 0⟩
/-- A governing mask: K = 0b100 is cause 0x06 (R50). -/
def maskK (v : BitVec 3) : Check := ⟨v == 4, 6, v.toNat⟩
/-- K[28] must be zero: cause 0x04 (R109); that TINFO0 gives the whole of K is the model's choice (DESIGN CHOICE, log 10). -/
def k28 (v : BitVec 3) : Check := ⟨v.extractLsb' 2 1 != 0, 4, v.toNat⟩
/-- A field whose value lies outside its rule: cause 0x06 (R59). -/
def rule {n : Nat} (bad : Bool) (v : BitVec n) : Check := ⟨bad, 6, v.toNat⟩

/-- A register field one bit of which must be zero, as R135 and R293 mark A[4] where a stream number or a format code takes its place: cause 0x04
(R59, R135).  That TINFO0 gives the whole field is the model's choice (DESIGN CHOICE, log 10). -/
def bit0 {n : Nat} (bad : Bool) (v : BitVec n) : Check := ⟨bad, 4, v.toNat⟩

/-- The smallest cause among failing checks. -/
def leastCause : List Check → BitVec 8 → BitVec 8
  | [], m => m
  | c :: cs, m => leastCause cs (if c.cause < m then c.cause else m)

/-- The instruction when every check passes; else the lowest failing cause and the values of the fields that fail
with it (R59). -/
def accept (cs : List Check) (i : Instr) : Except DecodeError Instr :=
  match cs.filter (·.fails) with
  | [] => .ok i
  | c :: rest =>
    let m := leastCause rest c.cause
    .error ⟨m, ((c :: rest).filter (fun x => x.cause == m)).map (·.value)⟩

/-- An unassigned function: cause 0x03 with FN (R59). -/
def noFn (fn : BitVec 3) : Except DecodeError Instr := .error ⟨3, [fn.toNat]⟩

/-- The format that a code names; codes 14 and 15 name none (R22). -/
def Fmt.ofCode (c : BitVec 4) : Option Fmt :=
  match c.toNat with
  | 0 => some .f32 | 1 => some .f16 | 2 => some .b16 | 3 => some .e4 | 4 => some .e5 | 5 => some .s8 | 6 => some .n8
  | 7 => some .s16 | 8 => some .n16 | 9 => some .s32 | 10 => some .n32 | 11 => some .s64 | 12 => some .q4x
  | 13 => some .s4 | _ => none

/-- The code of a format (R22). -/
def Fmt.code : Fmt → BitVec 4
  | .f32 => 0 | .f16 => 1 | .b16 => 2 | .e4 => 3 | .e5 => 4 | .s8 => 5 | .n8 => 6 | .s16 => 7 | .n16 => 8 | .s32 => 9
  | .n32 => 10 | .s64 => 11 | .q4x => 12 | .s4 => 13

/-- The scope of a scope code; 0b11 and above name none (R50). -/
def Scope.ofCode (c : Nat) : Option Scope :=
  match c with
  | 0 => some .cl | 1 => some .dv | 2 => some .sy | _ => none

/-- The code of a scope (R212). -/
def Scope.code : Scope → Nat
  | .cl => 0 | .dv => 1 | .sy => 2

/-- The direction that IMM3 names (R135). -/
def Dir.ofCode (c : BitVec 3) : Option Dir :=
  match c.toNat with
  | 0 => some .src | 1 => some .drn | 2 => some .upd | 3 => some .idx | _ => none

/-- The code of a direction (R132). -/
def Dir.code : Dir → BitVec 3
  | .src => 0 | .drn => 1 | .upd => 2 | .idx => 3

/-- The CSR that CSR8 names (R346). -/
def Csr.ofNum (c : BitVec 8) : Option Csr :=
  match c.toNat with
  | 0x00 => some .fpx | 0x01 => some .scb | 0x02 => some .lc | 0x03 => some .rsp | 0x04 => some .sealctl
  | 0x05 => some .seallog | 0x06 => some .evt | 0x07 => some .hbudget | 0x08 => some .age | 0x09 => some .self
  | 0x0A => some .part | 0x0B => some .w | 0x0C => some .time | 0x0D => some .xb | 0x10 => some .tcode
  | 0x11 => some .tpc | 0x12 => some .tinfo0 | 0x13 => some .tinfo1 | 0x20 => some .status | 0x21 => some .tvec
  | 0x22 => some .ssx0 | 0x23 => some .ssx1 | 0x24 => some .ssx2 | 0x25 => some .ssx3 | 0x26 => some .lmwin
  | 0x27 => some .actsel | 0x28 => some .asg | 0x29 => some .ptb | 0x2A => some .dbgsel | 0x2B => some .dbgdata
  | _ => none

/-- The number of a CSR (R346). -/
def Csr.num : Csr → BitVec 8
  | .fpx => 0x00 | .scb => 0x01 | .lc => 0x02 | .rsp => 0x03 | .sealctl => 0x04 | .seallog => 0x05 | .evt => 0x06
  | .hbudget => 0x07 | .age => 0x08 | .self => 0x09 | .part => 0x0A | .w => 0x0B | .time => 0x0C | .xb => 0x0D
  | .tcode => 0x10 | .tpc => 0x11 | .tinfo0 => 0x12 | .tinfo1 => 0x13 | .status => 0x20 | .tvec => 0x21
  | .ssx0 => 0x22 | .ssx1 => 0x23 | .ssx2 => 0x24 | .ssx3 => 0x25 | .lmwin => 0x26 | .actsel => 0x27 | .asg => 0x28
  | .ptb => 0x29 | .dbgsel => 0x2A | .dbgdata => 0x2B

/-- A format field: codes 14 and 15 are cause 0x05, a code outside the function's list cause 0x06 (R293); the checks of
the other fields come with it, so that the lowest cause is reported. -/
def withFmt (c : BitVec 4) (allowed : Fmt → Bool) (cs : List Check) (i : Fmt → Instr) : Except DecodeError Instr :=
  match Fmt.ofCode c with
  | none => accept (⟨true, 5, c.toNat⟩ :: cs) (.nop 0)
  | some f => accept (⟨!allowed f, 6, c.toNat⟩ :: cs) (i f)


/-- A scope field: a code with no scope is cause 0x06 (R50). -/
def withScope (c : Nat) (cs : List Check) (i : Scope → Instr) : Except DecodeError Instr :=
  match Scope.ofCode c with
  | none => accept (⟨true, 6, c⟩ :: cs) (.nop 0)
  | some s => accept cs (i s)

/-- The direction of SOPEN: a value above 3 is cause 0x06 (R135). -/
def withDir (c : BitVec 3) (cs : List Check) (i : Dir → Instr) : Except DecodeError Instr :=
  match Dir.ofCode c with
  | none => accept (⟨true, 6, c.toNat⟩ :: cs) (.nop 0)
  | some d => accept cs (i d)

/-- The CSR of a CSR instruction: an unassigned number is cause 0x09 (R346). -/
def withCsr (w : BitVec 32) (cs : List Check) (i : Csr → Instr) : Except DecodeError Instr :=
  match Csr.ofNum (fld w 21 8) with
  | none => accept (⟨true, 9, (fld w 21 8).toNat⟩ :: cs) (.nop 0)
  | some c => accept cs (i c)

/-- D of a posted atomic must be zero: cause 0x04 (R50). -/
def postedD (w : BitVec 32) : Check := ⟨fld w 10 1 == 1 && fld w 11 5 != 0, 4, (fld w 11 5).toNat⟩

/-- Major 0x01 (R51). -/
def decodeMaj01 (w : BitVec 32) : Except DecodeError Instr :=
  match (fld w 29 3).toNat with
  | 0 => accept [must0 (fld w 26 3)] (.add (fld w 21 5) (fld w 16 5) (fld w 11 5) (fld w 8 3))
  | 1 => accept [must0 (fld w 26 3)] (.sub (fld w 21 5) (fld w 16 5) (fld w 11 5) (fld w 8 3))
  | 2 => accept [must0 (fld w 26 3)] (.and (fld w 21 5) (fld w 16 5) (fld w 11 5) (fld w 8 3))
  | 3 => accept [must0 (fld w 26 3)] (.or (fld w 21 5) (fld w 16 5) (fld w 11 5) (fld w 8 3))
  | 4 => accept [must0 (fld w 26 3)] (.xor (fld w 21 5) (fld w 16 5) (fld w 11 5) (fld w 8 3))
  | 5 => accept [must0 (fld w 26 3)] (.andn (fld w 21 5) (fld w 16 5) (fld w 11 5) (fld w 8 3))
  | 6 => accept [must0 (fld w 26 3)] (.sll (fld w 21 5) (fld w 16 5) (fld w 11 5) (fld w 8 3))
  | _ => accept [must0 (fld w 26 3)] (.srl (fld w 21 5) (fld w 16 5) (fld w 11 5) (fld w 8 3))

/-- Major 0x02 (R51). -/
def decodeMaj02 (w : BitVec 32) : Except DecodeError Instr :=
  match (fld w 29 3).toNat with
  | 0 => accept [must0 (fld w 26 3)] (.sra (fld w 21 5) (fld w 16 5) (fld w 11 5) (fld w 8 3))
  | 1 => accept [must0 (fld w 26 3)] (.ror (fld w 21 5) (fld w 16 5) (fld w 11 5) (fld w 8 3))
  | 2 => accept [must0 (fld w 26 3)] (.minS (fld w 21 5) (fld w 16 5) (fld w 11 5) (fld w 8 3))
  | 3 => accept [must0 (fld w 26 3)] (.maxS (fld w 21 5) (fld w 16 5) (fld w 11 5) (fld w 8 3))
  | 4 => accept [must0 (fld w 26 3)] (.minN (fld w 21 5) (fld w 16 5) (fld w 11 5) (fld w 8 3))
  | 5 => accept [must0 (fld w 26 3)] (.maxN (fld w 21 5) (fld w 16 5) (fld w 11 5) (fld w 8 3))
  | 6 => accept [must0 (fld w 21 5), must0 (fld w 26 3)] (.clz (fld w 16 5) (fld w 11 5) (fld w 8 3))
  | _ => accept [must0 (fld w 21 5), must0 (fld w 26 3)] (.popc (fld w 16 5) (fld w 11 5) (fld w 8 3))

/-- Major 0x03 (R51). -/
def decodeMaj03 (w : BitVec 32) : Except DecodeError Instr :=
  match (fld w 29 3).toNat with
  | 0 => accept [must0 (fld w 26 3)] (.mul (fld w 21 5) (fld w 16 5) (fld w 11 5) (fld w 8 3))
  | 1 => accept [must0 (fld w 26 3)] (.mulhS (fld w 21 5) (fld w 16 5) (fld w 11 5) (fld w 8 3))
  | 2 => accept [must0 (fld w 26 3)] (.mulhN (fld w 21 5) (fld w 16 5) (fld w 11 5) (fld w 8 3))
  | 3 => accept [must0 (fld w 26 3)] (.divS (fld w 21 5) (fld w 16 5) (fld w 11 5) (fld w 8 3))
  | 4 => accept [must0 (fld w 26 3)] (.divN (fld w 21 5) (fld w 16 5) (fld w 11 5) (fld w 8 3))
  | 5 => accept [must0 (fld w 26 3)] (.remS (fld w 21 5) (fld w 16 5) (fld w 11 5) (fld w 8 3))
  | 6 => accept [must0 (fld w 26 3)] (.remN (fld w 21 5) (fld w 16 5) (fld w 11 5) (fld w 8 3))
  | _ => accept [must0 (fld w 26 3)] (.madd (fld w 21 5) (fld w 16 5) (fld w 11 5) (fld w 8 3))

/-- Major 0x04 (R51). -/
def decodeMaj04 (w : BitVec 32) : Except DecodeError Instr :=
  match (fld w 29 3).toNat with
  | 0 => accept [must0 (fld w 26 3)] (.seq (fld w 21 5) (fld w 16 5) (fld w 11 5) (fld w 8 3))
  | 1 => accept [must0 (fld w 26 3)] (.sne (fld w 21 5) (fld w 16 5) (fld w 11 5) (fld w 8 3))
  | 2 => accept [must0 (fld w 26 3)] (.sltS (fld w 21 5) (fld w 16 5) (fld w 11 5) (fld w 8 3))
  | 3 => accept [must0 (fld w 26 3)] (.sltN (fld w 21 5) (fld w 16 5) (fld w 11 5) (fld w 8 3))
  | 4 => accept [must0 (fld w 26 3)] (.sleS (fld w 21 5) (fld w 16 5) (fld w 11 5) (fld w 8 3))
  | 5 => accept [must0 (fld w 26 3)] (.sleN (fld w 21 5) (fld w 16 5) (fld w 11 5) (fld w 8 3))
  | 6 => accept [must0 (fld w 26 3)] (.csel (fld w 21 5) (fld w 16 5) (fld w 11 5) (fld w 8 3))
  | _ => accept [must0 (fld w 26 3)] (.bfx (fld w 21 5) (fld w 16 5) (fld w 11 5) (fld w 8 3))

/-- Major 0x05 (R51).  For a shift whose IMM8[7:6] is not zero TINFO0 gives the whole of IMM8: R59 says 'the field's value' and leaves open
whether the two bits or the field that holds them is meant (DESIGN CHOICE, log 10). -/
def decodeMaj05 (w : BitVec 32) : Except DecodeError Instr :=
  match (fld w 29 3).toNat with
  | 0 => accept [] (.addi (fld w 21 8) (fld w 16 5) (fld w 11 5) (fld w 8 3))
  | 1 => accept [] (.andi (fld w 21 8) (fld w 16 5) (fld w 11 5) (fld w 8 3))
  | 2 => accept [] (.ori (fld w 21 8) (fld w 16 5) (fld w 11 5) (fld w 8 3))
  | 3 => accept [] (.xori (fld w 21 8) (fld w 16 5) (fld w 11 5) (fld w 8 3))
  | 4 => accept [rule ((fld w 27 2) != 0) (fld w 21 8)] (.slli (fld w 21 6) (fld w 16 5) (fld w 11 5) (fld w 8 3))
  | 5 => accept [rule ((fld w 27 2) != 0) (fld w 21 8)] (.srli (fld w 21 6) (fld w 16 5) (fld w 11 5) (fld w 8 3))
  | 6 => accept [rule ((fld w 27 2) != 0) (fld w 21 8)] (.srai (fld w 21 6) (fld w 16 5) (fld w 11 5) (fld w 8 3))
  | _ => accept [] (.slti (fld w 21 8) (fld w 16 5) (fld w 11 5) (fld w 8 3))

/-- Major 0x06 (R51). -/
def decodeMaj06 (w : BitVec 32) : Except DecodeError Instr :=
  accept [] (.li (fld w 16 16) (fld w 11 5) (fld w 8 3))

/-- Major 0x07 (R51). -/
def decodeMaj07 (w : BitVec 32) : Except DecodeError Instr :=
  accept [] (.lsh (fld w 16 16) (fld w 11 5) (fld w 8 3))

/-- Major 0x08 (R51). -/
def decodeMaj08 (w : BitVec 32) : Except DecodeError Instr :=
  match (fld w 8 3).toNat with
  | 0 => accept [] (.beq (fld w 21 11) (fld w 16 5) (fld w 11 5))
  | 1 => accept [] (.bne (fld w 21 11) (fld w 16 5) (fld w 11 5))
  | 2 => accept [] (.bltS (fld w 21 11) (fld w 16 5) (fld w 11 5))
  | 3 => accept [] (.bgeS (fld w 21 11) (fld w 16 5) (fld w 11 5))
  | 4 => accept [] (.bltN (fld w 21 11) (fld w 16 5) (fld w 11 5))
  | 5 => accept [] (.bgeN (fld w 21 11) (fld w 16 5) (fld w 11 5))
  | 6 => accept [must0 (fld w 16 5), kreg (fld w 11 5)] (.bkany (fld w 21 11) (fld w 11 3))
  | _ => accept [must0 (fld w 16 5), kreg (fld w 11 5)] (.bknone (fld w 21 11) (fld w 11 3))

/-- Major 0x09 (R51). -/
def decodeMaj09 (w : BitVec 32) : Except DecodeError Instr :=
  if fld w 31 1 == 0 then .ok (.j (fld w 8 23)) else .ok (.call (fld w 8 23))

/-- Major 0x0A (R51). -/
def decodeMaj0A (w : BitVec 32) : Except DecodeError Instr :=
  accept [must0 (fld w 11 5), rule ((fld w 21 11) < 3) (fld w 21 11)] (.loop (fld w 21 11) (fld w 16 5) (fld w 8 3))

/-- Major 0x0B (R51). -/
def decodeMaj0B (w : BitVec 32) : Except DecodeError Instr :=
  match (fld w 29 3).toNat with
  | 0 => accept [must0 (fld w 11 5), must0 (fld w 21 5), must0 (fld w 26 3)] (.jr (fld w 16 5) (fld w 8 3))
  | 1 => accept [must0 (fld w 11 5), must0 (fld w 21 5), must0 (fld w 26 3)] (.callr (fld w 16 5) (fld w 8 3))
  | 2 => accept [must0 (fld w 11 5), must0 (fld w 16 5), must0 (fld w 21 5), must0 (fld w 26 3)] (.ret (fld w 8 3))
  | 3 => accept [must0 (fld w 11 5), must0 (fld w 16 5), must0 (fld w 21 5), must0 (fld w 26 3)] (.endFiring (fld w 8 3))
  | 4 => accept [must0 (fld w 11 5), must0 (fld w 16 5), must0 (fld w 21 5), must0 (fld w 26 3)] (.nop (fld w 8 3))
  | 5 => accept [must0 (fld w 11 5), must0 (fld w 21 5), must0 (fld w 26 3)] (.trap (fld w 16 5) (fld w 8 3))
  | 6 => accept [must0 (fld w 11 5), must0 (fld w 16 5), must0 (fld w 21 5), must0 (fld w 26 3)] (.brk (fld w 8 3))
  | _ => noFn (fld w 29 3)

/-- Major 0x0C (R51). -/
def decodeMaj0C (w : BitVec 32) : Except DecodeError Instr :=
  match (fld w 29 3).toNat with
  | 0 => accept [] (.ldlS8 (fld w 21 8) (fld w 16 5) (fld w 11 5) (fld w 8 3))
  | 1 => accept [] (.ldlN8 (fld w 21 8) (fld w 16 5) (fld w 11 5) (fld w 8 3))
  | 2 => accept [] (.ldlS16 (fld w 21 8) (fld w 16 5) (fld w 11 5) (fld w 8 3))
  | 3 => accept [] (.ldlN16 (fld w 21 8) (fld w 16 5) (fld w 11 5) (fld w 8 3))
  | 4 => accept [] (.ldlS32 (fld w 21 8) (fld w 16 5) (fld w 11 5) (fld w 8 3))
  | 5 => accept [] (.ldlN32 (fld w 21 8) (fld w 16 5) (fld w 11 5) (fld w 8 3))
  | 6 => accept [] (.ldl64 (fld w 21 8) (fld w 16 5) (fld w 11 5) (fld w 8 3))
  | _ => accept [] (.vldl (fld w 21 8) (fld w 16 5) (fld w 11 5) (fld w 8 3))

/-- Major 0x0D (R51). -/
def decodeMaj0D (w : BitVec 32) : Except DecodeError Instr :=
  match (fld w 29 3).toNat with
  | 0 => accept [] (.stl8 (fld w 21 8) (fld w 16 5) (fld w 11 5) (fld w 8 3))
  | 1 => accept [] (.stl16 (fld w 21 8) (fld w 16 5) (fld w 11 5) (fld w 8 3))
  | 2 => accept [] (.stl32 (fld w 21 8) (fld w 16 5) (fld w 11 5) (fld w 8 3))
  | 3 => accept [] (.stl64 (fld w 21 8) (fld w 16 5) (fld w 11 5) (fld w 8 3))
  | 4 => accept [] (.vstl (fld w 21 8) (fld w 16 5) (fld w 11 5) (fld w 8 3))
  | 5 => accept [] (.vgatl (fld w 21 8) (fld w 16 5) (fld w 11 5) (fld w 8 3))
  | 6 => accept [] (.vscatl (fld w 21 8) (fld w 16 5) (fld w 11 5) (fld w 8 3))
  | _ => accept [] (.vbcl (fld w 21 8) (fld w 16 5) (fld w 11 5) (fld w 8 3))

/-- Major 0x0E (R51). -/
def decodeMaj0E (w : BitVec 32) : Except DecodeError Instr :=
  match (fld w 29 3).toNat with
  | 0 => accept [] (.ldg32 (fld w 21 8) (fld w 16 5) (fld w 11 5) (fld w 8 3))
  | 1 => accept [] (.ldg64 (fld w 21 8) (fld w 16 5) (fld w 11 5) (fld w 8 3))
  | 2 => accept [] (.stg32 (fld w 21 8) (fld w 16 5) (fld w 11 5) (fld w 8 3))
  | 3 => accept [] (.stg64 (fld w 21 8) (fld w 16 5) (fld w 11 5) (fld w 8 3))
  | 4 => accept [] (.vldg (fld w 21 8) (fld w 16 5) (fld w 11 5) (fld w 8 3))
  | 5 => accept [] (.vstg (fld w 21 8) (fld w 16 5) (fld w 11 5) (fld w 8 3))
  | 6 => accept [] (.freq (fld w 21 8) (fld w 16 5) (fld w 11 5) (fld w 8 3))
  | _ => accept [rule (1 < (fld w 11 5)) (fld w 11 5)] (.pfg (fld w 21 8) (fld w 16 5) ((fld w 11 5) == 1) (fld w 8 3))

/-- Major 0x0F (R51). -/
def decodeMaj0F (w : BitVec 32) : Except DecodeError Instr :=
  match (fld w 29 3).toNat with
  | 0 => accept [must0 (fld w 11 5), must0 (fld w 26 3)] (.cwb (fld w 21 5) (fld w 16 5) (fld w 8 3))
  | 1 => accept [must0 (fld w 11 5), must0 (fld w 26 3)] (.cinv (fld w 21 5) (fld w 16 5) (fld w 8 3))
  | 2 => accept [must0 (fld w 11 5), must0 (fld w 26 3)] (.cwbinv (fld w 21 5) (fld w 16 5) (fld w 8 3))
  | 3 => accept [must0 (fld w 11 5), must0 (fld w 26 3)] (.cflush (fld w 21 5) (fld w 16 5) (fld w 8 3))
  | 4 => accept [must0 (fld w 21 5), must0 (fld w 26 3)] (.cways (fld w 16 5) (fld w 11 5) (fld w 8 3))
  | 5 => accept [must0 (fld w 16 5), must0 (fld w 21 5), must0 (fld w 26 3)] (.cwayq (fld w 11 5) (fld w 8 3))
  | _ => noFn (fld w 29 3)

/-- Major 0x10 (R51). -/
def decodeMaj10 (w : BitVec 32) : Except DecodeError Instr :=
  match (fld w 29 3).toNat with
  | 0 => accept [maskK (fld w 26 3)] (.vaddF32 (fld w 26 3) (fld w 21 5) (fld w 16 5) (fld w 11 5) (fld w 8 3))
  | 1 => accept [maskK (fld w 26 3)] (.vsubF32 (fld w 26 3) (fld w 21 5) (fld w 16 5) (fld w 11 5) (fld w 8 3))
  | 2 => accept [maskK (fld w 26 3)] (.vmulF32 (fld w 26 3) (fld w 21 5) (fld w 16 5) (fld w 11 5) (fld w 8 3))
  | 3 => accept [maskK (fld w 26 3)] (.vfmaF32 (fld w 26 3) (fld w 21 5) (fld w 16 5) (fld w 11 5) (fld w 8 3))
  | 4 => accept [maskK (fld w 26 3)] (.vfmsF32 (fld w 26 3) (fld w 21 5) (fld w 16 5) (fld w 11 5) (fld w 8 3))
  | 5 => accept [maskK (fld w 26 3)] (.vminF32 (fld w 26 3) (fld w 21 5) (fld w 16 5) (fld w 11 5) (fld w 8 3))
  | 6 => accept [maskK (fld w 26 3)] (.vmaxF32 (fld w 26 3) (fld w 21 5) (fld w 16 5) (fld w 11 5) (fld w 8 3))
  | _ => accept [must0 (fld w 21 5), maskK (fld w 26 3)] (.vabsF32 (fld w 26 3) (fld w 16 5) (fld w 11 5) (fld w 8 3))

/-- Major 0x11 (R51). -/
def decodeMaj11 (w : BitVec 32) : Except DecodeError Instr :=
  match (fld w 29 3).toNat with
  | 0 => accept [maskK (fld w 26 3)] (.vaddF16 (fld w 26 3) (fld w 21 5) (fld w 16 5) (fld w 11 5) (fld w 8 3))
  | 1 => accept [maskK (fld w 26 3)] (.vmulF16 (fld w 26 3) (fld w 21 5) (fld w 16 5) (fld w 11 5) (fld w 8 3))
  | 2 => accept [maskK (fld w 26 3)] (.vfmaF16 (fld w 26 3) (fld w 21 5) (fld w 16 5) (fld w 11 5) (fld w 8 3))
  | 3 => accept [maskK (fld w 26 3)] (.vaddB16 (fld w 26 3) (fld w 21 5) (fld w 16 5) (fld w 11 5) (fld w 8 3))
  | 4 => accept [maskK (fld w 26 3)] (.vmulB16 (fld w 26 3) (fld w 21 5) (fld w 16 5) (fld w 11 5) (fld w 8 3))
  | 5 => accept [maskK (fld w 26 3)] (.vfmaB16 (fld w 26 3) (fld w 21 5) (fld w 16 5) (fld w 11 5) (fld w 8 3))
  | 6 => accept [maskK (fld w 26 3)] (.vdotF16 (fld w 26 3) (fld w 21 5) (fld w 16 5) (fld w 11 5) (fld w 8 3))
  | _ => accept [maskK (fld w 26 3)] (.vdotB16 (fld w 26 3) (fld w 21 5) (fld w 16 5) (fld w 11 5) (fld w 8 3))

/-- Major 0x12 (R51). -/
def decodeMaj12 (w : BitVec 32) : Except DecodeError Instr :=
  match (fld w 29 3).toNat with
  | 0 => accept [maskK (fld w 26 3)] (.vaddS32 (fld w 26 3) (fld w 21 5) (fld w 16 5) (fld w 11 5) (fld w 8 3))
  | 1 => accept [maskK (fld w 26 3)] (.vsubS32 (fld w 26 3) (fld w 21 5) (fld w 16 5) (fld w 11 5) (fld w 8 3))
  | 2 => accept [maskK (fld w 26 3)] (.vmulS32 (fld w 26 3) (fld w 21 5) (fld w 16 5) (fld w 11 5) (fld w 8 3))
  | 3 => accept [maskK (fld w 26 3)] (.vmaddS32 (fld w 26 3) (fld w 21 5) (fld w 16 5) (fld w 11 5) (fld w 8 3))
  | 4 => accept [maskK (fld w 26 3)] (.vminS32 (fld w 26 3) (fld w 21 5) (fld w 16 5) (fld w 11 5) (fld w 8 3))
  | 5 => accept [maskK (fld w 26 3)] (.vmaxS32 (fld w 26 3) (fld w 21 5) (fld w 16 5) (fld w 11 5) (fld w 8 3))
  | 6 => accept [maskK (fld w 26 3)] (.vdotbS8 (fld w 26 3) (fld w 21 5) (fld w 16 5) (fld w 11 5) (fld w 8 3))
  | _ => accept [maskK (fld w 26 3)] (.vdotqQ4x (fld w 26 3) (fld w 21 5) (fld w 16 5) (fld w 11 5) (fld w 8 3))

/-- Major 0x13 (R51). -/
def decodeMaj13 (w : BitVec 32) : Except DecodeError Instr :=
  match (fld w 29 3).toNat with
  | 0 => accept [maskK (fld w 26 3)] (.vand (fld w 26 3) (fld w 21 5) (fld w 16 5) (fld w 11 5) (fld w 8 3))
  | 1 => accept [maskK (fld w 26 3)] (.vor (fld w 26 3) (fld w 21 5) (fld w 16 5) (fld w 11 5) (fld w 8 3))
  | 2 => accept [maskK (fld w 26 3)] (.vxor (fld w 26 3) (fld w 21 5) (fld w 16 5) (fld w 11 5) (fld w 8 3))
  | 3 => accept [maskK (fld w 26 3)] (.vsll (fld w 26 3) (fld w 21 5) (fld w 16 5) (fld w 11 5) (fld w 8 3))
  | 4 => accept [maskK (fld w 26 3)] (.vsrl (fld w 26 3) (fld w 21 5) (fld w 16 5) (fld w 11 5) (fld w 8 3))
  | 5 => accept [maskK (fld w 26 3)] (.vsra (fld w 26 3) (fld w 21 5) (fld w 16 5) (fld w 11 5) (fld w 8 3))
  | 6 => accept [k28 (fld w 26 3)] (.vsel (fld w 26 2) (fld w 21 5) (fld w 16 5) (fld w 11 5) (fld w 8 3))
  | _ => accept [must0 (fld w 21 5), maskK (fld w 26 3)] (.vmov (fld w 26 3) (fld w 16 5) (fld w 11 5) (fld w 8 3))

/-- Major 0x14 (R51). -/
def decodeMaj14 (w : BitVec 32) : Except DecodeError Instr :=
  match (fld w 29 3).toNat with
  | 0 => accept [kreg (fld w 11 5), maskK (fld w 26 3), notK0 (fld w 11 5)] (.vceqF32 (fld w 26 3) (fld w 21 5) (fld w 16 5) (fld w 11 3) (fld w 8 3))
  | 1 => accept [kreg (fld w 11 5), maskK (fld w 26 3), notK0 (fld w 11 5)] (.vcltF32 (fld w 26 3) (fld w 21 5) (fld w 16 5) (fld w 11 3) (fld w 8 3))
  | 2 => accept [kreg (fld w 11 5), maskK (fld w 26 3), notK0 (fld w 11 5)] (.vcleF32 (fld w 26 3) (fld w 21 5) (fld w 16 5) (fld w 11 3) (fld w 8 3))
  | 3 => accept [kreg (fld w 11 5), maskK (fld w 26 3), notK0 (fld w 11 5)] (.vcunF32 (fld w 26 3) (fld w 21 5) (fld w 16 5) (fld w 11 3) (fld w 8 3))
  | 4 => accept [kreg (fld w 11 5), maskK (fld w 26 3), notK0 (fld w 11 5)] (.vceqS32 (fld w 26 3) (fld w 21 5) (fld w 16 5) (fld w 11 3) (fld w 8 3))
  | 5 => accept [kreg (fld w 11 5), maskK (fld w 26 3), notK0 (fld w 11 5)] (.vcltS32 (fld w 26 3) (fld w 21 5) (fld w 16 5) (fld w 11 3) (fld w 8 3))
  | 6 => accept [kreg (fld w 11 5), maskK (fld w 26 3), notK0 (fld w 11 5)] (.vcltN32 (fld w 26 3) (fld w 21 5) (fld w 16 5) (fld w 11 3) (fld w 8 3))
  | _ => accept [kreg (fld w 11 5), must0 (fld w 21 5), maskK (fld w 26 3), notK0 (fld w 11 5)] (.vcnz (fld w 26 3) (fld w 16 5) (fld w 11 3) (fld w 8 3))

/-- Major 0x15 (R51). -/
def decodeMaj15 (w : BitVec 32) : Except DecodeError Instr :=
  match (fld w 29 3).toNat with
  | 0 => accept [must0 (fld w 21 5), maskK (fld w 26 3)] (.vcvtF32S32 (fld w 26 3) (fld w 16 5) (fld w 11 5) (fld w 8 3))
  | 1 => accept [must0 (fld w 21 5), maskK (fld w 26 3)] (.vcvtS32F32 (fld w 26 3) (fld w 16 5) (fld w 11 5) (fld w 8 3))
  | 2 => accept [maskK (fld w 26 3)] (.vcvtF16F32 (fld w 26 3) (fld w 21 5) (fld w 16 5) (fld w 11 5) (fld w 8 3))
  | 3 => accept [must0 (fld w 21 5), maskK (fld w 26 3)] (.vcvtF32F16 (fld w 26 3) (fld w 16 5) (fld w 11 5) (fld w 8 3))
  | 4 => accept [maskK (fld w 26 3)] (.vcvtB16F32 (fld w 26 3) (fld w 21 5) (fld w 16 5) (fld w 11 5) (fld w 8 3))
  | 5 => accept [must0 (fld w 21 5), maskK (fld w 26 3)] (.vcvtF32B16 (fld w 26 3) (fld w 16 5) (fld w 11 5) (fld w 8 3))
  | 6 => accept [must0 (fld w 21 5), maskK (fld w 26 3)] (.vcvtE4F32 (fld w 26 3) (fld w 16 5) (fld w 11 5) (fld w 8 3))
  | _ => accept [must0 (fld w 21 5), maskK (fld w 26 3)] (.vcvtF32E4 (fld w 26 3) (fld w 16 5) (fld w 11 5) (fld w 8 3))

/-- Major 0x16 (R51). -/
def decodeMaj16 (w : BitVec 32) : Except DecodeError Instr :=
  match (fld w 29 3).toNat with
  | 0 => accept [maskK (fld w 26 3)] (.vperm (fld w 26 3) (fld w 21 5) (fld w 16 5) (fld w 11 5) (fld w 8 3))
  | 1 => accept [must0 (fld w 21 5), maskK (fld w 26 3)] (.vbcst (fld w 26 3) (fld w 16 5) (fld w 11 5) (fld w 8 3))
  | 2 => accept [must0 (fld w 26 3)] (.vext (fld w 21 5) (fld w 16 5) (fld w 11 5) (fld w 8 3))
  | 3 => accept [must0 (fld w 26 3)] (.vins (fld w 21 5) (fld w 16 5) (fld w 11 5) (fld w 8 3))
  | 4 => accept [must0 (fld w 21 5), maskK (fld w 26 3)] (.vcomp (fld w 26 3) (fld w 16 5) (fld w 11 5) (fld w 8 3))
  | 5 => accept [k28 (fld w 26 3)] (.vnzscan (fld w 26 2) (fld w 21 5) (fld w 16 5) (fld w 11 5) (fld w 8 3))
  | 6 => accept [must0 (fld w 21 5), maskK (fld w 26 3)] (.viota (fld w 26 3) (fld w 16 5) (fld w 11 5) (fld w 8 3))
  | _ => accept [maskK (fld w 26 3)] (.vunpq (fld w 26 3) (fld w 21 5) (fld w 16 5) (fld w 11 5) (fld w 8 3))

/-- Major 0x17 (R51). -/
def decodeMaj17 (w : BitVec 32) : Except DecodeError Instr :=
  match (fld w 29 3).toNat with
  | 0 => accept [must0 (fld w 21 5), k28 (fld w 26 3)] (.vrsumF32 (fld w 26 2) (fld w 16 5) (fld w 11 5) (fld w 8 3))
  | 1 => accept [must0 (fld w 21 5), k28 (fld w 26 3)] (.vrmaxF32 (fld w 26 2) (fld w 16 5) (fld w 11 5) (fld w 8 3))
  | 2 => accept [must0 (fld w 21 5), k28 (fld w 26 3)] (.vrsumS32 (fld w 26 2) (fld w 16 5) (fld w 11 5) (fld w 8 3))
  | 3 => accept [must0 (fld w 21 5), maskK (fld w 26 3)] (.vexp2F32 (fld w 26 3) (fld w 16 5) (fld w 11 5) (fld w 8 3))
  | 4 => accept [must0 (fld w 21 5), maskK (fld w 26 3)] (.vlog2F32 (fld w 26 3) (fld w 16 5) (fld w 11 5) (fld w 8 3))
  | 5 => accept [must0 (fld w 21 5), maskK (fld w 26 3)] (.vrcpF32 (fld w 26 3) (fld w 16 5) (fld w 11 5) (fld w 8 3))
  | 6 => accept [must0 (fld w 21 5), maskK (fld w 26 3)] (.vrsqrtF32 (fld w 26 3) (fld w 16 5) (fld w 11 5) (fld w 8 3))
  | _ => accept [maskK (fld w 26 3)] (.vdivF32 (fld w 26 3) (fld w 21 5) (fld w 16 5) (fld w 11 5) (fld w 8 3))

/-- Major 0x18 (R51). -/
def decodeMaj18 (w : BitVec 32) : Except DecodeError Instr :=
  match (fld w 29 3).toNat with
  | 0 => accept [must0 (fld w 21 5), maskK (fld w 26 3)] (.vrng (fld w 26 3) (fld w 16 5) (fld w 11 5) (fld w 8 3))
  | 1 => accept [must0 (fld w 21 5), maskK (fld w 26 3)] (.vrngf (fld w 26 3) (fld w 16 5) (fld w 11 5) (fld w 8 3))
  | 2 => accept [kreg (fld w 11 5), kreg (fld w 16 5), kreg (fld w 21 5), must0 (fld w 26 3), notK0 (fld w 11 5)] (.kand (fld w 21 3) (fld w 16 3) (fld w 11 3) (fld w 8 3))
  | 3 => accept [kreg (fld w 11 5), kreg (fld w 16 5), kreg (fld w 21 5), must0 (fld w 26 3), notK0 (fld w 11 5)] (.kor (fld w 21 3) (fld w 16 3) (fld w 11 3) (fld w 8 3))
  | 4 => accept [kreg (fld w 11 5), kreg (fld w 16 5), kreg (fld w 21 5), must0 (fld w 26 3), notK0 (fld w 11 5)] (.kxor (fld w 21 3) (fld w 16 3) (fld w 11 3) (fld w 8 3))
  | 5 => accept [kreg (fld w 11 5), kreg (fld w 16 5), must0 (fld w 21 5), must0 (fld w 26 3), notK0 (fld w 11 5)] (.knot (fld w 16 3) (fld w 11 3) (fld w 8 3))
  | 6 => accept [kreg (fld w 16 5), must0 (fld w 21 5), must0 (fld w 26 3)] (.kpop (fld w 16 3) (fld w 11 5) (fld w 8 3))
  | _ =>
    match (fld w 21 5).toNat with
    | 0 => accept [kreg (fld w 11 5), kreg (fld w 16 5), must0 (fld w 26 3), notK0 (fld w 11 5)] (.kmovKk (fld w 16 3) (fld w 11 3) (fld w 8 3))
    | 1 => accept [kreg (fld w 11 5), must0 (fld w 26 3), notK0 (fld w 11 5)] (.kmovGk (fld w 16 5) (fld w 11 3) (fld w 8 3))
    | 2 => accept [kreg (fld w 16 5), must0 (fld w 26 3)] (.kmovKg (fld w 16 3) (fld w 11 5) (fld w 8 3))
    | _ => accept [rule true (fld w 21 5), must0 (fld w 26 3)] (.nop 0)

/-- Major 0x19 (R51). -/
def decodeMaj19 (w : BitVec 32) : Except DecodeError Instr :=
  match (fld w 29 3).toNat with
  | 0 => withDir (fld w 26 3) [must0 (fld w 21 5), must0 (fld w 15 1)] (fun dir => .sopen dir (fld w 16 5) (fld w 11 4) (fld w 8 3))
  | 1 => accept [must0 (fld w 15 1), rule (3 < (fld w 26 3)) (fld w 26 3)] (.sdim (fld w 26 2) (fld w 21 5) (fld w 16 5) (fld w 11 4) (fld w 8 3))
  | 2 => accept [must0 (fld w 21 5), must0 (fld w 15 1), must0 (fld w 26 3)] (.sbase (fld w 16 5) (fld w 11 4) (fld w 8 3))
  | 3 => accept [bit0 ((fld w 20 1) != 0) (fld w 16 5), must0 (fld w 15 1), must0 (fld w 26 3)] (.sidx (fld w 21 5) (fld w 16 4) (fld w 11 4) (fld w 8 3))
  | 4 =>
    match (fld w 15 1 ++ fld w 26 3).toNat with
    | 0 => accept [must0 (fld w 16 5), must0 (fld w 21 5)] (.sattNone (fld w 11 4) (fld w 8 3))
    | 1 => accept [must0 (fld w 21 5)] (.sattScale (fld w 16 5) (fld w 11 4) (fld w 8 3))
    | 2 => accept [must0 (fld w 21 5)] (.sattAdds (fld w 16 5) (fld w 11 4) (fld w 8 3))
    | 3 => accept [] (.sattFmas (fld w 21 5) (fld w 16 5) (fld w 11 4) (fld w 8 3))
    | 4 => withFmt (fld w 16 4) (fun _ => true) [bit0 ((fld w 20 1) != 0) (fld w 16 5), must0 (fld w 21 5)] (fun f => .sattCvt f (fld w 11 4) (fld w 8 3))
    | 5 => accept [must0 (fld w 21 5)] (.sattMins (fld w 16 5) (fld w 11 4) (fld w 8 3))
    | 6 => accept [must0 (fld w 21 5)] (.sattMaxs (fld w 16 5) (fld w 11 4) (fld w 8 3))
    | 7 => accept [must0 (fld w 16 5), must0 (fld w 21 5)] (.sattSumr (fld w 11 4) (fld w 8 3))
    | 8 => accept [bit0 ((fld w 20 1) != 0) (fld w 16 5), must0 (fld w 21 5)] (.sattAdd2 (fld w 16 4) (fld w 11 4) (fld w 8 3))
    | _ => accept [rule true (fld w 15 1 ++ fld w 26 3)] (.nop 0)
  | 5 => accept [must0 (fld w 16 5), must0 (fld w 21 5), must0 (fld w 15 1), must0 (fld w 26 3)] (.sgo (fld w 11 4) (fld w 8 3))
  | 6 => accept [must0 (fld w 21 5), must0 (fld w 15 1), must0 (fld w 26 3)] (.sclose (fld w 16 5) (fld w 11 4) (fld w 8 3))
  | _ => accept [must0 (fld w 16 5), must0 (fld w 21 5), must0 (fld w 15 1), rule (3 < (fld w 26 3)) (fld w 26 3)] (.spin (fld w 26 2) (fld w 11 4) (fld w 8 3))

/-- Major 0x1A (R51). -/
def decodeMaj1A (w : BitVec 32) : Except DecodeError Instr :=
  match (fld w 29 3).toNat with
  | 0 => accept [must0 (fld w 21 5), must0 (fld w 15 1), must0 (fld w 26 3)] (.spop (fld w 16 5) (fld w 11 4) (fld w 8 3))
  | 1 => accept [kreg (fld w 21 5), must0 (fld w 15 1), must0 (fld w 26 3), notK0 (fld w 21 5)] (.spopk (fld w 21 3) (fld w 16 5) (fld w 11 4) (fld w 8 3))
  | 2 => accept [must0 (fld w 21 5), must0 (fld w 15 1), must0 (fld w 26 3)] (.spush (fld w 16 5) (fld w 11 4) (fld w 8 3))
  | 3 => accept [must0 (fld w 21 5), must0 (fld w 26 3)] (.sgrant (fld w 16 5) ((fld w 15 1) == 1) (fld w 11 4) (fld w 8 3))
  | 4 => accept [must0 (fld w 21 5), must0 (fld w 15 1), must0 (fld w 26 3)] (.sfront (fld w 16 5) (fld w 11 4) (fld w 8 3))
  | 5 => accept [must0 (fld w 21 5), must0 (fld w 15 1), must0 (fld w 26 3)] (.swaitf (fld w 16 5) (fld w 11 4) (fld w 8 3))
  | 6 => accept [must0 (fld w 21 5), must0 (fld w 15 1), must0 (fld w 26 3)] (.sevt (fld w 16 5) (fld w 11 4) (fld w 8 3))
  | _ => accept [must0 (fld w 16 5), must0 (fld w 21 5), must0 (fld w 15 1), must0 (fld w 26 3)] (.srecall (fld w 11 4) (fld w 8 3))

/-- Major 0x1B (R51). -/
def decodeMaj1B (w : BitVec 32) : Except DecodeError Instr :=
  match (fld w 29 3).toNat with
  | 0 => accept [must0 (fld w 21 5), must0 (fld w 15 1), must0 (fld w 26 3)] (.sskip (fld w 16 5) (fld w 11 4) (fld w 8 3))
  | 1 => accept [must0 (fld w 21 5), must0 (fld w 15 1), must0 (fld w 26 3)] (.ssave (fld w 16 5) (fld w 11 4) (fld w 8 3))
  | 2 => accept [must0 (fld w 21 5), must0 (fld w 15 1), must0 (fld w 26 3)] (.sload (fld w 16 5) (fld w 11 4) (fld w 8 3))
  | 3 => accept [must0 (fld w 21 5), must0 (fld w 15 1), rule (5 < (fld w 26 3)) (fld w 26 3)] (.squery (fld w 26 3) (fld w 16 5) (fld w 11 4) (fld w 8 3))
  | _ => noFn (fld w 29 3)

/-- Major 0x1C (R51). -/
def decodeMaj1C (w : BitVec 32) : Except DecodeError Instr :=
  match (fld w 29 3).toNat with
  | 0 => accept [must0 (fld w 10 1), rule (4 < (fld w 26 3)) (fld w 26 3)] (.send (fld w 26 3) (fld w 21 5) (fld w 16 5) (fld w 11 5) (fld w 8 2))
  | 1 => accept [must0 (fld w 10 1), rule (4 < (fld w 26 3)) (fld w 26 3)] (.sendr (fld w 26 3) (fld w 21 5) (fld w 16 5) (fld w 11 5) (fld w 8 2))
  | 2 => accept [must0 (fld w 10 1), rule (4 < (fld w 26 3)) (fld w 26 3)] (.sendw (fld w 26 3) (fld w 21 5) (fld w 16 5) (fld w 11 5) (fld w 8 2))
  | 3 => accept [must0 (fld w 10 1), rule (4 < (fld w 26 3)) (fld w 26 3)] (.sendt (fld w 26 3) (fld w 21 5) (fld w 16 5) (fld w 11 5) (fld w 8 2))
  | 4 => accept [must0 (fld w 10 1), must0 (fld w 26 3)] (.sendv (fld w 21 5) (fld w 16 5) (fld w 11 5) (fld w 8 2))
  | 5 => accept [must0 (fld w 10 1), rule (4 < (fld w 26 3)) (fld w 26 3), must0 (fld w 8 2)] (.reply (fld w 26 3) (fld w 21 5) (fld w 16 5) (fld w 11 5))
  | 6 => accept [must0 (fld w 10 1), must0 (fld w 26 3), must0 (fld w 21 5)] (.fwd (fld w 16 5) (fld w 11 5) (fld w 8 2))
  | _ => accept [must0 (fld w 10 1), rule (4 < (fld w 26 3)) (fld w 26 3)] (.sendg (fld w 26 3) (fld w 21 5) (fld w 16 5) (fld w 11 5) (fld w 8 2))

/-- Major 0x1D (R51). -/
def decodeMaj1D (w : BitVec 32) : Except DecodeError Instr :=
  match (fld w 29 3).toNat with
  | 0 => accept [must0 (fld w 26 3)] (.mbcfg (fld w 21 5) (fld w 16 5) (fld w 11 5) (fld w 8 3))
  | 1 => accept [must0 (fld w 26 3)] (.mbcnt (fld w 21 5) (fld w 16 5) (fld w 11 5) (fld w 8 3))
  | 2 => accept [must0 (fld w 21 5), must0 (fld w 26 3)] (.mbmask (fld w 16 5) (fld w 11 5) (fld w 8 3))
  | 3 => accept [must0 (fld w 21 5), must0 (fld w 26 3)] (.msgf (fld w 16 5) (fld w 11 5) (fld w 8 3))
  | 4 => accept [must0 (fld w 26 3)] (.tagbind (fld w 21 5) (fld w 16 5) (fld w 11 5) (fld w 8 3))
  | 5 => accept [must0 (fld w 21 5), must0 (fld w 26 3)] (.tagwait (fld w 16 5) (fld w 11 5) (fld w 8 3))
  | _ => noFn (fld w 29 3)

/-- Major 0x1E (R51). -/
def decodeMaj1E (w : BitVec 32) : Except DecodeError Instr :=
  match (fld w 29 3).toNat with
  | 0 => accept [must0 (fld w 16 5), must0 (fld w 21 5), must0 (fld w 26 3)] (.wret (fld w 11 5) (fld w 8 3))
  | 1 => accept [must0 (fld w 16 5), must0 (fld w 21 5), must0 (fld w 26 3)] (.wq (fld w 11 5) (fld w 8 3))
  | 2 => accept [must0 (fld w 26 3)] (.jcfg (fld w 21 5) (fld w 16 5) (fld w 11 5) (fld w 8 3))
  | 3 => accept [must0 (fld w 26 3)] (.jadd (fld w 21 5) (fld w 16 5) (fld w 11 5) (fld w 8 3))
  | 4 => accept [must0 (fld w 26 3)] (.launch (fld w 21 5) (fld w 16 5) (fld w 11 5) (fld w 8 3))
  | 5 => accept [must0 (fld w 21 5), must0 (fld w 26 3)] (.selfq (fld w 16 5) (fld w 11 5) (fld w 8 3))
  | 6 => accept [must0 (fld w 21 5), must0 (fld w 26 3)] (.gangq (fld w 16 5) (fld w 11 5) (fld w 8 3))
  | _ => noFn (fld w 29 3)

/-- Major 0x1F (R51). -/
def decodeMaj1F (w : BitVec 32) : Except DecodeError Instr :=
  match (fld w 29 3).toNat with
  | 0 => accept [must0 (fld w 11 5), must0 (fld w 16 5), must0 (fld w 21 5), must0 (fld w 26 3)] (.fenceL (fld w 8 3))
  | 1 => withScope (fld w 26 3).toNat [must0 (fld w 11 5), must0 (fld w 16 5), must0 (fld w 21 5)] (fun sc => .rel sc (fld w 8 3))
  | 2 => withScope (fld w 26 3).toNat [must0 (fld w 11 5), must0 (fld w 16 5), must0 (fld w 21 5)] (fun sc => .acq sc (fld w 8 3))
  | 3 => withScope (fld w 26 3).toNat [must0 (fld w 11 5)] (fun sc => .strel sc (fld w 21 5) (fld w 16 5) (fld w 8 3))
  | 4 => withScope (fld w 26 3).toNat [must0 (fld w 21 5)] (fun sc => .ldacq sc (fld w 16 5) (fld w 11 5) (fld w 8 3))
  | 5 => accept [must0 (fld w 11 5), must0 (fld w 16 5), must0 (fld w 21 5), must0 (fld w 26 3)] (.fenceS (fld w 8 3))
  | 6 => accept [must0 (fld w 11 5), must0 (fld w 16 5), must0 (fld w 21 5), must0 (fld w 26 3)] (.fenceM (fld w 8 3))
  | _ => accept [must0 (fld w 11 5), must0 (fld w 16 5), must0 (fld w 21 5), must0 (fld w 26 3)] (.fenceA (fld w 8 3))

/-- Major 0x20 (R51). -/
def decodeMaj20 (w : BitVec 32) : Except DecodeError Instr :=
  match (fld w 29 3).toNat with
  | 0 => withScope (fld w 8 2).toNat [must0 (fld w 26 3), postedD w] (fun sc => .aaddS32 (fld w 21 5) (fld w 16 5) (fld w 11 5) ((fld w 10 1) == 1) sc)
  | 1 => withScope (fld w 8 2).toNat [must0 (fld w 26 3), postedD w] (fun sc => .aaddS64 (fld w 21 5) (fld w 16 5) (fld w 11 5) ((fld w 10 1) == 1) sc)
  | 2 => withScope (fld w 8 2).toNat [must0 (fld w 26 3), postedD w] (fun sc => .aminS32 (fld w 21 5) (fld w 16 5) (fld w 11 5) ((fld w 10 1) == 1) sc)
  | 3 => withScope (fld w 8 2).toNat [must0 (fld w 26 3), postedD w] (fun sc => .amaxS32 (fld w 21 5) (fld w 16 5) (fld w 11 5) ((fld w 10 1) == 1) sc)
  | 4 => withScope (fld w 8 2).toNat [must0 (fld w 26 3), postedD w] (fun sc => .aminN32 (fld w 21 5) (fld w 16 5) (fld w 11 5) ((fld w 10 1) == 1) sc)
  | 5 => withScope (fld w 8 2).toNat [must0 (fld w 26 3), postedD w] (fun sc => .axchg (fld w 21 5) (fld w 16 5) (fld w 11 5) ((fld w 10 1) == 1) sc)
  | 6 => withScope (fld w 8 2).toNat [must0 (fld w 26 3), postedD w] (fun sc => .acas (fld w 21 5) (fld w 16 5) (fld w 11 5) ((fld w 10 1) == 1) sc)
  | _ => withScope (fld w 8 2).toNat [must0 (fld w 26 3), postedD w] (fun sc => .aaddF32 (fld w 21 5) (fld w 16 5) (fld w 11 5) ((fld w 10 1) == 1) sc)

/-- Major 0x21 (R51). -/
def decodeMaj21 (w : BitVec 32) : Except DecodeError Instr :=
  match (fld w 29 3).toNat with
  | 0 => withScope (fld w 8 2).toNat [must0 (fld w 26 3), postedD w] (fun sc => .aor (fld w 21 5) (fld w 16 5) (fld w 11 5) ((fld w 10 1) == 1) sc)
  | 1 => withScope (fld w 8 2).toNat [must0 (fld w 26 3), postedD w] (fun sc => .aand (fld w 21 5) (fld w 16 5) (fld w 11 5) ((fld w 10 1) == 1) sc)
  | 2 => withScope (fld w 8 2).toNat [must0 (fld w 26 3), postedD w] (fun sc => .axor (fld w 21 5) (fld w 16 5) (fld w 11 5) ((fld w 10 1) == 1) sc)
  | 3 => withScope (fld w 8 2).toNat [must0 (fld w 26 3), postedD w] (fun sc => .aminN64 (fld w 21 5) (fld w 16 5) (fld w 11 5) ((fld w 10 1) == 1) sc)
  | _ => noFn (fld w 29 3)

/-- Major 0x22 (R51). -/
def decodeMaj22 (w : BitVec 32) : Except DecodeError Instr :=
  match (fld w 29 3).toNat with
  | 0 => accept [must0 (fld w 11 5), kreg (fld w 16 5), must0 (fld w 21 5), must0 (fld w 26 3)] (.barv (fld w 16 3) (fld w 8 3))
  | 1 => accept [must0 (fld w 11 5), kreg (fld w 16 5), must0 (fld w 21 5), must0 (fld w 26 3)] (.barw (fld w 16 3) (fld w 8 3))
  | 2 => accept [must0 (fld w 11 5), kreg (fld w 16 5), must0 (fld w 21 5), must0 (fld w 26 3)] (.barvw (fld w 16 3) (fld w 8 3))
  | 3 => accept [kreg (fld w 16 5), must0 (fld w 21 5), must0 (fld w 26 3)] (.barq (fld w 16 3) (fld w 11 5) (fld w 8 3))
  | 4 => accept [must0 (fld w 21 5), must0 (fld w 26 3)] (.watch (fld w 16 5) (fld w 11 5) (fld w 8 3))
  | 5 => accept [must0 (fld w 26 3)] (.waitw (fld w 21 5) (fld w 16 5) (fld w 11 5) (fld w 8 3))
  | 6 => accept [must0 (fld w 11 5), must0 (fld w 21 5), must0 (fld w 26 3)] (.unwatch (fld w 16 5) (fld w 8 3))
  | _ => noFn (fld w 29 3)

/-- Major 0x23 (R51). -/
noncomputable def decodeMaj23 (w : BitVec 32) : Except DecodeError Instr :=
  match (fld w 29 3).toNat with
  | 0 => withFmt (fld w 12 4) Fmt.bFmt [must0 (fld w 11 1), must0 (fld w 26 3)] (fun f => .mldb (fld w 21 5) (fld w 16 5) f (fld w 8 3))
  | 1 => withFmt (fld w 12 4) Fmt.bFmt [must0 (fld w 11 1), rule ((fld w 26 3) != 1 && (fld w 26 3) != 2) (fld w 26 3)] (fun f => .mldbs (if (fld w 26 3) == 1 then .of4 else .of2) (fld w 21 5) (fld w 16 5) f (fld w 8 3))
  | 2 => accept [must0 (fld w 16 5), must0 (fld w 21 5), must0 (fld w 11 1), must0 (fld w 26 3), must0 (fld w 12 4)] (.mswap (fld w 8 3))
  | 3 => accept [must0 (fld w 21 5), must0 (fld w 11 1), rule (1 < (fld w 26 3)) (fld w 26 3), must0 (fld w 12 4)] (.mscale ((fld w 26 1) == 1) (fld w 16 5) (fld w 8 3))
  | 4 => accept [must0 (fld w 16 5), must0 (fld w 21 5), must0 (fld w 26 3), must0 (fld w 12 4)] (.mzero (fld w 11 1) (fld w 8 3))
  | 5 => accept [must0 (fld w 21 5), must0 (fld w 11 1), must0 (fld w 26 3), must0 (fld w 12 4)] (.mquad (fld w 16 5) (fld w 8 3))
  | _ => noFn (fld w 29 3)

/-- Major 0x24 (R51). -/
noncomputable def decodeMaj24 (w : BitVec 32) : Except DecodeError Instr :=
  match (fld w 29 3).toNat with
  | 0 => withFmt (fld w 12 4) Fmt.aFmt [rule (1 < (fld w 26 3)) (fld w 26 3), bit0 ((fld w 26 1) == 1 && (fld w 20 1) != 0) (fld w 16 5)] (fun f => .mma ((fld w 26 1) == 1) (fld w 21 5) (fld w 16 5) f (fld w 11 1) (fld w 8 3))
  | 1 => withFmt (fld w 12 4) Fmt.aFmt [rule (1 < (fld w 26 3)) (fld w 26 3), bit0 ((fld w 26 1) == 1 && (fld w 20 1) != 0) (fld w 16 5)] (fun f => .mmas ((fld w 26 1) == 1) (fld w 21 5) (fld w 16 5) f (fld w 11 1) (fld w 8 3))
  | 2 => withFmt (fld w 12 4) Fmt.outFmt [must0 (fld w 26 3)] (fun f => .moutl (fld w 21 5) (fld w 16 5) f (fld w 11 1) (fld w 8 3))
  | _ => noFn (fld w 29 3)

/-- Major 0x25 (R51). -/
noncomputable def decodeMaj25 (w : BitVec 32) : Except DecodeError Instr :=
  match (fld w 29 3).toNat with
  | 0 => withFmt (fld w 12 4) Fmt.rdFmt [rule (1 < (fld w 26 3)) (fld w 26 3)] (fun f => .mrdz ((fld w 26 1) == 1) (fld w 21 5) (fld w 16 5) f (fld w 11 1) (fld w 8 3))
  | 1 => withFmt (fld w 12 4) Fmt.stFmt [rule (1 < (fld w 26 3)) (fld w 26 3)] (fun f => .mstz ((fld w 26 1) == 1) (fld w 21 5) (fld w 16 5) f (fld w 11 1) (fld w 8 3))
  | 2 => withFmt (fld w 12 4) Fmt.stFmt [] (fun f => .mdrain (fld w 27 2) ((fld w 26 1) == 1) (fld w 21 5) (fld w 16 5) f (fld w 11 1) (fld w 8 3))
  | 3 => accept [must0 (fld w 16 5), must0 (fld w 21 5), must0 (fld w 26 3), must0 (fld w 12 4)] (.mwait (fld w 11 1) (fld w 8 3))
  | _ => noFn (fld w 29 3)

/-- Major 0x26 (R51). -/
noncomputable def decodeMaj26 (w : BitVec 32) : Except DecodeError Instr :=
  match (fld w 29 3).toNat with
  | 0 => accept [must0 (fld w 21 5), must0 (fld w 26 3)] (.tlrdef (fld w 16 5) (fld w 11 5) (fld w 8 3))
  | 1 => accept [must0 (fld w 21 5), must0 (fld w 26 3)] (.tlrfree (fld w 16 5) (fld w 11 5) (fld w 8 3))
  | 2 => accept [must0 (fld w 21 5), must0 (fld w 26 3)] (.copy (fld w 16 5) (fld w 11 5) (fld w 8 3))
  | 3 => accept [must0 (fld w 21 5), must0 (fld w 26 3)] (.copyf (fld w 16 5) (fld w 11 5) (fld w 8 3))
  | 4 => accept [must0 (fld w 26 3)] (.cpatch (fld w 21 5) (fld w 16 5) (fld w 11 5) (fld w 8 3))
  | 5 => accept [must0 (fld w 21 5), must0 (fld w 26 3)] (.copyq (fld w 16 5) (fld w 11 5) (fld w 8 3))
  | 6 => accept [must0 (fld w 21 5), must0 (fld w 26 3)] (.ccancel (fld w 16 5) (fld w 11 5) (fld w 8 3))
  | _ => accept [must0 (fld w 11 5), must0 (fld w 26 3)] (.pft (fld w 21 5) (fld w 16 5) (fld w 8 3))

/-- Major 0x27 (R51). -/
noncomputable def decodeMaj27 (w : BitVec 32) : Except DecodeError Instr :=
  match (fld w 29 3).toNat with
  | 0 => accept [must0 (fld w 26 3)] (.bbinit (fld w 21 5) (fld w 16 5) (fld w 11 5) (fld w 8 3))
  | 1 => accept [must0 (fld w 26 3)] (.bget (fld w 21 5) (fld w 16 5) (fld w 11 5) (fld w 8 3))
  | 2 => accept [must0 (fld w 16 5), must0 (fld w 26 3)] (.bpeek (fld w 21 5) (fld w 11 5) (fld w 8 3))
  | 3 => accept [must0 (fld w 11 5), must0 (fld w 26 3)] (.bskip (fld w 21 5) (fld w 16 5) (fld w 8 3))
  | 4 => accept [must0 (fld w 26 3)] (.bput (fld w 21 5) (fld w 16 5) (fld w 11 5) (fld w 8 3))
  | 5 => accept [must0 (fld w 21 5), must0 (fld w 26 3)] (.bflush (fld w 16 5) (fld w 11 5) (fld w 8 3))
  | 6 => accept [must0 (fld w 26 3)] (.bgetx (fld w 21 5) (fld w 16 5) (fld w 11 5) (fld w 8 3))
  | _ => accept [must0 (fld w 16 5), must0 (fld w 21 5), must0 (fld w 26 3)] (.bbpos (fld w 11 5) (fld w 8 3))

/-- Major 0x28 (R51). -/
noncomputable def decodeMaj28 (w : BitVec 32) : Except DecodeError Instr :=
  match (fld w 29 3).toNat with
  | 0 => accept [must0 (fld w 21 5), must0 (fld w 26 3)] (.sealg (fld w 16 5) (fld w 11 5) (fld w 8 3))
  | 1 => accept [must0 (fld w 16 5), must0 (fld w 26 3)] (.sealset (fld w 21 5) (fld w 11 5) (fld w 8 3))
  | 2 => accept [must0 (fld w 21 5), must0 (fld w 26 3)] (.sealchk (fld w 16 5) (fld w 11 5) (fld w 8 3))
  | 3 => accept [must0 (fld w 16 5), must0 (fld w 21 5), must0 (fld w 26 3)] (.poison (fld w 11 5) (fld w 8 3))
  | 4 => accept [must0 (fld w 21 5), must0 (fld w 26 3)] (.sealmode (fld w 16 5) (fld w 11 5) (fld w 8 3))
  | _ => noFn (fld w 29 3)

/-- Major 0x29 (R51). -/
noncomputable def decodeMaj29 (w : BitVec 32) : Except DecodeError Instr :=
  match (fld w 29 3).toNat with
  | 0 => withCsr w [must0 (fld w 16 5)] (fun cs => .csrr cs (fld w 11 5) (fld w 8 3))
  | 1 => withCsr w [] (fun cs => .csrw cs (fld w 16 5) (fld w 11 5) (fld w 8 3))
  | 2 => withCsr w [] (fun cs => .csrs cs (fld w 16 5) (fld w 11 5) (fld w 8 3))
  | 3 => withCsr w [] (fun cs => .csrc cs (fld w 16 5) (fld w 11 5) (fld w 8 3))
  | _ => noFn (fld w 29 3)

/-- Major 0x2A (R51). -/
noncomputable def decodeMaj2A (w : BitVec 32) : Except DecodeError Instr :=
  match (fld w 29 3).toNat with
  | 0 => accept [must0 (fld w 21 5), must0 (fld w 26 3)] (.gstop (fld w 16 5) (fld w 11 5) (fld w 8 3))
  | 1 => accept [must0 (fld w 21 5), must0 (fld w 26 3)] (.gresume (fld w 16 5) (fld w 11 5) (fld w 8 3))
  | 2 => accept [must0 (fld w 26 3)] (.ctxsave (fld w 21 5) (fld w 16 5) (fld w 11 5) (fld w 8 3))
  | 3 => accept [must0 (fld w 26 3)] (.ctxload (fld w 21 5) (fld w 16 5) (fld w 11 5) (fld w 8 3))
  | 4 => accept [must0 (fld w 26 3)] (.evict (fld w 21 5) (fld w 16 5) (fld w 11 5) (fld w 8 3))
  | 5 => accept [must0 (fld w 26 3)] (.restore (fld w 21 5) (fld w 16 5) (fld w 11 5) (fld w 8 3))
  | 6 => accept [must0 (fld w 11 5), must0 (fld w 21 5), must0 (fld w 26 3)] (.tret (fld w 16 5) (fld w 8 3))
  | _ => noFn (fld w 29 3)

/-- Major 0x2B (R51). -/
noncomputable def decodeMaj2B (w : BitVec 32) : Except DecodeError Instr :=
  match (fld w 29 3).toNat with
  | 0 => accept [must0 (fld w 26 3)] (.tlbinv (fld w 21 5) (fld w 16 5) (fld w 11 5) (fld w 8 3))
  | 1 => accept [must0 (fld w 21 5), must0 (fld w 26 3)] (.tlbinva (fld w 16 5) (fld w 11 5) (fld w 8 3))
  | 2 => accept [must0 (fld w 21 5), must0 (fld w 26 3)] (.xbset (fld w 16 5) (fld w 11 5) (fld w 8 3))
  | 3 => accept [must0 (fld w 21 5), must0 (fld w 26 3)] (.pageq (fld w 16 5) (fld w 11 5) (fld w 8 3))
  | 4 => accept [must0 (fld w 26 3)] (.amapset (fld w 21 5) (fld w 16 5) (fld w 11 5) (fld w 8 3))
  | _ => noFn (fld w 29 3)

/-- The decoding of a 32-bit word (R49 to R52, R59). -/
noncomputable def decode32 (w : BitVec 32) : Except DecodeError Instr :=
  match (fld w 2 6).toNat with
  | 0x01 => decodeMaj01 w
  | 0x02 => decodeMaj02 w
  | 0x03 => decodeMaj03 w
  | 0x04 => decodeMaj04 w
  | 0x05 => decodeMaj05 w
  | 0x06 => decodeMaj06 w
  | 0x07 => decodeMaj07 w
  | 0x08 => decodeMaj08 w
  | 0x09 => decodeMaj09 w
  | 0x0A => decodeMaj0A w
  | 0x0B => decodeMaj0B w
  | 0x0C => decodeMaj0C w
  | 0x0D => decodeMaj0D w
  | 0x0E => decodeMaj0E w
  | 0x0F => decodeMaj0F w
  | 0x10 => decodeMaj10 w
  | 0x11 => decodeMaj11 w
  | 0x12 => decodeMaj12 w
  | 0x13 => decodeMaj13 w
  | 0x14 => decodeMaj14 w
  | 0x15 => decodeMaj15 w
  | 0x16 => decodeMaj16 w
  | 0x17 => decodeMaj17 w
  | 0x18 => decodeMaj18 w
  | 0x19 => decodeMaj19 w
  | 0x1A => decodeMaj1A w
  | 0x1B => decodeMaj1B w
  | 0x1C => decodeMaj1C w
  | 0x1D => decodeMaj1D w
  | 0x1E => decodeMaj1E w
  | 0x1F => decodeMaj1F w
  | 0x20 => decodeMaj20 w
  | 0x21 => decodeMaj21 w
  | 0x22 => decodeMaj22 w
  | 0x23 => decodeMaj23 w
  | 0x24 => decodeMaj24 w
  | 0x25 => decodeMaj25 w
  | 0x26 => decodeMaj26 w
  | 0x27 => decodeMaj27 w
  | 0x28 => decodeMaj28 w
  | 0x29 => decodeMaj29 w
  | 0x2A => decodeMaj2A w
  | 0x2B => decodeMaj2B w
  | m => .error ⟨2, [m]⟩

/-- Bits lo to lo + n - 1 of a halfword. -/
def fld16 (h : BitVec 16) (lo n : Nat) : BitVec n := h.extractLsb' lo n

/-- The decoding of a 16-bit halfword, whose bits [1:0] are not 0b11 (R53). -/
noncomputable def decode16 (h : BitVec 16) : Except DecodeError Instr :=
  if fld16 h 0 2 != 0 then .error ⟨1, [h.toNat]⟩ else
  match (fld16 h 2 4).toNat with
  | 0 => .error ⟨1, [h.toNat]⟩
  | 1 => .ok (.cMov (fld16 h 11 5) (fld16 h 6 5))
  | 2 => .ok (.cAddi (fld16 h 11 5) (fld16 h 6 5))
  | 3 => .ok (.cLi (fld16 h 11 5) (fld16 h 6 5))
  | 4 => .ok (.cLdl (fld16 h 11 5) (fld16 h 6 5))
  | 5 => .ok (.cStl (fld16 h 11 5) (fld16 h 6 5))
  | 6 => .ok (.cBeqz (fld16 h 11 5) (fld16 h 6 5))
  | 7 => .ok (.cBnez (fld16 h 11 5) (fld16 h 6 5))
  | 8 => .ok (.cJ (fld16 h 6 10))
  | 9 => accept [must0 (fld16 h 11 5), must0 (fld16 h 6 5)] .cEnd
  | 10 => accept [must0 (fld16 h 11 5), must0 (fld16 h 6 5)] .cRet
  | 11 => accept [must0 (fld16 h 15 1)] (.cSpop (fld16 h 11 4) (fld16 h 6 5))
  | 12 => accept [must0 (fld16 h 15 1)] (.cSpush (fld16 h 11 4) (fld16 h 6 5))
  | 13 => .ok (.cVmov (fld16 h 11 5) (fld16 h 6 5))
  | 14 => accept [must0 (fld16 h 15 1)] (.cVfmaF32 (fld16 h 12 3) (fld16 h 9 3) (fld16 h 6 3))
  | _ => accept [must0 (fld16 h 11 5), must0 (fld16 h 6 5)] .cNop

/-- Two bytes as a halfword, the lower address first (R47). -/
def halfOf (b0 b1 : Byte) : BitVec 16 := b1 ++ b0

/-- What decoding a byte sequence gives: an instruction with its length in bytes, a pattern refused with its word (a
halfword stands in bits [15:0]) and whether it is a halfword, or too few bytes. -/
inductive Decoded where
  | instr (i : Instr) (len : Nat)
  | bad (e : DecodeError) (word : BitVec 32) (half : Bool)
  | short
  deriving DecidableEq, Repr

/-- Decoding from the halfword at the front of a byte sequence (R47): 32 bits when its bits [1:0] are 0b11. -/
noncomputable def decodeBytes (bs : List Byte) : Decoded :=
  match bs with
  | b0 :: b1 :: rest =>
    if b0.extractLsb' 0 2 == 3 then
      match rest with
      | b2 :: b3 :: _ =>
        let w : BitVec 32 := halfOf b2 b3 ++ halfOf b0 b1
        match decode32 w with
        | .ok i => .instr i 4
        | .error e => .bad e w false
      | _ => .short
    else
      match decode16 (halfOf b0 b1) with
      | .ok i => .instr i 2
      | .error e => .bad e ((halfOf b0 b1).setWidth 32) true
  | _ => .short

/-- Whether an instruction is one of the 16-bit forms (R53). -/
def Instr.isCompact : Instr → Bool
  | .cMov .. | .cAddi .. | .cLi .. | .cLdl .. | .cStl .. | .cBeqz .. | .cBnez .. | .cJ .. | .cEnd | .cRet | .cSpop ..
  | .cSpush .. | .cVmov .. | .cVfmaF32 .. | .cNop => true
  | _ => false

/-- The length in bytes of an encoded instruction (R47, R53). -/
def Instr.len (i : Instr) : Nat := if i.isCompact then 2 else 4

/-- The first n bytes of w, the least significant first (R23). -/
def wordBytes : Nat → Nat → List Byte
  | 0, _ => []
  | n + 1, w => BitVec.ofNat 8 w :: wordBytes n (w / 256)

/-- The instruction that the decoder reads from an instruction whose bits are w, numbered from bit 0 of the first word;
every bit at nbits and above is zero. -/
noncomputable def decodeTableWord (nbits w : Nat) : Option Instr :=
  match decodeBytes (wordBytes 4 (w % 2 ^ nbits)) with
  | .instr i _ => some i
  | _ => none

/-- The words of an instruction: one 32-bit word or one 16-bit halfword. -/
inductive Enc where
  | w32 (w : BitVec 32)
  | w16 (h : BitVec 16)
  | none
  deriving DecidableEq, Repr

/-- A field value at its place in the word (R49). -/
def put {n : Nat} (lo : Nat) (v : BitVec n) : Nat := v.toNat * 2 ^ lo

/-- A one-bit field. -/
def bit (lo : Nat) (b : Bool) : Nat := if b then 2 ^ lo else 0

/-- The 32-bit word whose fixed bits are base and whose fields stand in fs. -/
def word32 (base : Nat) (fs : List Nat) : Enc := .w32 (BitVec.ofNat 32 (fs.foldl (· + ·) base))

/-- The 16-bit halfword whose fixed bits are base and whose fields stand in fs. -/
def word16 (base : Nat) (fs : List Nat) : Enc := .w16 (BitVec.ofNat 16 (fs.foldl (· + ·) base))

/-- The words of an encoded form; an event has none (R49, R51, R53). -/
def encode : Instr → Enc
  | .add b a d l => word32 0x00000007 [put 21 b, put 16 a, put 11 d, put 8 l]
  | .sub b a d l => word32 0x20000007 [put 21 b, put 16 a, put 11 d, put 8 l]
  | .and b a d l => word32 0x40000007 [put 21 b, put 16 a, put 11 d, put 8 l]
  | .or b a d l => word32 0x60000007 [put 21 b, put 16 a, put 11 d, put 8 l]
  | .xor b a d l => word32 0x80000007 [put 21 b, put 16 a, put 11 d, put 8 l]
  | .andn b a d l => word32 0xA0000007 [put 21 b, put 16 a, put 11 d, put 8 l]
  | .sll b a d l => word32 0xC0000007 [put 21 b, put 16 a, put 11 d, put 8 l]
  | .srl b a d l => word32 0xE0000007 [put 21 b, put 16 a, put 11 d, put 8 l]
  | .sra b a d l => word32 0x0000000B [put 21 b, put 16 a, put 11 d, put 8 l]
  | .ror b a d l => word32 0x2000000B [put 21 b, put 16 a, put 11 d, put 8 l]
  | .minS b a d l => word32 0x4000000B [put 21 b, put 16 a, put 11 d, put 8 l]
  | .maxS b a d l => word32 0x6000000B [put 21 b, put 16 a, put 11 d, put 8 l]
  | .minN b a d l => word32 0x8000000B [put 21 b, put 16 a, put 11 d, put 8 l]
  | .maxN b a d l => word32 0xA000000B [put 21 b, put 16 a, put 11 d, put 8 l]
  | .clz a d l => word32 0xC000000B [put 16 a, put 11 d, put 8 l]
  | .popc a d l => word32 0xE000000B [put 16 a, put 11 d, put 8 l]
  | .mul b a d l => word32 0x0000000F [put 21 b, put 16 a, put 11 d, put 8 l]
  | .mulhS b a d l => word32 0x2000000F [put 21 b, put 16 a, put 11 d, put 8 l]
  | .mulhN b a d l => word32 0x4000000F [put 21 b, put 16 a, put 11 d, put 8 l]
  | .divS b a d l => word32 0x6000000F [put 21 b, put 16 a, put 11 d, put 8 l]
  | .divN b a d l => word32 0x8000000F [put 21 b, put 16 a, put 11 d, put 8 l]
  | .remS b a d l => word32 0xA000000F [put 21 b, put 16 a, put 11 d, put 8 l]
  | .remN b a d l => word32 0xC000000F [put 21 b, put 16 a, put 11 d, put 8 l]
  | .madd b a d l => word32 0xE000000F [put 21 b, put 16 a, put 11 d, put 8 l]
  | .seq b a d l => word32 0x00000013 [put 21 b, put 16 a, put 11 d, put 8 l]
  | .sne b a d l => word32 0x20000013 [put 21 b, put 16 a, put 11 d, put 8 l]
  | .sltS b a d l => word32 0x40000013 [put 21 b, put 16 a, put 11 d, put 8 l]
  | .sltN b a d l => word32 0x60000013 [put 21 b, put 16 a, put 11 d, put 8 l]
  | .sleS b a d l => word32 0x80000013 [put 21 b, put 16 a, put 11 d, put 8 l]
  | .sleN b a d l => word32 0xA0000013 [put 21 b, put 16 a, put 11 d, put 8 l]
  | .csel b a d l => word32 0xC0000013 [put 21 b, put 16 a, put 11 d, put 8 l]
  | .bfx b a d l => word32 0xE0000013 [put 21 b, put 16 a, put 11 d, put 8 l]
  | .addi i a d l => word32 0x00000017 [put 21 i, put 16 a, put 11 d, put 8 l]
  | .andi i a d l => word32 0x20000017 [put 21 i, put 16 a, put 11 d, put 8 l]
  | .ori i a d l => word32 0x40000017 [put 21 i, put 16 a, put 11 d, put 8 l]
  | .xori i a d l => word32 0x60000017 [put 21 i, put 16 a, put 11 d, put 8 l]
  | .slli i a d l => word32 0x80000017 [put 21 i, put 16 a, put 11 d, put 8 l]
  | .srli i a d l => word32 0xA0000017 [put 21 i, put 16 a, put 11 d, put 8 l]
  | .srai i a d l => word32 0xC0000017 [put 21 i, put 16 a, put 11 d, put 8 l]
  | .slti i a d l => word32 0xE0000017 [put 21 i, put 16 a, put 11 d, put 8 l]
  | .li i d l => word32 0x0000001B [put 16 i, put 11 d, put 8 l]
  | .lsh i d l => word32 0x0000001F [put 16 i, put 11 d, put 8 l]
  | .beq o b a => word32 0x00000023 [put 21 o, put 16 b, put 11 a]
  | .bne o b a => word32 0x00000123 [put 21 o, put 16 b, put 11 a]
  | .bltS o b a => word32 0x00000223 [put 21 o, put 16 b, put 11 a]
  | .bgeS o b a => word32 0x00000323 [put 21 o, put 16 b, put 11 a]
  | .bltN o b a => word32 0x00000423 [put 21 o, put 16 b, put 11 a]
  | .bgeN o b a => word32 0x00000523 [put 21 o, put 16 b, put 11 a]
  | .bkany o a => word32 0x00000623 [put 21 o, put 11 a]
  | .bknone o a => word32 0x00000723 [put 21 o, put 11 a]
  | .j o => word32 0x00000027 [put 8 o]
  | .call o => word32 0x80000027 [put 8 o]
  | .loop e a l => word32 0x0000002B [put 21 e, put 16 a, put 8 l]
  | .jr a l => word32 0x0000002F [put 16 a, put 8 l]
  | .callr a l => word32 0x2000002F [put 16 a, put 8 l]
  | .ret l => word32 0x4000002F [put 8 l]
  | .endFiring l => word32 0x6000002F [put 8 l]
  | .nop l => word32 0x8000002F [put 8 l]
  | .trap a l => word32 0xA000002F [put 16 a, put 8 l]
  | .brk l => word32 0xC000002F [put 8 l]
  | .ldlS8 o a d l => word32 0x00000033 [put 21 o, put 16 a, put 11 d, put 8 l]
  | .ldlN8 o a d l => word32 0x20000033 [put 21 o, put 16 a, put 11 d, put 8 l]
  | .ldlS16 o a d l => word32 0x40000033 [put 21 o, put 16 a, put 11 d, put 8 l]
  | .ldlN16 o a d l => word32 0x60000033 [put 21 o, put 16 a, put 11 d, put 8 l]
  | .ldlS32 o a d l => word32 0x80000033 [put 21 o, put 16 a, put 11 d, put 8 l]
  | .ldlN32 o a d l => word32 0xA0000033 [put 21 o, put 16 a, put 11 d, put 8 l]
  | .ldl64 o a d l => word32 0xC0000033 [put 21 o, put 16 a, put 11 d, put 8 l]
  | .vldl o a d l => word32 0xE0000033 [put 21 o, put 16 a, put 11 d, put 8 l]
  | .stl8 o a d l => word32 0x00000037 [put 21 o, put 16 a, put 11 d, put 8 l]
  | .stl16 o a d l => word32 0x20000037 [put 21 o, put 16 a, put 11 d, put 8 l]
  | .stl32 o a d l => word32 0x40000037 [put 21 o, put 16 a, put 11 d, put 8 l]
  | .stl64 o a d l => word32 0x60000037 [put 21 o, put 16 a, put 11 d, put 8 l]
  | .vstl o a d l => word32 0x80000037 [put 21 o, put 16 a, put 11 d, put 8 l]
  | .vgatl o a d l => word32 0xA0000037 [put 21 o, put 16 a, put 11 d, put 8 l]
  | .vscatl o a d l => word32 0xC0000037 [put 21 o, put 16 a, put 11 d, put 8 l]
  | .vbcl o a d l => word32 0xE0000037 [put 21 o, put 16 a, put 11 d, put 8 l]
  | .ldg32 o a d l => word32 0x0000003B [put 21 o, put 16 a, put 11 d, put 8 l]
  | .ldg64 o a d l => word32 0x2000003B [put 21 o, put 16 a, put 11 d, put 8 l]
  | .stg32 o a d l => word32 0x4000003B [put 21 o, put 16 a, put 11 d, put 8 l]
  | .stg64 o a d l => word32 0x6000003B [put 21 o, put 16 a, put 11 d, put 8 l]
  | .vldg o a d l => word32 0x8000003B [put 21 o, put 16 a, put 11 d, put 8 l]
  | .vstg o a d l => word32 0xA000003B [put 21 o, put 16 a, put 11 d, put 8 l]
  | .freq o a d l => word32 0xC000003B [put 21 o, put 16 a, put 11 d, put 8 l]
  | .pfg o a d l => word32 0xE000003B [put 21 o, put 16 a, bit 11 d, put 8 l]
  | .cwb b a l => word32 0x0000003F [put 21 b, put 16 a, put 8 l]
  | .cinv b a l => word32 0x2000003F [put 21 b, put 16 a, put 8 l]
  | .cwbinv b a l => word32 0x4000003F [put 21 b, put 16 a, put 8 l]
  | .cflush b a l => word32 0x6000003F [put 21 b, put 16 a, put 8 l]
  | .cways a d l => word32 0x8000003F [put 16 a, put 11 d, put 8 l]
  | .cwayq d l => word32 0xA000003F [put 11 d, put 8 l]
  | .vaddF32 k b a d l => word32 0x00000043 [put 26 k, put 21 b, put 16 a, put 11 d, put 8 l]
  | .vsubF32 k b a d l => word32 0x20000043 [put 26 k, put 21 b, put 16 a, put 11 d, put 8 l]
  | .vmulF32 k b a d l => word32 0x40000043 [put 26 k, put 21 b, put 16 a, put 11 d, put 8 l]
  | .vfmaF32 k b a d l => word32 0x60000043 [put 26 k, put 21 b, put 16 a, put 11 d, put 8 l]
  | .vfmsF32 k b a d l => word32 0x80000043 [put 26 k, put 21 b, put 16 a, put 11 d, put 8 l]
  | .vminF32 k b a d l => word32 0xA0000043 [put 26 k, put 21 b, put 16 a, put 11 d, put 8 l]
  | .vmaxF32 k b a d l => word32 0xC0000043 [put 26 k, put 21 b, put 16 a, put 11 d, put 8 l]
  | .vabsF32 k a d l => word32 0xE0000043 [put 26 k, put 16 a, put 11 d, put 8 l]
  | .vaddF16 k b a d l => word32 0x00000047 [put 26 k, put 21 b, put 16 a, put 11 d, put 8 l]
  | .vmulF16 k b a d l => word32 0x20000047 [put 26 k, put 21 b, put 16 a, put 11 d, put 8 l]
  | .vfmaF16 k b a d l => word32 0x40000047 [put 26 k, put 21 b, put 16 a, put 11 d, put 8 l]
  | .vaddB16 k b a d l => word32 0x60000047 [put 26 k, put 21 b, put 16 a, put 11 d, put 8 l]
  | .vmulB16 k b a d l => word32 0x80000047 [put 26 k, put 21 b, put 16 a, put 11 d, put 8 l]
  | .vfmaB16 k b a d l => word32 0xA0000047 [put 26 k, put 21 b, put 16 a, put 11 d, put 8 l]
  | .vdotF16 k b a d l => word32 0xC0000047 [put 26 k, put 21 b, put 16 a, put 11 d, put 8 l]
  | .vdotB16 k b a d l => word32 0xE0000047 [put 26 k, put 21 b, put 16 a, put 11 d, put 8 l]
  | .vaddS32 k b a d l => word32 0x0000004B [put 26 k, put 21 b, put 16 a, put 11 d, put 8 l]
  | .vsubS32 k b a d l => word32 0x2000004B [put 26 k, put 21 b, put 16 a, put 11 d, put 8 l]
  | .vmulS32 k b a d l => word32 0x4000004B [put 26 k, put 21 b, put 16 a, put 11 d, put 8 l]
  | .vmaddS32 k b a d l => word32 0x6000004B [put 26 k, put 21 b, put 16 a, put 11 d, put 8 l]
  | .vminS32 k b a d l => word32 0x8000004B [put 26 k, put 21 b, put 16 a, put 11 d, put 8 l]
  | .vmaxS32 k b a d l => word32 0xA000004B [put 26 k, put 21 b, put 16 a, put 11 d, put 8 l]
  | .vdotbS8 k b a d l => word32 0xC000004B [put 26 k, put 21 b, put 16 a, put 11 d, put 8 l]
  | .vdotqQ4x k b a d l => word32 0xE000004B [put 26 k, put 21 b, put 16 a, put 11 d, put 8 l]
  | .vand k b a d l => word32 0x0000004F [put 26 k, put 21 b, put 16 a, put 11 d, put 8 l]
  | .vor k b a d l => word32 0x2000004F [put 26 k, put 21 b, put 16 a, put 11 d, put 8 l]
  | .vxor k b a d l => word32 0x4000004F [put 26 k, put 21 b, put 16 a, put 11 d, put 8 l]
  | .vsll k b a d l => word32 0x6000004F [put 26 k, put 21 b, put 16 a, put 11 d, put 8 l]
  | .vsrl k b a d l => word32 0x8000004F [put 26 k, put 21 b, put 16 a, put 11 d, put 8 l]
  | .vsra k b a d l => word32 0xA000004F [put 26 k, put 21 b, put 16 a, put 11 d, put 8 l]
  | .vsel k b a d l => word32 0xC000004F [put 26 k, put 21 b, put 16 a, put 11 d, put 8 l]
  | .vmov k a d l => word32 0xE000004F [put 26 k, put 16 a, put 11 d, put 8 l]
  | .vceqF32 k b a d l => word32 0x00000053 [put 26 k, put 21 b, put 16 a, put 11 d, put 8 l]
  | .vcltF32 k b a d l => word32 0x20000053 [put 26 k, put 21 b, put 16 a, put 11 d, put 8 l]
  | .vcleF32 k b a d l => word32 0x40000053 [put 26 k, put 21 b, put 16 a, put 11 d, put 8 l]
  | .vcunF32 k b a d l => word32 0x60000053 [put 26 k, put 21 b, put 16 a, put 11 d, put 8 l]
  | .vceqS32 k b a d l => word32 0x80000053 [put 26 k, put 21 b, put 16 a, put 11 d, put 8 l]
  | .vcltS32 k b a d l => word32 0xA0000053 [put 26 k, put 21 b, put 16 a, put 11 d, put 8 l]
  | .vcltN32 k b a d l => word32 0xC0000053 [put 26 k, put 21 b, put 16 a, put 11 d, put 8 l]
  | .vcnz k a d l => word32 0xE0000053 [put 26 k, put 16 a, put 11 d, put 8 l]
  | .vcvtF32S32 k a d l => word32 0x00000057 [put 26 k, put 16 a, put 11 d, put 8 l]
  | .vcvtS32F32 k a d l => word32 0x20000057 [put 26 k, put 16 a, put 11 d, put 8 l]
  | .vcvtF16F32 k b a d l => word32 0x40000057 [put 26 k, put 21 b, put 16 a, put 11 d, put 8 l]
  | .vcvtF32F16 k a d l => word32 0x60000057 [put 26 k, put 16 a, put 11 d, put 8 l]
  | .vcvtB16F32 k b a d l => word32 0x80000057 [put 26 k, put 21 b, put 16 a, put 11 d, put 8 l]
  | .vcvtF32B16 k a d l => word32 0xA0000057 [put 26 k, put 16 a, put 11 d, put 8 l]
  | .vcvtE4F32 k a d l => word32 0xC0000057 [put 26 k, put 16 a, put 11 d, put 8 l]
  | .vcvtF32E4 k a d l => word32 0xE0000057 [put 26 k, put 16 a, put 11 d, put 8 l]
  | .vperm k b a d l => word32 0x0000005B [put 26 k, put 21 b, put 16 a, put 11 d, put 8 l]
  | .vbcst k a d l => word32 0x2000005B [put 26 k, put 16 a, put 11 d, put 8 l]
  | .vext b a d l => word32 0x4000005B [put 21 b, put 16 a, put 11 d, put 8 l]
  | .vins b a d l => word32 0x6000005B [put 21 b, put 16 a, put 11 d, put 8 l]
  | .vcomp k a d l => word32 0x8000005B [put 26 k, put 16 a, put 11 d, put 8 l]
  | .vnzscan k b a d l => word32 0xA000005B [put 26 k, put 21 b, put 16 a, put 11 d, put 8 l]
  | .viota k a d l => word32 0xC000005B [put 26 k, put 16 a, put 11 d, put 8 l]
  | .vunpq k b a d l => word32 0xE000005B [put 26 k, put 21 b, put 16 a, put 11 d, put 8 l]
  | .vrsumF32 k a d l => word32 0x0000005F [put 26 k, put 16 a, put 11 d, put 8 l]
  | .vrmaxF32 k a d l => word32 0x2000005F [put 26 k, put 16 a, put 11 d, put 8 l]
  | .vrsumS32 k a d l => word32 0x4000005F [put 26 k, put 16 a, put 11 d, put 8 l]
  | .vexp2F32 k a d l => word32 0x6000005F [put 26 k, put 16 a, put 11 d, put 8 l]
  | .vlog2F32 k a d l => word32 0x8000005F [put 26 k, put 16 a, put 11 d, put 8 l]
  | .vrcpF32 k a d l => word32 0xA000005F [put 26 k, put 16 a, put 11 d, put 8 l]
  | .vrsqrtF32 k a d l => word32 0xC000005F [put 26 k, put 16 a, put 11 d, put 8 l]
  | .vdivF32 k b a d l => word32 0xE000005F [put 26 k, put 21 b, put 16 a, put 11 d, put 8 l]
  | .vrng k a d l => word32 0x00000063 [put 26 k, put 16 a, put 11 d, put 8 l]
  | .vrngf k a d l => word32 0x20000063 [put 26 k, put 16 a, put 11 d, put 8 l]
  | .kand b a d l => word32 0x40000063 [put 21 b, put 16 a, put 11 d, put 8 l]
  | .kor b a d l => word32 0x60000063 [put 21 b, put 16 a, put 11 d, put 8 l]
  | .kxor b a d l => word32 0x80000063 [put 21 b, put 16 a, put 11 d, put 8 l]
  | .knot a d l => word32 0xA0000063 [put 16 a, put 11 d, put 8 l]
  | .kpop a d l => word32 0xC0000063 [put 16 a, put 11 d, put 8 l]
  | .kmovKk a d l => word32 0xE0000063 [put 16 a, put 11 d, put 8 l]
  | .kmovGk a d l => word32 0xE0200063 [put 16 a, put 11 d, put 8 l]
  | .kmovKg a d l => word32 0xE0400063 [put 16 a, put 11 d, put 8 l]
  | .sopen i a s l => word32 0x00000067 [put 26 i.code, put 16 a, put 11 s, put 8 l]
  | .sdim i b a s l => word32 0x20000067 [put 26 i, put 21 b, put 16 a, put 11 s, put 8 l]
  | .sbase a s l => word32 0x40000067 [put 16 a, put 11 s, put 8 l]
  | .sidx b a s l => word32 0x60000067 [put 21 b, put 16 a, put 11 s, put 8 l]
  | .sattNone s l => word32 0x80000067 [put 11 s, put 8 l]
  | .sattScale a s l => word32 0x84000067 [put 16 a, put 11 s, put 8 l]
  | .sattAdds a s l => word32 0x88000067 [put 16 a, put 11 s, put 8 l]
  | .sattFmas b a s l => word32 0x8C000067 [put 21 b, put 16 a, put 11 s, put 8 l]
  | .sattCvt a s l => word32 0x90000067 [put 16 a.code, put 11 s, put 8 l]
  | .sattMins a s l => word32 0x94000067 [put 16 a, put 11 s, put 8 l]
  | .sattMaxs a s l => word32 0x98000067 [put 16 a, put 11 s, put 8 l]
  | .sattSumr s l => word32 0x9C000067 [put 11 s, put 8 l]
  | .sattAdd2 a s l => word32 0x80008067 [put 16 a, put 11 s, put 8 l]
  | .sgo s l => word32 0xA0000067 [put 11 s, put 8 l]
  | .sclose a s l => word32 0xC0000067 [put 16 a, put 11 s, put 8 l]
  | .spin i s l => word32 0xE0000067 [put 26 i, put 11 s, put 8 l]
  | .spop a s l => word32 0x0000006B [put 16 a, put 11 s, put 8 l]
  | .spopk b a s l => word32 0x2000006B [put 21 b, put 16 a, put 11 s, put 8 l]
  | .spush a s l => word32 0x4000006B [put 16 a, put 11 s, put 8 l]
  | .sgrant a f s l => word32 0x6000006B [put 16 a, bit 15 f, put 11 s, put 8 l]
  | .sfront a s l => word32 0x8000006B [put 16 a, put 11 s, put 8 l]
  | .swaitf a s l => word32 0xA000006B [put 16 a, put 11 s, put 8 l]
  | .sevt a s l => word32 0xC000006B [put 16 a, put 11 s, put 8 l]
  | .srecall s l => word32 0xE000006B [put 11 s, put 8 l]
  | .sskip a s l => word32 0x0000006F [put 16 a, put 11 s, put 8 l]
  | .ssave a s l => word32 0x2000006F [put 16 a, put 11 s, put 8 l]
  | .sload a s l => word32 0x4000006F [put 16 a, put 11 s, put 8 l]
  | .squery i a s l => word32 0x6000006F [put 26 i, put 16 a, put 11 s, put 8 l]
  | .send z b a d t => word32 0x00000073 [put 26 z, put 21 b, put 16 a, put 11 d, put 8 t]
  | .sendr z b a d t => word32 0x20000073 [put 26 z, put 21 b, put 16 a, put 11 d, put 8 t]
  | .sendw z b a d t => word32 0x40000073 [put 26 z, put 21 b, put 16 a, put 11 d, put 8 t]
  | .sendt z b a d t => word32 0x60000073 [put 26 z, put 21 b, put 16 a, put 11 d, put 8 t]
  | .sendv b a d t => word32 0x80000073 [put 21 b, put 16 a, put 11 d, put 8 t]
  | .reply z b a d => word32 0xA0000073 [put 26 z, put 21 b, put 16 a, put 11 d]
  | .fwd a d t => word32 0xC0000073 [put 16 a, put 11 d, put 8 t]
  | .sendg z b a d t => word32 0xE0000073 [put 26 z, put 21 b, put 16 a, put 11 d, put 8 t]
  | .mbcfg b a d l => word32 0x00000077 [put 21 b, put 16 a, put 11 d, put 8 l]
  | .mbcnt b a d l => word32 0x20000077 [put 21 b, put 16 a, put 11 d, put 8 l]
  | .mbmask a d l => word32 0x40000077 [put 16 a, put 11 d, put 8 l]
  | .msgf a d l => word32 0x60000077 [put 16 a, put 11 d, put 8 l]
  | .tagbind b a d l => word32 0x80000077 [put 21 b, put 16 a, put 11 d, put 8 l]
  | .tagwait a d l => word32 0xA0000077 [put 16 a, put 11 d, put 8 l]
  | .wret d l => word32 0x0000007B [put 11 d, put 8 l]
  | .wq d l => word32 0x2000007B [put 11 d, put 8 l]
  | .jcfg b a d l => word32 0x4000007B [put 21 b, put 16 a, put 11 d, put 8 l]
  | .jadd b a d l => word32 0x6000007B [put 21 b, put 16 a, put 11 d, put 8 l]
  | .launch b a d l => word32 0x8000007B [put 21 b, put 16 a, put 11 d, put 8 l]
  | .selfq a d l => word32 0xA000007B [put 16 a, put 11 d, put 8 l]
  | .gangq a d l => word32 0xC000007B [put 16 a, put 11 d, put 8 l]
  | .fenceL l => word32 0x0000007F [put 8 l]
  | .rel k l => word32 0x2000007F [k.code * 2 ^ 26, put 8 l]
  | .acq k l => word32 0x4000007F [k.code * 2 ^ 26, put 8 l]
  | .strel k b a l => word32 0x6000007F [k.code * 2 ^ 26, put 21 b, put 16 a, put 8 l]
  | .ldacq k a d l => word32 0x8000007F [k.code * 2 ^ 26, put 16 a, put 11 d, put 8 l]
  | .fenceS l => word32 0xA000007F [put 8 l]
  | .fenceM l => word32 0xC000007F [put 8 l]
  | .fenceA l => word32 0xE000007F [put 8 l]
  | .aaddS32 b a d p c => word32 0x00000083 [put 21 b, put 16 a, put 11 d, bit 10 p, c.code * 2 ^ 8]
  | .aaddS64 b a d p c => word32 0x20000083 [put 21 b, put 16 a, put 11 d, bit 10 p, c.code * 2 ^ 8]
  | .aminS32 b a d p c => word32 0x40000083 [put 21 b, put 16 a, put 11 d, bit 10 p, c.code * 2 ^ 8]
  | .amaxS32 b a d p c => word32 0x60000083 [put 21 b, put 16 a, put 11 d, bit 10 p, c.code * 2 ^ 8]
  | .aminN32 b a d p c => word32 0x80000083 [put 21 b, put 16 a, put 11 d, bit 10 p, c.code * 2 ^ 8]
  | .axchg b a d p c => word32 0xA0000083 [put 21 b, put 16 a, put 11 d, bit 10 p, c.code * 2 ^ 8]
  | .acas b a d p c => word32 0xC0000083 [put 21 b, put 16 a, put 11 d, bit 10 p, c.code * 2 ^ 8]
  | .aaddF32 b a d p c => word32 0xE0000083 [put 21 b, put 16 a, put 11 d, bit 10 p, c.code * 2 ^ 8]
  | .aor b a d p c => word32 0x00000087 [put 21 b, put 16 a, put 11 d, bit 10 p, c.code * 2 ^ 8]
  | .aand b a d p c => word32 0x20000087 [put 21 b, put 16 a, put 11 d, bit 10 p, c.code * 2 ^ 8]
  | .axor b a d p c => word32 0x40000087 [put 21 b, put 16 a, put 11 d, bit 10 p, c.code * 2 ^ 8]
  | .aminN64 b a d p c => word32 0x60000087 [put 21 b, put 16 a, put 11 d, bit 10 p, c.code * 2 ^ 8]
  | .barv a l => word32 0x0000008B [put 16 a, put 8 l]
  | .barw a l => word32 0x2000008B [put 16 a, put 8 l]
  | .barvw a l => word32 0x4000008B [put 16 a, put 8 l]
  | .barq a d l => word32 0x6000008B [put 16 a, put 11 d, put 8 l]
  | .watch a d l => word32 0x8000008B [put 16 a, put 11 d, put 8 l]
  | .waitw b a d l => word32 0xA000008B [put 21 b, put 16 a, put 11 d, put 8 l]
  | .unwatch a l => word32 0xC000008B [put 16 a, put 8 l]
  | .mldb b a e l => word32 0x0000008F [put 21 b, put 16 a, put 12 e.code, put 8 l]
  | .mldbs m b a e l => word32 0x2000008F [(match m with | .of4 => 1 | .of2 => 2) * 2 ^ 26, put 21 b, put 16 a, put 12 e.code, put 8 l]
  | .mswap l => word32 0x4000008F [put 8 l]
  | .mscale m a l => word32 0x6000008F [bit 26 m, put 16 a, put 8 l]
  | .mzero z l => word32 0x8000008F [put 11 z, put 8 l]
  | .mquad a l => word32 0xA000008F [put 16 a, put 8 l]
  | .mma m b a e z l => word32 0x00000093 [bit 26 m, put 21 b, put 16 a, put 12 e.code, put 11 z, put 8 l]
  | .mmas m b a e z l => word32 0x20000093 [bit 26 m, put 21 b, put 16 a, put 12 e.code, put 11 z, put 8 l]
  | .moutl b a e z l => word32 0x40000093 [put 21 b, put 16 a, put 12 e.code, put 11 z, put 8 l]
  | .mrdz m b a e z l => word32 0x00000097 [bit 26 m, put 21 b, put 16 a, put 12 e.code, put 11 z, put 8 l]
  | .mstz m b a e z l => word32 0x20000097 [bit 26 m, put 21 b, put 16 a, put 12 e.code, put 11 z, put 8 l]
  | .mdrain t m b a e z l => word32 0x40000097 [put 27 t, bit 26 m, put 21 b, put 16 a, put 12 e.code, put 11 z, put 8 l]
  | .mwait z l => word32 0x60000097 [put 11 z, put 8 l]
  | .tlrdef a d l => word32 0x0000009B [put 16 a, put 11 d, put 8 l]
  | .tlrfree a d l => word32 0x2000009B [put 16 a, put 11 d, put 8 l]
  | .copy a d l => word32 0x4000009B [put 16 a, put 11 d, put 8 l]
  | .copyf a d l => word32 0x6000009B [put 16 a, put 11 d, put 8 l]
  | .cpatch b a d l => word32 0x8000009B [put 21 b, put 16 a, put 11 d, put 8 l]
  | .copyq a d l => word32 0xA000009B [put 16 a, put 11 d, put 8 l]
  | .ccancel a d l => word32 0xC000009B [put 16 a, put 11 d, put 8 l]
  | .pft b a l => word32 0xE000009B [put 21 b, put 16 a, put 8 l]
  | .bbinit b a d l => word32 0x0000009F [put 21 b, put 16 a, put 11 d, put 8 l]
  | .bget b a d l => word32 0x2000009F [put 21 b, put 16 a, put 11 d, put 8 l]
  | .bpeek b d l => word32 0x4000009F [put 21 b, put 11 d, put 8 l]
  | .bskip b a l => word32 0x6000009F [put 21 b, put 16 a, put 8 l]
  | .bput b a d l => word32 0x8000009F [put 21 b, put 16 a, put 11 d, put 8 l]
  | .bflush a d l => word32 0xA000009F [put 16 a, put 11 d, put 8 l]
  | .bgetx b a d l => word32 0xC000009F [put 21 b, put 16 a, put 11 d, put 8 l]
  | .bbpos d l => word32 0xE000009F [put 11 d, put 8 l]
  | .sealg a d l => word32 0x000000A3 [put 16 a, put 11 d, put 8 l]
  | .sealset b d l => word32 0x200000A3 [put 21 b, put 11 d, put 8 l]
  | .sealchk a d l => word32 0x400000A3 [put 16 a, put 11 d, put 8 l]
  | .poison d l => word32 0x600000A3 [put 11 d, put 8 l]
  | .sealmode a d l => word32 0x800000A3 [put 16 a, put 11 d, put 8 l]
  | .csrr c d l => word32 0x000000A7 [put 21 c.num, put 11 d, put 8 l]
  | .csrw c a d l => word32 0x200000A7 [put 21 c.num, put 16 a, put 11 d, put 8 l]
  | .csrs c a d l => word32 0x400000A7 [put 21 c.num, put 16 a, put 11 d, put 8 l]
  | .csrc c a d l => word32 0x600000A7 [put 21 c.num, put 16 a, put 11 d, put 8 l]
  | .gstop a d l => word32 0x000000AB [put 16 a, put 11 d, put 8 l]
  | .gresume a d l => word32 0x200000AB [put 16 a, put 11 d, put 8 l]
  | .ctxsave b a d l => word32 0x400000AB [put 21 b, put 16 a, put 11 d, put 8 l]
  | .ctxload b a d l => word32 0x600000AB [put 21 b, put 16 a, put 11 d, put 8 l]
  | .evict b a d l => word32 0x800000AB [put 21 b, put 16 a, put 11 d, put 8 l]
  | .restore b a d l => word32 0xA00000AB [put 21 b, put 16 a, put 11 d, put 8 l]
  | .tret a l => word32 0xC00000AB [put 16 a, put 8 l]
  | .tlbinv b a d l => word32 0x000000AF [put 21 b, put 16 a, put 11 d, put 8 l]
  | .tlbinva a d l => word32 0x200000AF [put 16 a, put 11 d, put 8 l]
  | .xbset a d l => word32 0x400000AF [put 16 a, put 11 d, put 8 l]
  | .pageq a d l => word32 0x600000AF [put 16 a, put 11 d, put 8 l]
  | .amapset b a d l => word32 0x800000AF [put 21 b, put 16 a, put 11 d, put 8 l]
  | .cMov a d => word16 0x0004 [put 11 a, put 6 d]
  | .cAddi i d => word16 0x0008 [put 11 i, put 6 d]
  | .cLi i d => word16 0x000C [put 11 i, put 6 d]
  | .cLdl a d => word16 0x0010 [put 11 a, put 6 d]
  | .cStl a b => word16 0x0014 [put 11 a, put 6 b]
  | .cBeqz o a => word16 0x0018 [put 11 o, put 6 a]
  | .cBnez o a => word16 0x001C [put 11 o, put 6 a]
  | .cJ o => word16 0x0020 [put 6 o]
  | .cEnd => word16 0x0024 []
  | .cRet => word16 0x0028 []
  | .cSpop s d => word16 0x002C [put 11 s, put 6 d]
  | .cSpush s a => word16 0x0030 [put 11 s, put 6 a]
  | .cVmov a d => word16 0x0034 [put 11 a, put 6 d]
  | .cVfmaF32 b a d => word16 0x0038 [put 12 b, put 9 a, put 6 d]
  | .cNop => word16 0x003C []
  | _ => .none

/-- The bytes of an encoded instruction in LM, the lowest address first (R23, R47). -/
def encodeBytes (i : Instr) : List Byte :=
  match encode i with
  | .w32 w => wordBytes 4 w.toNat
  | .w16 h => wordBytes 2 h.toNat
  | .none => []

end Sys2Proof
end

