-- ==== Sys2Proof/Config.lean ====
section
/-!
DEFINITION. What the spec leaves open: free values, which no proof can evaluate, and constants that each implementation fixes.
A free value is applied to the model's draw counter (log 4), so that two uses are two values.
-/

namespace Sys2Proof.Config

/-- Which of several failing fields with one cause TINFO0 reports: R59 does not say (log 10). -/
opaque pickField : Nat → Nat

/-- The superset that may replace a signature (R213): none stands for the saturated one, otherwise the added granules. -/
opaque widen : Nat → Option (List Nat)

/-- What leaves a full cache or TLB: replacement order is not given (R83, R84, R357, logs 6 and 26). -/
opaque victim : Nat → Nat

/-- The last rounding of a special function where the model's interval does not decide it (R123, log 14). -/
opaque roundsUp : BitVec 32 → Bool

/-- The number of failed flits after which a link leaves the ready set (R399). -/
opaque linkRetryLimit : Nat

/-- The digest of the device manager firmware (R402). -/
opaque firmwareDigest : BitVec 256

/-- An ML-DSA-44 signature with the identity key, which is derived anew at each power-on (R402, log 13). -/
opaque signature : Nat → BitVec 19360

/-- The first fault token of a copy: the values of tokens are not given (R331, log 43). -/
opaque tokenBase : Nat

/-- A data value that the spec leaves open. -/
opaque freeWord : Nat → BitVec 64

/-- Which of the two parts the device is: the module ZL7400-M, else the package ZL7400-P, which has no record in module flash and no capacity tier
(R1, log 18). -/
opaque isModule : Bool

end Sys2Proof.Config
end

