-- ==== Sys2Proof/Machine/State.lean ====
section
/-!
DEFINITION. The state of the machine as plain data, the reasons a step can stop, and the state right after reset.
A field that the spec names carries its rule; a field of the model's own says so.
-/

namespace Sys2Proof.Machine

/-- A signature: the granules it holds, by physical address, or every granule when it is saturated (R213). -/
structure Sig where
  sat : Bool
  grs : List Nat
  deriving DecidableEq, Repr

/-- Bytes and the seals of their granules: a byte list by address, and a seal list by address ÷ 8 (R42). -/
structure Mem where
  bytes : List Host.Cell
  seals : List Host.Cell
  deriving DecidableEq, Repr

/-- A register named in a pending record: class 1 g, 2 v, 3 k (R367). -/
inductive RegId where
  | g (n : Nat)
  | v (n : Nat)
  | k (n : Nat)
  deriving DecidableEq, Repr

/-- A fixed-latency result short of its distance: the register, the value and seals it held before, the distance left (R57). -/
structure Pend where
  reg : RegId
  old : Vec
  seals : VSeals
  left : Nat
  awaits : Option Nat
  deriving DecidableEq, Repr

/-- A variable-latency result that is not yet written: its number, its register, the value and seals when they are
known at issue (none while a reply is awaited), and whether a younger fixed-latency result of the register has issued since (R55, R56). -/
structure VarRes where
  id : Nat
  reg : RegId
  res : Option (Vec × VSeals)
  shadowed : Bool
  deriving DecidableEq, Repr

/-- One entry of the loop stack (R69). -/
structure LoopEntry where
  start : Word
  fin : Word
  count : BitVec 32
  depth : Int
  deriving DecidableEq, Repr

/-- The firing that a context holds (R176, R180, R198, R202). -/
structure Firing where
  actor : Nat
  mb : Nat
  slots : List Nat
  join : Bool
  header : BitVec 128
  weight : Nat
  accepted : Nat
  sig : Option Sig
  forwarded : Bool
  entry : Nat
  away : Nat
  awaySince : Option Nat
  deriving DecidableEq, Repr

/-- The data registers of a context, with their seals; an unlisted register holds zero with seal 0x00 (R42). -/
structure Regs where
  g : Tab Word
  gs : Tab Byte
  v : Tab Vec
  vs : Tab VSeals
  k : Tab Mask
  deriving DecidableEq, Repr

/-- The trap registers and scratch registers of a context (R346, R349). -/
structure TrapRegs where
  pl : Bool
  ppl : Bool
  tact : Bool
  tcode : BitVec 9
  tpc : Word
  tinfo0 : Word
  tinfo1 : Word
  ssx0 : Word
  ssx1 : Word
  ssx2 : Word
  ssx3 : Word
  actsel : BitVec 4
  deriving DecidableEq, Repr

/-- The wait of a BARVW or WAITW that a trap has interrupted: the instruction's address, and what the context kept of it (R229, R232). -/
structure Held where
  pc : Word
  barv : Option Nat
  waitw : Option Nat
  deriving DecidableEq, Repr

/-- A handler context (R8, R176, R345).  Of a load or store that waits at its issue, loadG holds the grants that its core's streams then had
(R86), and swapWait says that its wait on a line under page swap is counted (R375); swait is the slot on which a waiting SWAITF waits (R146). -/
structure Ctx where
  regs : Regs
  fpx : BitVec 6
  pc : Word
  prevPc : Word
  loops : List LoopEntry
  rstack : List Word
  rspTop : BitVec 16
  bbData : BitVec 128
  bbPos : BitVec 7
  pend : List Pend
  varp : List VarRes
  rs : Sig
  bp : Bool
  trap : TrapRegs
  firing : Option Firing
  mbTrap : Bool
  halted : Bool
  dead : Bool
  barvSent : Option Nat
  waitw : Option Nat
  heldWait : Option Held
  lost : List Nat
  loadG : Option (List Nat)
  swapWait : Bool
  swait : Option Nat
  deriving DecidableEq, Repr

/-- What a reply tag is bound to (R203). -/
inductive Binding where
  | range (addr limit : Nat)
  | mailbox (mb : Nat)
  deriving DecidableEq, Repr

/-- A reply tag (R96, R203, R204): allocated, its binding, a request outstanding, taken by a FREQ, the sent length once its reply
landed in an LM range with the signature that it carried, and a FREQ reply that arrived before the tag was bound. -/
structure Tag where
  used : Bool
  bind : Option Binding
  out : Bool
  far : Bool
  landed : Option Nat
  sig : Option Sig
  early : Option (List (Word × Byte))
  deriving DecidableEq, Repr

/-- The state of a slot of a landing ring (R173, R175); joined is a slot after the first of a multi-part message (R307). -/
inductive SlotState where
  | free
  | landing
  | ready
  | joined
  | firing
  deriving DecidableEq, Repr

/-- A slot of a landing ring: the model keeps its own copy of the header and what the header does not show (R169, R175).
src is the actor that sent it (R177), ord marks an ordinary message (R186), claim the tag whose reservation the slot uses, tiles the SENDT tiles
awaited, span the slots of a multi-part message (R307), raised that AGE has raised its priority (R179); held is the payload of a message that
awaits tiles, which lands when the last tile has (R175, R196). -/
structure Slot where
  st : SlotState
  src : BitVec 32
  header : BitVec 128
  weight : Nat
  accepted : Nat
  seqNo : Nat
  ord : Bool
  claim : Option Nat
  tiles : Nat
  span : Nat
  raised : Bool
  sig : Option Sig
  held : List (Word × Byte)
  deriving DecidableEq, Repr

/-- An armed join (R192, R193, R206): operation, count, accumulator, ranks accepted, contributions landed, combined, largest
length, weights, flags of the combining lane, times of the first and of the last contribution, tiles of combined contributions that are
still awaited (R196), whether its firing runs. -/
structure Join where
  op : Nat
  count : Nat
  acc : Nat
  ranks : List Nat
  landed : Nat
  combined : Nat
  maxLen : Nat
  weight : Nat
  flags : BitVec 6
  first : Nat
  last : Nat
  tiles : Nat
  seqNo : Nat
  sig : Option Sig
  running : Bool
  deriving DecidableEq, Repr

/-- A mailbox (R171, R181): configuration word, ring base, slots, waiting list of sender cores, slots held for signalled
cores as (slot, core, time the hold ends), and the join when one is armed. -/
structure Mailbox where
  cfg : Word
  base : Nat
  slots : Tab Slot
  waiting : List Nat
  holds : List (Nat × Nat × Nat)
  join : Option Join
  deriving DecidableEq, Repr

/-- The state of a ridge tag at a member (R227). -/
inductive TagState where
  | idle
  | arrived
  | released
  deriving DecidableEq, Repr

/-- A TLR entry: the record's 128 bytes, byte 0 in bits 7:0, its generation, and whether it is in use (R322). -/
structure Tlr where
  record : Vec
  gen : BitVec 12
  used : Bool
  deriving DecidableEq, Repr

/-- The CSRs of an actor (R346, R349). -/
structure ActorCsrs where
  scb : BitVec 2
  sealctl : BitVec 16
  seallog : Word
  hbudget : BitVec 32
  age : BitVec 16
  lo : BitVec 7
  hi : BitVec 7
  asgSlots : BitVec 16
  asgArr : Bool
  rspBase : BitVec 16
  w : Nat
  mask : BitVec 7
  deriving DecidableEq, Repr

/-- A resident actor (R166, R367): the gang's number is the key of the device's gang table. -/
structure Actor where
  addr : BitVec 32
  part : Nat
  gang : Nat
  stage : Nat
  rank : Nat
  csr : ActorCsrs
  mbs : Tab Mailbox
  tags : Tab Tag
  ridge : List TagState
  tlr : Tab Tlr
  pub : Option (Sig × Scope)
  stopped : Bool
  parking : Bool
  fence : Bool
  code : Nat
  codeLen : Nat
  recAddr : Word
  quads : Bool
  deriving DecidableEq, Repr

/-- A granule of a cache: value, seal, dirty (R83, R84); the way of its line in a core cache, 0 in a cluster cache (R99); and the partition whose
access brought it (R356). -/
structure Line where
  val : Word
  sl : Byte
  dirty : Bool
  way : Nat
  part : Nat
  deriving DecidableEq, Repr

/-- A global store in the store queue or on its way to home: for each granule it writes its physical address ÷ 8, the byte
mask, the data and the data's seal; full granules are moves (R83, R90, R93). -/
structure GWrite where
  gr : Nat
  mask : BitVec 8
  data : Word
  sl : Byte
  deriving DecidableEq, Repr

/-- A store in the store queue (R87). -/
structure StoreEntry where
  id : Nat
  ctx : Nat
  actor : Nat
  addr : BitVec 32
  part : Nat
  va : Word
  writes : List GWrite
  direct : Bool
  remote : Bool
  deriving DecidableEq, Repr

/-- What an outstanding request asks for (R87, R96, R223). -/
inductive FarKind where
  | load (reg : RegId)
  | write
  | prefetch (clusterOnly : Bool)
  | atomic (fn : Nat) (width : Nat) (posted : Bool) (reg : Option RegId) (opnd cmp : Word) (sc : Scope)
  | freq (tag : Nat)
  deriving DecidableEq, Repr

/-- An outstanding request of a core: its number, context, actor, kind, virtual and physical address, size in bytes, whether it
goes to the home or to another device, whether its page selects the home-direct aperture, the writes of a store not yet performed, the ways to
which its lines of 32 bytes are assigned (R99), the granules read so far (R237), and the reply once the request has been performed: values
with seals, flags, and the line's signature. -/
structure Far where
  id : Nat
  ctx : Nat
  actor : Nat
  addr : BitVec 32
  part : Nat
  kind : FarKind
  va : Word
  pa : Nat
  size : Nat
  direct : Bool
  remote : Bool
  hd : Bool
  writes : List GWrite
  ways : Tab Nat
  got : Tab (Word × Byte)
  reply : Option (List (Word × Byte))
  flags : BitVec 6
  sig : Option Sig
  atHome : Bool
  pub : Option Sig
  deriving DecidableEq, Repr

/-- A watch entry (R231): its context, the granule's physical address ÷ 8, the granule's virtual address, triggered, lost. -/
structure Watch where
  ctx : Nat
  gr : Nat
  va : Word
  hit : Bool
  lost : Bool
  deriving DecidableEq, Repr

/-- The state of a stream slot (R129). -/
inductive SlotPhase where
  | closed
  | opened
  | running
  | halted
  deriving DecidableEq, Repr

/-- An element held between memory and the core: its index, its value, the granule it came from with that granule's seal and
address, and whether a patch changed it (R142, R157).  A pushed element came from a pair of a register, whose first element stands for an address: eight
times its index, so that elements of two pairs are told apart (R143). -/
structure Elem where
  e : Nat
  val : Word
  gr : Word
  sl : Byte
  va : Word
  patched : Bool
  deriving DecidableEq, Repr

/-- An entry of a stream's course (R155). -/
structure CourseEntry where
  loc : BitVec 2
  id : Nat
  f : Nat
  reason : BitVec 2
  deriving DecidableEq, Repr

/-- The fixed part of a stream slot: what the control word shows of the descriptor, and the scalars (R129, R130, R133). -/
structure Descr where
  dir : Dir
  fmt : BitVec 4
  op : BitVec 4
  cvtf : BitVec 4
  row : Bool
  auto : Bool
  evmb : BitVec 3
  evmsg : Bool
  evmask : BitVec 3
  base : Word
  t : List Word
  c : List (BitVec 32)
  a : Word
  b : Word
  ts : Word
  indir : Bool
  ixs : BitVec 4
  slv : BitVec 4
  deriving DecidableEq, Repr

/-- An update element that has been read and not yet written (R159, R247): its bits, the syndrome of the granule it came from, where it lies, and for
ADD2 the second stream's element with its syndrome once read. -/
structure Half where
  v : Nat
  y : Byte
  gr : Nat
  va : Word
  nib : Nat
  second : Option (Nat × Byte)
  deriving DecidableEq, Repr

/-- A cached translation: partition, virtual page and its size in address bits, the leaf, the owner (R357). -/
structure Tlb where
  part : Nat
  vpage : Nat
  bits : Nat
  leaf : Word
  owner : Option Nat
  deriving DecidableEq, Repr

/-- A stream slot (R129, R132, R146, R150, R155): f is the frontier at the stream, frec the core's record of it, read the
number of elements read (SRC), buf the elements held (read and undelivered, or pushed and not performed), halt the element at
which it halted, skips the ranges passed over by SSKIP; for an indirect stream ixpos positions are complete, idx holds the
values read from there on (none for a null index), and within elements lie past the start of idx; total is kept when read-ahead data that made
it known are given back; past holds, of a bound stream, the values of completed positions, to which it steps back when its reader gives elements back
(R148); half is an element between its read and its write, tlb the translations that the stream carries (R154, R357). -/
structure Stream where
  ph : SlotPhase
  d : Descr
  pin : BitVec 2
  loc : BitVec 2
  locId : Nat
  bound : Bool
  evpend : BitVec 3
  flags : BitVec 6
  g : Nat
  f : Nat
  frec : Nat
  read : Nat
  buf : List Elem
  acc : Word
  pushed : Nat
  within : Nat
  ixpos : Nat
  idx : List (Option Word)
  past : List (Option Word)
  total : Option Nat
  skips : List (Nat × Nat)
  halt : Option Nat
  course : List CourseEntry
  half : Option Half
  tlb : List Tlb
  deriving DecidableEq, Repr

/-- A store routed to streams (R156, R157): the store, for each update slot it matched the grant at its issue, and whether it has reached the streams
and some of its granules, which are then out of the store, are performed at home. -/
structure Patch where
  id : Nat
  st : StoreEntry
  slots : List (Nat × Nat)
  begun : Bool
  deriving DecidableEq, Repr

/-- The load state of a B bank (R290). -/
inductive BankLd where
  | empty
  | loading
  | ready
  | failed
  deriving DecidableEq, Repr

/-- A B bank in logical order (R290, R313): element (k, n) of the storage at key 96k + n, metadata byte 96i + n at that key,
scales, and alignments (h, sp) of (column n, K-group g) at key 96g + n. -/
structure Bank where
  ld : BankLd
  fmt : Fmt
  sp : BitVec 2
  store : Tab Int
  pres : Tab Byte
  scales : Tab (BitVec 32)
  align : Tab (Int × Bool)
  pm : BitVec 8
  q4b : Bool
  deriving DecidableEq, Repr

/-- An accumulator tile: element (r, n) at key 96r + n, KIND 0 NONE, 1 INT, 2 FLT, poison bits (r, j) at key 8r + j (R290). -/
structure Tile where
  z : Tab (BitVec 32)
  kind : BitVec 2
  pb : Tab Bool
  deriving DecidableEq, Repr

/-- Quad membership (R290, R309). -/
inductive Quad where
  | off
  | lead
  | member
  deriving DecidableEq, Repr

/-- An operation of the array that has issued and not completed (R294, R295): its kind and operands, with the LM bytes it
reads, which R295 fixes at its issue, the KIND of its tile as earlier operations leave it, the next row, for a quad the rows of A
done from a stream (R310), the column banks in which it met uncorrectable errors (R311), the flags so far and the kinds of MATRIXBANK sent.  fn: 0 MLDB or MLDBS, 2 MZERO, 3 MMA or MMAS, 4 MOUTL,
5 MRDZ, 6 MSTZ, 7 MDRAIN.  len is the number of LM bytes that MSTZ writes, or of MOUTL's entries; owner the issuing context and its firing,
none for a follow-on; ref the result of MRDZ, the message of MDRAIN, or the first word of MOUTL's list in its granules; for MRDZ k is
its third of the row. -/
structure ArrOp where
  id : Nat
  fn : Nat
  bank : Bool
  tile : Bool
  fmt : Fmt
  sp : BitVec 2
  sc : Bool
  kind : BitVec 2
  row0 : Nat
  count : Nat
  next : Nat
  k : Nat
  slot : Option Nat
  data : List (Word × Byte)
  extra : List (Word × Byte)
  scales : Option (List (Word × Byte))
  addr : Nat
  len : Nat
  pc : Word
  owner : Option (Nat × Option Nat)
  quad : Bool
  rows : List (List Nat × Option Word)
  listBad : Option Nat
  errs : BitVec 8
  flags : BitVec 6
  told : List Nat
  ref : Nat
  deriving DecidableEq, Repr

/-- An MMA of the lead that a quad member has received (R310): its number and tile, the rows done, the bank bound when it was reached, the number that
the member's operations issued before it stay below, whether the member differed from the lead then, the column banks with uncorrectable errors, and the
kinds of MATRIXBANK sent. -/
structure QuadOp where
  id : Nat
  tile : Bool
  next : Nat
  bank : Option Bool
  after : Nat
  bad : Bool
  errs : BitVec 8
  told : List Nat
  deriving DecidableEq, Repr

/-- The CIM array of a core (R290): the two banks, the active one (false is b0), the tiles, QM, the operations in progress in
program order, the value of an MQUAD that waits at its rendezvous with whether the four have met, and the quad operations received from
the lead. -/
structure Cim where
  b0 : Bank
  b1 : Bank
  act : Bool
  z0 : Tile
  z1 : Tile
  qm : Quad
  ops : List ArrOp
  quadWant : Option (Bool × Bool)
  quadOps : List QuadOp
  deriving DecidableEq, Repr

/-- The state of a message in its outbound entry (R181, R182): on its way, refused and listed, refused and waiting for its
backoff to end, or an MDRAIN whose rows are not read out yet (R295). -/
inductive MsgState where
  | draining
  | flying
  | listed
  | backoff (due : Nat)
  deriving DecidableEq, Repr

/-- What a message is, beyond its header: an ordinary message, a reply, or a message of a hardware sender (R167, R185). -/
inductive MsgKind where
  | plain
  | reply
  | event (core slot : Nat)
  | first (stage : Nat)
  | done
  | fault
  deriving DecidableEq, Repr

/-- A tile that a SENDT lists: the handle, the record it names, the tile index and the offset in the receiver's window (R196). -/
structure TileRef where
  handle : Nat
  record : Vec
  tile : Nat
  ofs : Nat
  deriving DecidableEq, Repr

/-- A message that has been sent and not yet accepted (R169, R183): the core and the address of its sender, header, payload granules
with seals, the weight it carries, its tiles for SENDT, the signature that travels with it, whether it is multi-part, the length of its last backoff, and its state. -/
structure Msg where
  id : Nat
  kind : MsgKind
  core : Nat
  src : BitVec 32
  part : Nat
  dst : BitVec 32
  tc : Nat
  header : BitVec 128
  payload : List (Word × Byte)
  weight : Nat
  tiles : List TileRef
  sig : Option Sig
  multi : Bool
  backoff : Nat
  st : MsgState
  deriving DecidableEq, Repr

/-- The memory side of a core: LM, cache, queues, signatures and TLB (R8, R83, R87, R213, R357). -/
structure CoreMem where
  lm : Mem
  xb : BitVec 6
  ways : Nat
  cache : Tab Line
  stores : List StoreEntry
  far : List Far
  patches : List Patch
  pcl : Sig
  pdv : Sig
  watch : Tab Watch
  tlb : List Tlb
  deriving DecidableEq, Repr

/-- A hardware fault message that found no slot in mb7 (R174): the actor's index, the message's number and type, and whether its MAILBOX trap has been
taken (R353). -/
structure Overflow where
  actor : Nat
  msg : Nat
  typ : Nat
  taken : Bool
  deriving DecidableEq, Repr

/-- A core or eave core (R8). -/
structure Core where
  ctxs : Tab Ctx
  actors : Tab (Option Actor)
  m : CoreMem
  streams : Tab Stream
  arr : Cim
  outbound : List Msg
  overflow : List Overflow
  part : Option Nat
  tvec : BitVec 18
  evt : BitVec 8
  dbgsel : BitVec 20
  counts : Tab Nat
  failed : Bool
  throttled : Bool
  deriving DecidableEq, Repr

/-- The cluster cache, its line signatures by physical address ÷ 256, and the translation cache (R84, R218, R357). -/
structure Cluster where
  cache : Tab Line
  sigs : Tab (Option Sig)
  tcache : List Tlb
  deriving DecidableEq, Repr

/-- The phase of a copy part (R327, R331): not started, waiting for CPATCH with its kind, performed at the homes and to be
landed, finished, skipped. -/
inductive PartPhase where
  | todo
  | waiting (kind : Nat)
  | moving
  | done
  | skipped
  deriving DecidableEq, Repr

/-- One part of a copy: its elements in image order from first, count of them, its token, the data read, and the patch image
that CPATCH supplied. -/
structure CopyPart where
  first : Nat
  count : Nat
  token : Nat
  ph : PartPhase
  data : List (Word × Byte)
  patch : Option (List (Word × Byte))
  deriving DecidableEq, Repr

/-- A copy from its issue to its completion (R324 to R336): the block's 64 bytes, the records it names, the snapshot of a source in LM,
its parts, the bytes and granules written, the parts skipped, and whether the image has landed while a follow-on is still to be issued;
rank is the issuer's (R333), tlb the translations that the copy carries (R327, R357), and land, from the first landed part to the last, the LM range
of the image as (core, address, bytes) (R330).  tile marks a tile fetch of SENDT with the slot that awaits it, as (core, index, mailbox, slot) (R196). -/
structure Copy where
  id : Nat
  core : Nat
  actor : Nat
  addr : BitVec 32
  part : Nat
  block : BitVec 512
  srcRec : Vec
  dstRec : Vec
  image : List (Word × Byte)
  requested : Bool
  parts : List CopyPart
  cancelled : Bool
  bytes : Nat
  grs : List Nat
  landed : Bool
  tile : Option (Nat × Nat × Nat × Nat)
  rank : Nat
  tlb : List Tlb
  land : Option (Nat × Nat × Nat)
  deriving DecidableEq, Repr

/-- The state of a partition (R361). -/
inductive PartState where
  | free
  | keyed
  | active
  | stopping
  | erasing
  deriving DecidableEq, Repr

/-- A partition (R361, R363, R373): keys is the set of generated key slots, park the free park buffers, amap the actor map. -/
structure Partition where
  st : PartState
  cores : List Nat
  ptb : Word
  keys : BitVec 4
  dead : BitVec 4
  park : List Nat
  aging : Nat
  hbudget : BitVec 32
  age : BitVec 16
  strict : Bool
  ways : Nat
  shares : Nat
  amap : Tab Word
  since : Nat
  deriving DecidableEq, Repr

/-- A launch queue at the distributor (R393 to R395): the control block's address, whether it is enabled, the committed indices
not yet taken, and the completed indices at or above FREE. -/
structure Queue where
  cb : Word
  enabled : Bool
  committed : List Nat
  completed : List Nat
  deriving DecidableEq, Repr

/-- A stage that the distributor has taken (R189, R190): the record's 64 bytes, the gangs placed so far, the sum of the
weights returned, the class raise, and when it was taken. -/
structure Stage where
  key : Nat
  part : Nat
  queue : Nat
  index : Nat
  record : BitVec 512
  placed : Nat
  sum : Nat
  raised : Nat
  taken : Nat
  deriving DecidableEq, Repr

/-- A ridge tag of a gang (R227, R230): the physical tag, members arrived, generations released, when the release of a
complete generation is due, and the members that were away in images at a release and take it up when they are loaded. -/
structure GangTag where
  phys : Nat
  arrived : Nat
  gen : Nat
  due : Option Nat
  owed : List (BitVec 32)
  deriving DecidableEq, Repr

/-- A gang (R166, R190): members in ascending core number, as (core, index, address). -/
structure Gang where
  id : Nat
  part : Nat
  stage : Nat
  entry : BitVec 256
  members : List (Nat × Nat × BitVec 32)
  tags : List GangTag
  stopped : Bool
  placedAt : Nat
  deriving DecidableEq, Repr

/-- What was saved in a context image, under the TIME at its save; used where memory still holds what was written for it (R367, log 12). -/
structure Image where
  part : Nat
  time : Nat
  actor : Actor
  ctx : Option Ctx
  streams : List (Nat × Stream)
  arr : Option Cim
  drains : List Msg
  deriving DecidableEq, Repr

/-- A page swap that goes on: the frame in the capacity tier, the HBM frame, and how many of their lines are exchanged and locked (R340). -/
structure Swap where
  far : Nat
  near : Nat
  next : Nat
  deriving DecidableEq, Repr

/-- Home memory and what the eave cores keep about it (R8, R218, R328, R339, R356): cached lists the lines of 256 bytes that home caches hold, and
swaps the page swaps that go on (R340); slots is the model's own: for a frame, 1 plus
4 × partition plus key slot of the last translation to it, which R361 needs when a key slot is discarded (log 13). -/
structure Home where
  mem : Mem
  sigs : Tab (Option Sig)
  locks : Tab Nat
  frames : Tab Byte
  remap : Tab Nat
  hits : Tab Nat
  slots : Tab Nat
  cached : List Nat
  swaps : List Swap
  deriving DecidableEq, Repr

/-- Power, links, readiness and monitors (R400 to R404); shut names the monitors for which a shutdown at 115 degrees goes on (R403). -/
structure Power where
  record : Option Fratre
  held : Bool
  ready : List Fn
  retries : Tab Nat
  readings : List (Fn × Int × Int × Int)
  ramp : Tab (Nat × Nat)
  failures : List Nat
  shut : List Fn
  bootFailed : Bool
  deriving DecidableEq, Repr

/-- What the host has received (R392, R394, R400, R402, R405). -/
inductive HostItem where
  | reserved (idx : Word)
  | read (bytes : List Byte)
  | accessFault
  | bootFailure
  | attested (digest firmware : BitVec 256) (parts : List Nat) (nonce : Word) (signature : BitVec 19360)
  | exported (frames : List CkFrame)
  | refusedExport
  deriving DecidableEq, Repr

/-- The distributor and the device manager's records (R189 to R191, R361, R393 to R395); the model's own: images (log 12), and parked, which
keeps for a record of a park buffer, by its physical address, what R364 gives no place in it, such as its signature (log 32); spent
holds the tokens of FOLLOWON faults with the partition and actor that they were reported to (R332). -/
structure Dist where
  parts : Tab Partition
  queues : Tab Queue
  stages : List Stage
  gangs : List Gang
  returns : List (Nat × Nat × Nat)
  hw : List Msg
  copies : List Copy
  images : List Image
  parked : List (Nat × Msg)
  spent : List (Nat × Nat × BitVec 32)
  next : Nat
  deriving DecidableEq, Repr

/-- A move that the feed lets happen next (log 3): a context runs its next instruction, or an event happens; dt is the time
that passes before it. -/
inductive Move where
  | run (core ctx dt : Nat)
  | event (i : Instr) (dt : Nat)
  deriving DecidableEq, Repr

/-- The state of the machine. -/
structure State where
  hasCap : Bool
  devNum : BitVec 8
  time : Nat
  cores : Tab Core
  clusters : Tab Cluster
  home : Home
  dist : Dist
  power : Power
  host : List HostItem
  feed : List Move
  stalled : List (Nat × Nat)
  cur : Nat
  curCtx : Nat
  draws : Nat
  deriving DecidableEq, Repr

/-- Reasons the machine stops with a fault.  The spec gives this machine none: every trap is a next state. -/
inductive Fault where
  /-- Raised by nothing: kept so that the type is not empty.  Safe. -/
  | none
  deriving DecidableEq, Repr

/-- Reasons a step is refused. -/
inductive Refusal where
  /-- An instruction without a meaning, raised by Dispatch only.  Safe: the run stops. -/
  | notModelled (mnemonic : String)
  /-- An event that cannot happen in this state (its message, request, actor or time is not there), raised by the events'
  meanings.  Safe: no state follows. -/
  | notEnabled
  deriving DecidableEq, Repr

/-- The empty signature (R213). -/
def Sig.empty : Sig := ⟨false, []⟩
/-- The saturated signature (R213). -/
def Sig.full : Sig := ⟨true, []⟩
/-- Memory with nothing listed: every byte and seal reads zero (log 2). -/
def Mem.empty : Mem := ⟨[], []⟩
/-- Registers that all read zero with seal 0x00 (R42, log 1). -/
def Regs.zero : Regs := ⟨[], [], [], [], []⟩
/-- Trap registers at reset (R349, log 1). -/
def TrapRegs.reset : TrapRegs := ⟨false, false, false, 0, 0, 0, 0, 0, 0, 0, 0, 0⟩
/-- A context that holds nothing (log 1). -/
def Ctx.reset : Ctx :=
  { regs := .zero, fpx := 0, pc := 0, prevPc := BitVec.allOnes 64, loops := [], rstack := [], rspTop := 0, bbData := 0, bbPos := 0
    pend := [], varp := [], rs := .empty, bp := false, trap := .reset, firing := none, mbTrap := false, halted := false
    dead := false, barvSent := none, waitw := none, heldWait := none, lost := [], loadG := none, swapWait := false, swait := none }
/-- A free reply tag (R203). -/
def Tag.free : Tag := ⟨false, none, false, false, none, none, none⟩
/-- A free slot (R173). -/
def Slot.free : Slot := ⟨.free, 0, 0, 0, 0, 0, false, none, 0, 0, false, none, []⟩
/-- A mailbox that is not declared: KIND = 3 (R171). -/
def Mailbox.disabled : Mailbox := ⟨0x600, 0, [], [], [], none⟩
/-- A free TLR entry (R322). -/
def Tlr.free : Tlr := ⟨0, 0, false⟩
/-- Actor CSRs at reset (R346, R349). -/
def ActorCsrs.reset : ActorCsrs := ⟨1, 0, 0, 0, 0, 0, 0, 0, false, 0, 0, 0⟩
/-- A descriptor as SOPEN clears it (R137). -/
def Descr.zero : Descr :=
  { dir := .src, fmt := 0, op := 0, cvtf := 0, row := false, auto := false, evmb := 0, evmsg := false, evmask := 0, base := 0
    t := [0, 0, 0, 0], c := [1, 1, 1, 1], a := 0, b := 0, ts := 0, indir := false, ixs := 0, slv := 0 }
/-- A closed slot: the reset values of R129. -/
def Stream.closed : Stream :=
  { ph := .closed, d := .zero, pin := 0, loc := 0, locId := 0, bound := false, evpend := 0, flags := 0, g := 0, f := 0, frec := 0
    read := 0, buf := [], acc := 0, pushed := 0, within := 0, ixpos := 0, idx := [], past := [], total := none, skips := [], halt := none, course := []
    half := none, tlb := [] }
/-- An empty bank (R290). -/
def Bank.empty : Bank := ⟨.empty, .f32, 0, [], [], [], [], 0, false⟩
/-- A cleared tile (R290). -/
def Tile.empty : Tile := ⟨[], 0, []⟩
/-- The array at placement (R290). -/
def Cim.reset : Cim := ⟨.empty, .empty, false, .empty, .empty, .off, [], none, []⟩
/-- The memory side of a core at reset (R81, R83, R213, log 1, log 2). -/
def CoreMem.reset : CoreMem := ⟨.empty, 0, 0, [], [], [], [], .empty, .empty, [], []⟩
/-- A core at reset. -/
def Core.reset : Core :=
  { ctxs := [], actors := [], m := .reset, streams := [], arr := .reset, outbound := [], overflow := [], part := none, tvec := 0
    evt := 0, dbgsel := 0, counts := [], failed := false, throttled := false }
/-- A cluster at reset. -/
def Cluster.reset : Cluster := ⟨[], [], []⟩
/-- A partition in state FREE (R361). -/
def Partition.free : Partition := ⟨.free, [], 0, 0, 0, [], 0, 0, 0, false, 0, 0, [], 0⟩
/-- A launch queue that has not been set up (R394). -/
def Queue.off : Queue := ⟨0, false, [], []⟩

/-- The machine right after reset: nothing ready, every partition FREE, no program (R361, R400, R401). -/
def State.reset : State :=
  { hasCap := false, devNum := 0, time := 0, cores := [], clusters := [], home := ⟨.empty, [], [], [], [], [], [], [], []⟩
    dist := ⟨[], [], [], [], [], [], [], [], [], [], 0⟩, power := ⟨none, true, [], [], [], [], [], [], false⟩, host := [], feed := []
    stalled := [], cur := 0, curCtx := 0, draws := 0 }

end Sys2Proof.Machine
end

