-- ==== Sys2Proof/Machine/Tab.lean ====
section
/-!
DEFINITION. Operations on sparse tables and on memory: reading, writing in canonical form, bytes, granules and seals (R23, R41, R42).
-/

namespace Sys2Proof.Machine

/-- The value at key k: an unlisted key reads as d. -/
def tget {α : Type} (d : α) : Tab α → Nat → α
  | [], _ => d
  | (k', v) :: r, k => if k' = k then v else tget d r k

/-- The table without key k. -/
def tdel {α : Type} : Tab α → Nat → Tab α
  | [], _ => []
  | (k', v) :: r, k => if k' = k then tdel r k else (k', v) :: tdel r k

/-- The table with (k, v) before the first larger key. -/
def tins {α : Type} : Tab α → Nat → α → Tab α
  | [], k, v => [(k, v)]
  | (k', v') :: r, k, v => if k < k' then (k, v) :: (k', v') :: r else (k', v') :: tins r k v

/-- The table with value v at key k, in canonical form: writing the value that an unlisted key reads as removes the entry. -/
def tset {α : Type} [DecidableEq α] (d : α) (t : Tab α) (k : Nat) (v : α) : Tab α :=
  if v = d then tdel t k else tins (tdel t k) k v

/-- Keys strictly rising from above lo, and no entry equal to d. -/
def twfFrom {α : Type} [DecidableEq α] (d : α) : Nat → Tab α → Bool
  | _, [] => true
  | lo, (k, v) :: r => lo ≤ k && v ≠ d && twfFrom d (k + 1) r

/-- The canonical form of a table. -/
def twf {α : Type} [DecidableEq α] (d : α) (t : Tab α) : Bool := twfFrom d 0 t

/-- The entries whose key lies in lo .. hi - 1. -/
def trange {α : Type} (t : Tab α) (lo hi : Nat) : Tab α := t.filter (fun e => lo ≤ e.1 && e.1 < hi)

/-- The byte at an address; a byte that nothing has written reads zero (log 2). -/
def Mem.byte (m : Mem) (a : Nat) : Byte := tget 0 m.bytes a

/-- The seal of granule gr; a granule that nothing has sealed has seal 0x00 (log 2). -/
def Mem.sealOf (m : Mem) (gr : Nat) : Byte := tget 0 m.seals gr

/-- The memory with byte b at address a. -/
def Mem.setByte (m : Mem) (a : Nat) (b : Byte) : Mem := { m with bytes := tset 0 m.bytes a b }

/-- The memory with seal s on granule gr. -/
def Mem.setSeal (m : Mem) (gr : Nat) (s : Byte) : Mem := { m with seals := tset 0 m.seals gr s }

/-- The canonical form of memory. -/
def Memory.wf (m : Mem) : Bool := twf 0 m.bytes && twf 0 m.seals

/-- Eight bytes as a word, the first in bits [7:0] (R23). -/
def wordOf (b0 b1 b2 b3 b4 b5 b6 b7 : Byte) : Word := b7 ++ b6 ++ b5 ++ b4 ++ b3 ++ b2 ++ b1 ++ b0

/-- Byte i of a word (R23). -/
def byteOf (w : Word) (i : Nat) : Byte := w.extractLsb' (8 * i) 8

/-- The granule at addresses 8 gr to 8 gr + 7 (R23). -/
def Mem.gran (m : Mem) (gr : Nat) : Word :=
  wordOf (m.byte (8 * gr)) (m.byte (8 * gr + 1)) (m.byte (8 * gr + 2)) (m.byte (8 * gr + 3)) (m.byte (8 * gr + 4))
    (m.byte (8 * gr + 5)) (m.byte (8 * gr + 6)) (m.byte (8 * gr + 7))

/-- The memory with word w and seal s in granule gr. -/
def Mem.setGran (m : Mem) (gr : Nat) (w : Word) (s : Byte) : Mem :=
  ((((((((m.setByte (8 * gr) (byteOf w 0)).setByte (8 * gr + 1) (byteOf w 1)).setByte (8 * gr + 2) (byteOf w 2)).setByte
    (8 * gr + 3) (byteOf w 3)).setByte (8 * gr + 4) (byteOf w 4)).setByte (8 * gr + 5) (byteOf w 5)).setByte (8 * gr + 6)
    (byteOf w 6)).setByte (8 * gr + 7) (byteOf w 7)).setSeal gr s

/-- The n bytes from address a. -/
def Mem.read (m : Mem) (a : Nat) : Nat → List Byte
  | 0 => []
  | n + 1 => m.byte a :: Mem.read m (a + 1) n

/-- The n granules from granule gr, each with its seal. -/
def Mem.grans (m : Mem) (gr : Nat) : Nat → List (Word × Byte)
  | 0 => []
  | n + 1 => (m.gran gr, m.sealOf gr) :: Mem.grans m (gr + 1) n

/-- The memory with granules gs, each with its seal, from granule gr. -/
def Mem.setGrans (m : Mem) (gr : Nat) : List (Word × Byte) → Mem
  | [] => m
  | (w, s) :: r => Mem.setGrans (m.setGran gr w s) (gr + 1) r

/-- The memory with n granules from gr zero, with seal 0x00. -/
def Mem.zero (m : Mem) (gr n : Nat) : Mem :=
  { bytes := m.bytes.filter (fun e => e.1 < 8 * gr || 8 * (gr + n) ≤ e.1)
    seals := m.seals.filter (fun e => e.1 < gr || gr + n ≤ e.1) }

/-- A little-endian number from bytes (R23). -/
def leNat : List Byte → Nat
  | [] => 0
  | b :: r => b.toNat + 256 * leNat r

/-- One bit of CRC-8 with polynomial 0x2F, n times (R41). -/
def crcBits : Nat → Byte → Byte
  | 0, c => c
  | n + 1, c => crcBits n (if c.msb then (c <<< 1) ^^^ 0x2F else c <<< 1)

/-- The CRC of a byte sequence, most significant bit first (R41). -/
def crc : List Byte → Byte → Byte
  | [], c => c
  | b :: r, c => crc r (crcBits 8 (c ^^^ b))

/-- The eight bytes of a word in address order (R23). -/
def wordList (w : Word) : List Byte :=
  [byteOf w 0, byteOf w 1, byteOf w 2, byteOf w 3, byteOf w 4, byteOf w 5, byteOf w 6, byteOf w 7]

/-- The seal of a granule (R41). -/
def sealFn (w : Word) : Byte := crc (wordList w) 0

/-- The syndrome of a granule and its seal (R45). -/
def syn (w : Word) (s : Byte) : Byte := s ^^^ sealFn w

/-- The word with the bytes that mask selects replaced by those of new (R90). -/
def mergeBytes (old new : Word) (mask : BitVec 8) : Word :=
  let f := fun i => if mask.getLsbD i then byteOf new i else byteOf old i
  wordOf (f 0) (f 1) (f 2) (f 3) (f 4) (f 5) (f 6) (f 7)

/-- The mask of n bytes from byte i of a granule. -/
def maskOf (i n : Nat) : BitVec 8 := BitVec.ofNat 8 ((2 ^ n - 1) * 2 ^ i)

/-- Lane j of a vector register (R23). -/
def lane (v : Vec) (j : Nat) : BitVec 32 := v.extractLsb' (32 * j) 32

/-- Pair j of a vector register: lanes 2j and 2j + 1 (R42). -/
def pair (v : Vec) (j : Nat) : Word := v.extractLsb' (64 * j) 64

/-- The seal of pair j (R42). -/
def pairSeal (s : VSeals) (j : Nat) : Byte := s.extractLsb' (8 * j) 8

/-- A number from fields of w bits, the first in the low bits. -/
def packNat (w : Nat) : List Nat → Nat
  | [] => 0
  | x :: r => x + 2 ^ w * packNat w r

/-- A vector register from its lanes. -/
def vecOf (ls : List (BitVec 32)) : Vec := BitVec.ofNat 1024 (packNat 32 (ls.map (·.toNat)))

/-- A vector register from its pairs. -/
def vecOfPairs (ps : List Word) : Vec := BitVec.ofNat 1024 (packNat 64 (ps.map (·.toNat)))

/-- The seals of a vector register from those of its pairs. -/
def vsealsOf (ss : List Byte) : VSeals := BitVec.ofNat 128 (packNat 8 (ss.map (·.toNat)))

/-- Element e of width w bits of a vector register (R23). -/
def elem (v : Vec) (w e : Nat) : Nat := v.toNat / 2 ^ (w * e) % 2 ^ w

/-- The lanes of a vector register in order. -/
def lanes (v : Vec) : List (BitVec 32) := (List.range 32).map (lane v)

/-- The pairs of a vector register in order. -/
def pairs (v : Vec) : List Word := (List.range 16).map (pair v)

/-- The union of two signatures (R213). -/
def Sig.union (a b : Sig) : Sig :=
  if a.sat || b.sat then .full else ⟨false, a.grs ++ b.grs.filter (fun g => !a.grs.contains g)⟩

/-- A signature with one granule more (R213). -/
def Sig.add (a : Sig) (g : Nat) : Sig := if a.sat || a.grs.contains g then a else ⟨false, g :: a.grs⟩

/-- Whether a signature names a granule of the 8-granule range of lines of n granules that holds gr. -/
def Sig.hits (s : Sig) (n gr : Nat) : Bool := s.sat || s.grs.any (fun g => g / n == gr / n)

/-- Whether a signature is empty (R217). -/
def Sig.isEmpty (s : Sig) : Bool := !s.sat && s.grs.isEmpty

/-- Element e of w bits in a list of granules (R23). -/
def granElem (l : List (Word × Byte)) (w e : Nat) : Nat := (l.getD (e * w / 64) (0, 0)).1.toNat / 2 ^ (e * w % 64) % 2 ^ w

/-- A table of n entries, entry e being f e, without those that are zero. -/
def tabFrom {α : Type} [DecidableEq α] (zero : α) (n : Nat) (f : Nat → α) : Tab α :=
  (List.range n).filterMap fun e => if f e = zero then none else some (e, f e)

end Sys2Proof.Machine
end

