-- ==== Sys2Proof/Machine/Fp.lean ====
section
/-!
DEFINITION. Number formats and rounding: the values of the element formats, exact arithmetic on dyadic numbers, RNE, Sat, Canon, the
conversions, the minimum and maximum, the dot product, Q4Decode, BlockAlign and the array's group sum (R22 to R38).
-/

namespace Sys2Proof

/-- The bits of one element (R22). -/
def Fmt.bits : Fmt → Nat
  | .f32 | .s32 | .n32 => 32
  | .f16 | .b16 | .s16 | .n16 => 16
  | .e4 | .e5 | .s8 | .n8 => 8
  | .s64 => 64
  | .q4x | .s4 => 4

/-- Whether a format is floating (R24). -/
def Fmt.isFloat : Fmt → Bool
  | .f32 | .f16 | .b16 | .e4 | .e5 => true
  | _ => false

/-- Whether an integer format is signed (R26). -/
def Fmt.signed : Fmt → Bool
  | .s8 | .s16 | .s32 | .s64 | .q4x | .s4 => true
  | _ => false

/-- The fraction width (R24). -/
def Fmt.frac : Fmt → Nat
  | .f32 => 23 | .f16 => 10 | .b16 => 7 | .e4 => 3 | .e5 => 2 | _ => 0

/-- The exponent bias (R24). -/
def Fmt.bias : Fmt → Nat
  | .f32 => 127 | .f16 => 15 | .b16 => 127 | .e4 => 7 | .e5 => 15 | _ => 0

/-- The encoding of the largest finite magnitude (R24). -/
def Fmt.maxFin : Fmt → Nat
  | .f32 => 0x7F7FFFFF | .f16 => 0x7BFF | .b16 => 0x7F7F | .e4 => 0x7E | .e5 => 0x7B | _ => 0

/-- The sign bit's weight of a format. -/
def Fmt.signW (f : Fmt) : Nat := 2 ^ (f.bits - 1)

/-- The least value of an integer format (R22). -/
def Fmt.lo (f : Fmt) : Int :=
  match f with
  | .q4x => -128
  | _ => if f.signed then -(2 ^ (f.bits - 1)) else 0
/-- The greatest value of an integer format (R22). -/
def Fmt.hi (f : Fmt) : Int :=
  match f with
  | .q4x => 112
  | _ => if f.signed then 2 ^ (f.bits - 1) - 1 else 2 ^ f.bits - 1

end Sys2Proof

namespace Sys2Proof.Machine

/-- The sticky flags, in the order of FPX[5:0] (R33). -/
abbrev Flags := BitVec 6
/-- NX: an inexact result (R33). -/
def fNX : Flags := 1
/-- UF: a tiny result that is inexact (R33). -/
def fUF : Flags := 2
/-- OF: overflow (R33). -/
def fOF : Flags := 4
/-- DZ: division by zero, or logarithm of zero (R33). -/
def fDZ : Flags := 8
/-- IV: an invalid operation (R33). -/
def fIV : Flags := 16
/-- Q4BAD: an escape in the odd slot (R33). -/
def fQ4 : Flags := 32

/-- An exact number, infinity or NaN: a finite value is m times 2 to the e, with a sign that zero keeps (R25, R28). -/
inductive Num where
  | nan
  | inf (neg : Bool)
  | fin (neg : Bool) (m : Nat) (e : Int)
  deriving DecidableEq, Repr

/-- The canonical NaN (R31). -/
def canon : Fmt → Nat
  | .f32 => 0x7FC00000 | .f16 => 0x7E00 | .b16 => 0x7FC0 | .e4 => 0x7F | .e5 => 0x7E | _ => 0

/-- The encoding of an infinity without its sign; E4 has none (R24). -/
def infBits : Fmt → Nat
  | .f32 => 0x7F800000 | .f16 => 0x7C00 | .b16 => 0x7F80 | .e5 => 0x7C | _ => 0

/-- The value of an encoding in a floating format (R24). -/
def unpackF (f : Fmt) (x : Nat) : Num :=
  let neg := f.signW ≤ x % (2 * f.signW)
  let mag := x % f.signW
  let ef := mag / 2 ^ f.frac
  let fr := mag % 2 ^ f.frac
  if f.maxFin < mag then
    if f ≠ .e4 && mag == infBits f then .inf neg else .nan
  else if ef == 0 then .fin neg fr (1 - f.bias - f.frac)
  else .fin neg (2 ^ f.frac + fr) ((ef : Int) - f.bias - f.frac)

/-- The integer that w low bits of x stand for, signed or not (R26). -/
def intOf (w : Nat) (sgn : Bool) (x : Nat) : Int :=
  let y := x % 2 ^ w
  if sgn && 2 ^ (w - 1) ≤ y then (y : Int) - 2 ^ w else y

/-- The value of an integer as an exact number. -/
def ofInt (i : Int) : Num := .fin (i < 0) i.natAbs 0

/-- The value of an encoding in any format that stands alone (R22 to R26). -/
def unpack (f : Fmt) (x : Nat) : Num :=
  if f.isFloat then unpackF f x else ofInt (intOf f.bits f.signed x)

/-- m divided by 2 to the d, rounded to nearest with ties to even, and whether the result differs. -/
def rneShift (m d : Nat) : Nat × Bool :=
  let q := m / 2 ^ d
  let r := m % 2 ^ d
  let up := 2 ^ d < 2 * r || (2 * r == 2 ^ d && q % 2 == 1)
  (if up then q + 1 else q, r != 0)

/-- m times 2 to the e in units of 2 to the q, rounded to nearest with ties to even. -/
def rneUnits (m : Nat) (e q : Int) : Nat × Bool :=
  if q ≤ e then (m * 2 ^ (e - q).toNat, false) else rneShift m (q - e).toNat

/-- The encoding of an infinity, or of the largest value in E4, with its sign (R28). -/
def bigBits (f : Fmt) (neg : Bool) : Nat :=
  (if neg then f.signW else 0) + (if f = .e4 then 0x7E else infBits f)

/-- RNE of an exact number to a floating format, with the flags it raises (R28, R34). -/
def rneF (f : Fmt) : Num → Nat × Flags
  | .nan => (canon f, 0)
  | .inf neg => (bigBits f neg, if f = .e4 then fOF ||| fNX else 0)
  | .fin neg m e =>
    let sg := if neg then f.signW else 0
    if m == 0 then (sg, 0) else
    let ex : Int := e + (m.log2 : Int)
    let emin : Int := 1 - f.bias
    let q : Int := max ex emin - f.frac
    let (n, nx) := rneUnits m e q
    let wide := (rneUnits m e (ex - f.frac)).1
    let tiny := ex < emin && !(ex == emin - 1 && wide == 2 ^ (f.frac + 1))
    let mag := if n < 2 ^ f.frac then n else ((q + f.frac + f.bias).toNat * 2 ^ f.frac) + (n - 2 ^ f.frac)
    if f.maxFin < mag then (bigBits f neg, fOF ||| fNX)
    else (sg + mag, (if nx then fNX else 0) ||| (if tiny && nx then fUF else 0))

/-- Sat: the integer clamped to the range of the format, and whether it was clamped (R29). -/
def satI (i : Int) (f : Fmt) : Int × Bool :=
  if i < f.lo then (f.lo, true) else if f.hi < i then (f.hi, true) else (i, false)

/-- An integer as w bits, two's complement (R26). -/
def bitsOf (w : Nat) (i : Int) : Nat := (i % (2 ^ w : Int)).toNat

/-- RNE of an exact number to an integer format, with the flags of R30. -/
def rneI (f : Fmt) : Num → Nat × Flags
  | .nan => (0, fIV)
  | .inf neg => (bitsOf f.bits (if neg then f.lo else f.hi), fIV)
  | .fin neg m e =>
    let (n, nx) := rneUnits m e 0
    let (v, cl) := satI (if neg then -(n : Int) else n) f
    (bitsOf f.bits v, if cl then fIV else if nx then fNX else 0)

/-- RNE (R28). -/
def rne (f : Fmt) (x : Num) : Nat × Flags := if f.isFloat then rneF f x else rneI f x

/-- Exact negation. -/
def Num.neg : Num → Num
  | .nan => .nan
  | .inf s => .inf (!s)
  | .fin s m e => .fin (!s) m e

/-- Exact product, with IV for 0 × infinity (R34). -/
def mulR : Num → Num → Num × Flags
  | .nan, _ => (.nan, 0)
  | _, .nan => (.nan, 0)
  | .inf a, .inf b => (.inf (a != b), 0)
  | .inf a, .fin b m _ => if m == 0 then (.nan, fIV) else (.inf (a != b), 0)
  | .fin a m _, .inf b => if m == 0 then (.nan, fIV) else (.inf (a != b), 0)
  | .fin a m e, .fin b n k => (.fin (a != b) (m * n) (e + k), 0)

/-- The signed integer of a sign and a magnitude. -/
def sgn (s : Bool) (m : Nat) : Int := if s then -(m : Int) else m

/-- Exact sum, with IV for infinities of opposite sign; the exact sum of operands of opposite sign is +0 (R28, R34). -/
def addR : Num → Num → Num × Flags
  | .nan, _ => (.nan, 0)
  | _, .nan => (.nan, 0)
  | .inf a, .inf b => if a == b then (.inf a, 0) else (.nan, fIV)
  | .inf a, .fin .. => (.inf a, 0)
  | .fin .., .inf b => (.inf b, 0)
  | .fin a m e, .fin b n k =>
    let q := min e k
    let i := sgn a (m * 2 ^ (e - q).toNat) + sgn b (n * 2 ^ (k - q).toNat)
    if i == 0 then (.fin (a && b) 0 q, 0) else (.fin (i < 0) i.natAbs q, 0)

/-- A result with the flags of its steps. -/
def withFl (x : Nat × Flags) (fl : Flags) : Nat × Flags := (x.1, x.2 ||| fl)

/-- RNE(a + b). -/
def addF (f : Fmt) (a b : Nat) : Nat × Flags :=
  let (s, fl) := addR (unpackF f a) (unpackF f b)
  withFl (rneF f s) fl
/-- RNE(a − b). -/
def subF (f : Fmt) (a b : Nat) : Nat × Flags :=
  let (s, fl) := addR (unpackF f a) (unpackF f b).neg
  withFl (rneF f s) fl
/-- RNE(a × b). -/
def mulF (f : Fmt) (a b : Nat) : Nat × Flags :=
  let (p, fl) := mulR (unpackF f a) (unpackF f b)
  withFl (rneF f p) fl

/-- RNE(d + a × b) or RNE(d − a × b), one rounding (R110); 0 × infinity raises IV whatever d is. -/
def fmaF (f : Fmt) (sub : Bool) (d a b : Nat) : Nat × Flags :=
  let (p, fp) := mulR (unpackF f a) (unpackF f b)
  let (s, fs) := addR (unpackF f d) (if sub then p.neg else p)
  withFl (rneF f s) (fp ||| fs)

/-- Whether an exact value is an infinity of sign s. -/
def Num.isInf (x : Num) (s : Bool) : Bool := match x with | .inf t => t == s | _ => false

/-- The exact sum of terms, folded from the left; IV for infinities of opposite sign among them (R36, R112). -/
def sumR (ts : List Num) : Num × Flags :=
  let x := ts.foldl (fun acc t => (addR acc t).1) (Num.fin true 0 0)
  (x, if ts.any (·.isInf true) && ts.any (·.isInf false) then fIV else 0)

/-- RNE(d + sum of products, F32) with products in format f: exact products, one rounding; a NaN in any term gives Canon without IV (R112). -/
def dotF (f : Fmt) (d : Nat) (ps : List (Nat × Nat)) : Nat × Flags :=
  if unpackF .f32 d == .nan || ps.any (fun p => unpackF f p.1 == .nan || unpackF f p.2 == .nan) then (canon .f32, 0)
  else
    let prods := ps.map (fun p => mulR (unpackF f p.1) (unpackF f p.2))
    let (s, fs) := sumR (unpackF .f32 d :: prods.map (·.1))
    withFl (rneF .f32 s) (prods.foldl (fun acc p => acc ||| p.2) fs)

/-- A key that orders the non-NaN encodings of a floating format, −0 below +0 (R32). -/
def orderKey (f : Fmt) (x : Nat) : Int :=
  let mag := x % f.signW
  if f.signW ≤ x % (2 * f.signW) then -(mag : Int) - 1 else mag

/-- Whether an encoding is a NaN. -/
def isNaN (f : Fmt) (x : Nat) : Bool := unpackF f x == .nan

/-- Minimum (R32). -/
def minF (f : Fmt) (a b : Nat) : Nat :=
  if isNaN f a then (if isNaN f b then canon f else b) else if isNaN f b then a
  else if orderKey f a ≤ orderKey f b then a else b
/-- Maximum (R32). -/
def maxF (f : Fmt) (a b : Nat) : Nat :=
  if isNaN f a then (if isNaN f b then canon f else b) else if isNaN f b then a
  else if orderKey f a ≤ orderKey f b then b else a

/-- Absolute value: bit 31 cleared, or Canon for a NaN (R110). -/
def absF (f : Fmt) (a : Nat) : Nat := if isNaN f a then canon f else a % f.signW

/-- The IEEE order of two encodings: none when either is a NaN, else their comparison with −0 = +0 (R117). -/
def cmpF (f : Fmt) (a b : Nat) : Option Ordering :=
  if isNaN f a || isNaN f b then none
  else if a % f.signW == 0 && b % f.signW == 0 then some .eq
  else some (compare (orderKey f a) (orderKey f b))

/-- A conversion between formats (R30); NaN to an integer is 0 with IV. -/
def cvt (src dst : Fmt) (x : Nat) : Nat × Flags := rne dst (unpack src x)

/-- Q4Decode (R27): the even element, the odd element, and bad. -/
def q4decode (b : Nat) : Int × Int × Bool :=
  let lo := b % 16
  let hi := b / 16 % 16
  if lo == 8 then (16 * intOf 4 true hi, 0, false)
  else if hi == 8 then (intOf 4 true lo, 0, true)
  else (intOf 4 true lo, intOf 4 true hi, false)

/-- The q of BlockAlign (R37). -/
def alignQ : Fmt → Nat
  | .e4 | .e5 => 7
  | _ => 15

/-- The unbiased exponent of an encoding, 1 − bias for subnormals (R37). -/
def expOf (f : Fmt) (x : Nat) : Int :=
  let ef := x % f.signW / 2 ^ f.frac
  (if ef == 0 then 1 else (ef : Int)) - f.bias

/-- The significand of an encoding as an integer (R37). -/
def sigOf (f : Fmt) (x : Nat) : Nat :=
  let mag := x % f.signW
  if mag / 2 ^ f.frac == 0 then mag else 2 ^ f.frac + mag % 2 ^ f.frac

/-- Whether an encoding is finite. -/
def isFin (f : Fmt) (x : Nat) : Bool := match unpackF f x with | .fin .. => true | _ => false

/-- BlockAlign (R37): the shift h, the aligned integers, and the special flag. -/
def blockAlign (f : Fmt) (xs : List Nat) : Int × List Int × Bool :=
  let q := alignQ f
  let emax := xs.foldl (fun m x => if isFin f x && x % f.signW != 0 then max m (expOf f x) else m) (1 - (f.bias : Int))
  let one := fun x =>
    if isFin f x then
      let d := emax - expOf f x
      let n := (rneUnits (sigOf f x) ((q : Int) - 1 - f.frac - d) 0).1
      sgn (f.signW ≤ x % (2 * f.signW)) n
    else 0
  (emax - (q - 1), xs.map one, xs.any (fun x => !isFin f x))

/-- The sum of products of two lists. -/
def dotI : List Int → List Int → Int
  | a :: as, b :: bs => a * b + dotI as bs
  | _, _ => 0

/-- One K-group of one column (R38): the accumulator after it, with the flags. -/
def groupSum (acc : Nat) (hA : Int) (aA : List Int) (spA : Bool) (hB : Int) (aB : List Int) (spB : Bool) (c : Nat) :
    Nat × Flags :=
  if spA || spB then
    let (s, fl) := addF .f32 acc (canon .f32)
    (s, fl ||| fIV)
  else
    let d := dotI aA aB
    let x : Num := .fin (d < 0) d.natAbs (hA + hB)
    let (p, fp) := mulR x (unpackF .f32 c)
    let t := rneF .f32 p
    let r := addF .f32 acc t.1
    (r.1, fp ||| t.2 ||| r.2)

/-- One level of the pairwise tree (R35). -/
def treeLevel (op : Nat → Nat → Nat × Flags) : List Nat → List Nat × Flags
  | a :: b :: r =>
    let x := op a b
    let y := treeLevel op r
    (x.1 :: y.1, x.2 ||| y.2)
  | r => (r, 0)

/-- The pairwise tree of l levels (R35). -/
def tree (op : Nat → Nat → Nat × Flags) : Nat → List Nat → Nat × Flags
  | 0, xs => (xs.headD 0, 0)
  | l + 1, xs =>
    let y := treeLevel op xs
    let z := tree op l y.1
    (z.1, y.2 ||| z.2)

/-- One round of Philox-4x32 on (c0, c1, c2, c3) with key (k0, k1) (R39). -/
def philoxRound (c0 c1 c2 c3 k0 k1 : Nat) : Nat × Nat × Nat × Nat :=
  let p0 := 0xD2511F53 * c0
  let p1 := 0xCD9E8D57 * c2
  ((p1 / 2 ^ 32 % 2 ^ 32 ^^^ c1) ^^^ k0, p1 % 2 ^ 32, (p0 / 2 ^ 32 % 2 ^ 32 ^^^ c3) ^^^ k1, p0 % 2 ^ 32)

/-- n rounds of Philox, the key stepped between rounds (R39). -/
def philoxRounds : Nat → Nat → Nat → Nat → Nat → Nat → Nat → List Nat
  | 0, c0, c1, c2, c3, _, _ => [c0, c1, c2, c3]
  | n + 1, c0, c1, c2, c3, k0, k1 =>
    let (d0, d1, d2, d3) := philoxRound c0 c1 c2 c3 k0 k1
    philoxRounds n d0 d1 d2 d3 ((k0 + 0x9E3779B9) % 2 ^ 32) ((k1 + 0xBB67AE85) % 2 ^ 32)

/-- Philox-4x32-10 of a 128-bit counter and a 64-bit key: four words (R39). -/
def philox (counter key : Nat) : List Nat :=
  philoxRounds 10 (counter % 2 ^ 32) (counter / 2 ^ 32 % 2 ^ 32) (counter / 2 ^ 64 % 2 ^ 32) (counter / 2 ^ 96 % 2 ^ 32)
    (key % 2 ^ 32) (key / 2 ^ 32 % 2 ^ 32)

/-- The K-rows of a dense tile of a B format (R292). -/
def denseRows : Fmt → Nat
  | .s4 => 512
  | .s16 | .f16 | .b16 => 128
  | _ => 256
/-- The elements present of each 8 in a sparse tile (R297). -/
def presentOf (sp : BitVec 2) : Nat := if sp = 1 then 4 else 2
/-- K: the logical K-rows of a form of B (R292). -/
def logicalK (f : Fmt) (sp : BitVec 2) : Nat := denseRows f * (if sp = 0 then 1 else 8 / presentOf sp)
/-- The LM bytes of the metadata of a tile (R296). -/
def metaBytes (f : Fmt) (sp : BitVec 2) : Nat := if sp = 0 then 0 else logicalK f sp / 8 * 96

end Sys2Proof.Machine
end

