-- ==== Sys2Proof/Machine/FpSpecial.lean ====
section
/-!
DEFINITION. The special functions of F32: division, reciprocal, reciprocal square root, 2 to the a and log2 a, each the exact
result rounded once (R123).  Quotients and roots are rounded with a sticky bit; the two transcendental functions are enclosed
between two numbers of 256 fraction bits, and the rounding is taken when both ends round alike (log 14).
-/

namespace Sys2Proof.Machine

/-- A quotient of magnitudes with 64 extra bits and a sticky bit: exact whenever the remainder is zero. -/
def quot (s : Bool) (m : Nat) (e : Int) (n : Nat) (k : Int) : Num :=
  let q := m * 2 ^ 64 / n
  .fin s (2 * q + (if m * 2 ^ 64 % n == 0 then 0 else 1)) (e - k - 65)

/-- VDIV.F32 (R123). -/
def divF (a b : Nat) : Nat × Flags :=
  match unpackF .f32 a, unpackF .f32 b with
  | .nan, _ => (canon .f32, 0)
  | _, .nan => (canon .f32, 0)
  | .inf _, .inf _ => (canon .f32, fIV)
  | .inf s, .fin t _ _ => (bigBits .f32 (s != t), 0)
  | .fin s _ _, .inf t => (if s != t then 0x80000000 else 0, 0)
  | .fin s m e, .fin t n k =>
    if n == 0 then (if m == 0 then (canon .f32, fIV) else (bigBits .f32 (s != t), fDZ))
    else if m == 0 then (if s != t then 0x80000000 else 0, 0)
    else rneF .f32 (quot (s != t) m e n k)

/-- VRCP.F32 (R123). -/
def rcpF (a : Nat) : Nat × Flags := divF 0x3F800000 a

/-- One bit of an integer square root: the largest r with r × r ≤ n, from bit b down. -/
def sqrtBits : Nat → Nat → Nat → Nat
  | 0, _, r => r
  | b + 1, n, r => sqrtBits b n (if (r + 2 ^ b) * (r + 2 ^ b) ≤ n then r + 2 ^ b else r)

/-- VRSQRT.F32 (R123). -/
def rsqrtF (a : Nat) : Nat × Flags :=
  match unpackF .f32 a with
  | .nan => (canon .f32, 0)
  | .inf s => if s then (canon .f32, fIV) else (0, 0)
  | .fin s m e =>
    if m == 0 then (bigBits .f32 s, fDZ) else if s then (canon .f32, fIV)
    else
      let (m', h) := if e % 2 == 0 then (m, e / 2) else (2 * m, (e - 1) / 2)
      let r := sqrtBits 65 (2 ^ 128 / m') 0
      rneF .f32 (.fin false (2 * r + (if r * r * m' == 2 ^ 128 then 0 else 1)) (-h - 65))

/-- The integer part of the natural logarithm of 2 times 2 to the 256. -/
def ln2 : Nat := 80260960185991308862233904206310070533990667611589946606122867505419956976171

/-- Terms k .. k + n − 1 of the exponential series of x ÷ 2 to the 256, each rounded down, or up when up holds. -/
def expTerms (up : Bool) (x : Nat) : Nat → Nat → Nat → Nat
  | 0, _, _ => if up then 1 else 0
  | n + 1, k, t =>
    let t' := t * x / (2 ^ 256 * k) + (if up then 1 else 0)
    t' + expTerms up x n (k + 1) t'

/-- The exponential of x ÷ 2 to the 256, below (or above) the exact value, for x below 2 to the 256. -/
def expFix (up : Bool) (x : Nat) : Nat := 2 ^ 256 + expTerms up x 70 1 (2 ^ 256)

/-- The rounding of a value that lies strictly between two enclosing numbers: where they round apart, the free choice. -/
def between (a : Nat) (lo hi : Num) : Nat × Flags :=
  let x := rneF .f32 lo
  let y := rneF .f32 hi
  if x == y then x else if Config.roundsUp (BitVec.ofNat 32 a) then y else x

/-- VEXP2.F32 (R123). -/
def exp2F (a : Nat) : Nat × Flags :=
  match unpackF .f32 a with
  | .nan => (canon .f32, 0)
  | .inf s => if s then (0, 0) else (bigBits .f32 false, 0)
  | .fin s m e =>
    if m == 0 then (0x3F800000, 0)
    else if !s && 128 * 2 ^ 149 ≤ m * 2 ^ (e + 149).toNat then (bigBits .f32 false, fOF ||| fNX)
    else if s && 200 * 2 ^ 149 ≤ m * 2 ^ (e + 149).toNat then rneF .f32 (.fin false 1 (-300))
    else
      let num : Int := sgn s (m * 2 ^ (e + 149).toNat)
      let n := num / 2 ^ 149
      let f := (num % 2 ^ 149).toNat
      if f == 0 then rneF .f32 (.fin false 1 n)
      else
        let x := f * 2 ^ 107
        let lo := expFix false (x * ln2 / 2 ^ 256)
        let hi := expFix true (x * (ln2 + 1) / 2 ^ 256 + 1)
        between a (.fin false lo (n - 256)) (.fin false hi (n - 256))

/-- Terms of the series of the inverse hyperbolic tangent: z to the j over j for n odd j from j on, p being z to the j. -/
def atanhTerms (up : Bool) (z2 : Nat) : Nat → Nat → Nat → Nat
  | 0, _, _ => if up then 1 else 0
  | n + 1, j, p =>
    let r := if up then 1 else 0
    (p / j + r) + atanhTerms up z2 n (j + 2) (p * z2 / 2 ^ 256 + r)

/-- Twice the inverse hyperbolic tangent of z ÷ 2 to the 256. -/
def atanh2 (up : Bool) (z : Nat) : Nat :=
  2 * atanhTerms up (z * z / 2 ^ 256 + (if up then 1 else 0)) 90 1 z

/-- An integer in units of 2 to the −256 as an exact number. -/
def fixNum (i : Int) : Num := .fin (i < 0) i.natAbs (-256)

/-- VLOG2.F32 (R123). -/
def log2F (a : Nat) : Nat × Flags :=
  match unpackF .f32 a with
  | .nan => (canon .f32, 0)
  | .inf s => if s then (canon .f32, fIV) else (bigBits .f32 false, 0)
  | .fin s m e =>
    if m == 0 then (bigBits .f32 true, fDZ) else if s then (canon .f32, fIV)
    else
      let l := m.log2
      let ex : Int := e + l
      if m == 2 ^ l then rneF .f32 (.fin (ex < 0) ex.natAbs 0)
      else
        let z := (m - 2 ^ l) * 2 ^ 256 / (m + 2 ^ l)
        let lo : Int := ex * 2 ^ 256 + (atanh2 false z * 2 ^ 256 / (ln2 + 1) : Nat)
        let hi : Int := ex * 2 ^ 256 + (atanh2 true (z + 1) * 2 ^ 256 / ln2 + 1 : Nat)
        between a (fixNum lo) (fixNum hi)

end Sys2Proof.Machine
end

