-- ==== Sys2Proof/Machine/Ops.lean ====
section
/-!
DEFINITION. The named operations over cores, contexts and actors, the outcome of an instruction, taking a trap and the
return from it, sequential and taken transfers, and access to local memory (R69 to R74, R79 to R82, R102, R350 to R353).
-/

namespace Sys2Proof.Machine

/-- How an instruction can end other than by completing: it traps with a code, TINFO0, TINFO1 and a TPC other than its own
address; it waits, perhaps with a change that waiting makes; or it is refused. -/
inductive Stop where
  | trap (code : Nat) (i0 i1 : Word) (tpc : Option Word)
  | wait (s : Option State)
  | refuse (r : Refusal)
  deriving DecidableEq, Repr

/-- What a meaning is made of: a state, changed until something stops it. -/
abbrev M := StateT State (Except Stop)

/-- Stops with a trap (R350). -/
def trapM {α : Type} (code : Nat) (i0 i1 : Word) : M α := fun _ => .error (.trap code i0 i1 none)
/-- Stops with a wait: the instruction has no effect yet and is executed again (log 3). -/
def waitM {α : Type} : M α := fun _ => .error (.wait none)
/-- Stops with a wait that leaves state t. -/
def waitWith {α : Type} (t : State) : M α := fun _ => .error (.wait (some t))
/-- Waits unless b holds. -/
def waitUntil (b : Bool) : M Unit := if b then pure () else waitM
/-- Refuses an event unless b holds. -/
def need (b : Bool) : M Unit := if b then pure () else fun _ => .error (.refuse .notEnabled)
/-- The value of an option; an event is refused when there is none. -/
def needSome {α : Type} : Option α → M α
  | some a => pure a
  | none => fun _ => .error (.refuse .notEnabled)
/-- Traps unless b holds. -/
def orTrap (b : Bool) (code : Nat) (i0 i1 : Word) : M Unit := if b then pure () else trapM code i0 i1

/-! ## Cores, contexts and actors -/

/-- Core or eave core n (eave core e at 1024 + e). -/
def State.core (s : State) (n : Nat) : Core := tget .reset s.cores n
/-- The state with core n replaced. -/
def State.setCore (s : State) (n : Nat) (c : Core) : State := { s with cores := tset .reset s.cores n c }
/-- The state with core n changed. -/
def State.upCore (s : State) (n : Nat) (f : Core → Core) : State := s.setCore n (f (s.core n))
/-- Context n of a core. -/
def Core.ctx (c : Core) (n : Nat) : Ctx := tget .reset c.ctxs n
/-- The core with context n replaced. -/
def Core.setCtx (c : Core) (n : Nat) (x : Ctx) : Core := { c with ctxs := tset .reset c.ctxs n x }
/-- The actor at index n of a core, if one is resident. -/
def Core.actor (c : Core) (n : Nat) : Option Actor := tget none c.actors n
/-- The core with the actor at index n replaced. -/
def Core.setActor (c : Core) (n : Nat) (a : Option Actor) : Core := { c with actors := tset none c.actors n a }
/-- The core whose context acts. -/
def State.c (s : State) : Core := s.core s.cur
/-- The context that acts. -/
def State.x (s : State) : Ctx := s.c.ctx s.curCtx
/-- The state with the acting core changed. -/
def State.upC (s : State) (f : Core → Core) : State := s.upCore s.cur f
/-- The state with the acting context changed. -/
def State.upX (s : State) (f : Ctx → Ctx) : State := s.upC fun c => c.setCtx s.curCtx (f (c.ctx s.curCtx))
/-- The state with the memory side of the acting core changed. -/
def State.upM (s : State) (f : CoreMem → CoreMem) : State := s.upC fun c => { c with m := f c.m }

/-- Whether a core number is an eave core's (R8). -/
def isEave (n : Nat) : Bool := 1024 ≤ n
/-- The number that a core reports for itself (R7). -/
def coreNumber (n : Nat) : Nat := if isEave n then n - 1024 else n
/-- The slate of a core (R7). -/
def slateOf (n : Nat) : Nat := if isEave n then (n - 1024) / 68 else n / 256
/-- The cluster of a core (R7). -/
def clusterOf (n : Nat) : Nat := n / 16
/-- Cluster n. -/
def State.cluster (s : State) (n : Nat) : Cluster := tget .reset s.clusters n
/-- The state with cluster n changed. -/
def State.upCluster (s : State) (n : Nat) (f : Cluster → Cluster) : State :=
  { s with clusters := tset .reset s.clusters n (f (s.cluster n)) }
/-- Partition n. -/
def State.part (s : State) (n : Nat) : Partition := tget .free s.dist.parts n
/-- The state with partition n changed. -/
def State.upPart (s : State) (n : Nat) (f : Partition → Partition) : State :=
  { s with dist := { s.dist with parts := tset .free s.dist.parts n (f (s.part n)) } }
/-- The partition of a core; a core of none counts as partition 0 (R346, log 1). -/
def Core.partNo (c : Core) : Nat := c.part.getD 0

/-- The index of the actor for which a context acts: at level U its firing's actor, at level S the one ACTSEL names (R408). -/
def Ctx.actIdx (x : Ctx) : Nat :=
  if x.trap.pl then x.trap.actsel.toNat else match x.firing with
    | some f => f.actor
    | none => x.trap.actsel.toNat
/-- The index of the actor for which the acting context acts (R408). -/
def State.actIdx (s : State) : Nat := s.x.actIdx
/-- The actor for which the acting context acts (R408). -/
def State.act (s : State) : Option Actor := s.c.actor s.actIdx
/-- The state with that actor replaced. -/
def State.setAct (s : State) (a : Actor) : State := s.upC fun c => c.setActor s.actIdx (some a)
/-- The state with that actor, if there is one, changed. -/
def State.upAct (s : State) (f : Actor → Actor) : State :=
  match s.act with
  | some a => s.setAct (f a)
  | none => s
/-- The actor whose firing the context holds, for BASE and the call depth; else the one ACTSEL names (R73, R408). -/
def State.ownActor (s : State) : Option Actor :=
  match s.x.firing with
  | some f => s.c.actor f.actor
  | none => s.c.actor s.x.trap.actsel.toNat
/-- RSP.BASE of the context (R73). -/
def State.rspBase (s : State) : BitVec 16 := match s.ownActor with
  | some a => a.csr.rspBase
  | none => 0
/-- The call depth cd: return addresses in the hardware stack and in the spill area (R73); below 0 when a program puts TOP under BASE (R74). -/
def State.cd (s : State) : Int := s.x.rstack.length + (s.x.rspTop.toNat - s.rspBase.toNat)
/-- RSP as software reads it (R73). -/
def State.rsp (s : State) : Word := s.rspBase.setWidth 64 <<< 35 ||| s.x.rspTop.setWidth 64 <<< 3
/-- LC as software reads it (R72). -/
def Ctx.lc (x : Ctx) : Word :=
  BitVec.ofNat 64 (x.loops.length * 2 ^ 32 + match x.loops with
    | e :: _ => e.count.toNat
    | [] => 0)

/-- A number that nothing in flight has. -/
def freshId : M Nat := fun s => .ok (s.dist.next, { s with dist := { s.dist with next := s.dist.next + 1 } })

/-- The outcome of an event: the next state, or refused when it cannot happen. -/
def runEvent (s : State) (m : M Unit) : Host.Outcome State Fault Refusal :=
  match m s with
  | .ok (_, t) => .next t
  | .error _ => .refused .notEnabled

/-- The number of the next free value (log 4). -/
def drawM : M Nat := fun s => .ok (s.draws, { s with draws := s.draws + 1 })

/-- The core's event counter n with k more (R375). -/
def Core.count (c : Core) (n k : Nat) : Core := { c with counts := tset 0 c.counts n (tget 0 c.counts n + k) }

/-! ## Transfers -/

/-- The end check of R70 on the loop stack: the stack and the address of the next instruction. -/
def endCheck (cd : Int) (p q : Word) : List LoopEntry → List LoopEntry × Word
  | [] => ([], q)
  | e :: r =>
    if e.depth ≠ cd || !(e.start ≤ p && p < e.fin) || q < e.fin then (e :: r, q)
    else if e.count ≤ 1 then endCheck cd p q r
    else ({ e with count := e.count - 1 } :: r, e.start)

/-- The loop entries that a taken transfer to target leaves (R71). -/
def popOutside (cd : Int) (target : Word) (l : List LoopEntry) : List LoopEntry :=
  l.dropWhile fun e => e.depth == cd && !(e.start ≤ target && target < e.fin)

/-- The context after an instruction at its PC that went on in sequential flow to q, with p as R70 takes it; what its wait kept is gone. -/
def State.sequel (s : State) (p q : Word) : State :=
  let r := endCheck s.cd p q s.x.loops
  (s.upX fun x => { x with
    loops := r.1, pc := r.2, prevPc := x.pc, loadG := none, swapWait := false, swait := none, barvSent := none, waitw := none }).upC (·.count 1 1)
/-- The state after an instruction of len bytes that goes on in sequential flow (R70). -/
def State.retired (s : State) (len : Nat) : State := s.sequel s.x.pc (s.x.pc + BitVec.ofNat 64 len)
/-- The state after a taken branch, J or JR (R71). -/
def State.jumped (s : State) (target : Word) : State :=
  let l := popOutside s.cd target s.x.loops
  (s.upX fun x => { x with loops := l, pc := target, prevPc := x.pc, barvSent := none, waitw := none }).upC (·.count 1 1)
/-- The state after a CALL or CALLR, to which the transfer rule does not apply (R68). -/
def State.called (s : State) (target : Word) : State :=
  (s.upX fun x => { x with pc := target, prevPc := x.pc, barvSent := none, waitw := none }).upC (·.count 1 1)
/-- Completes an instruction of len bytes in sequential flow (R70). -/
def retire (len : Nat) : M Unit := modify fun s => s.retired len

/-! ## Ending a firing -/

/-- The mailbox after its oldest listed core has been signalled for free slot i, which is held for it for 512 cycles (R181). -/
def Mailbox.signal (now : Nat) (m : Mailbox) (i : Nat) : Mailbox :=
  match m.waiting with
  | w :: ws => { m with waiting := ws, holds := m.holds ++ [(i, w, now + 512)] }
  | [] => m

/-- The mailbox with slots i freed and, for each, the oldest listed core signalled (R181); under the restore fence none is (R187). -/
def Mailbox.freeSlots (now : Nat) (fence : Bool) (m : Mailbox) : List Nat → Mailbox
  | [] => m
  | i :: r =>
    let m' := { m with slots := tset .free m.slots i .free }
    Mailbox.freeSlots now fence (if fence then m' else m'.signal now i) r

/-- The mailbox after each of the slots of the list that are free and not held has been held for the oldest listed core that is left (R181, R187). -/
def Mailbox.signalAll (now : Nat) (m : Mailbox) : List Nat → Mailbox
  | [] => m
  | i :: r => Mailbox.signalAll now (if (tget .free m.slots i).st == .free && !m.holds.any fun h => h.1 == i then m.signal now i else m) r

/-- The mailbox when it may accept again what it refused without a full ring (R192): the listed cores are signalled for its free slots as for slots
that have just freed (DEDUCED, log 71). -/
def Mailbox.opened (now : Nat) (fence : Bool) (m : Mailbox) : Mailbox :=
  if fence then m else m.signalAll now (List.range (m.cfg.toNat / 2 ^ 17 % 2 ^ 8 + 1))

/-- The actor after the firing f of it has ended: the slots it consumed are released, and a join re-arms (R76, R173, R192). -/
def Actor.firingEnded (now : Nat) (a : Actor) (f : Firing) : Actor :=
  let mb := tget .disabled a.mbs f.mb
  let mb1 := mb.freeSlots now a.fence f.slots
  let mb2 := if f.join then match mb1.join with
      | some j => { mb1 with join := some { j with ranks := [], landed := 0, combined := 0, maxLen := 0, weight := 0, flags := 0, first := 0,
                                                    last := 0, tiles := 0, seqNo := 0, sig := none, running := false } }.opened now a.fence
      | none => mb1
    else mb1
  { a with mbs := tset .disabled a.mbs f.mb mb2 }

/-- The context when its firing has ended: registers, stacks and results in flight are discarded, loads cancelled (R76).  END at level S, or in a
context that holds no firing, leaves level U with TACT clear: R76 gives END no level, and R345 lets only traps and TRET change it (DESIGN CHOICE,
log 68). -/
def Ctx.emptied (x : Ctx) : Ctx :=
  { Ctx.reset with trap := { x.trap with pl := false, tact := false } }

/-- The memory side of a core after context k has ended what it ran: its watch entries are free (R233), its loads cancelled, and the
results of its atomics go nowhere (R76). -/
def CoreMem.ended (m : CoreMem) (k : Nat) : CoreMem :=
  { m with
    watch := m.watch.filter (fun w => w.2.ctx ≠ k)
    far := m.far.filterMap fun r => if r.ctx ≠ k then some r else match r.kind with
      | .load _ => none
      | .atomic fn w false _ o cm sc => some { r with kind := .atomic fn w false none o cm sc }
      | _ => some r }

/-- The state after the acting context ends its firing, or what it runs without one (R76, R233); dirty facts such as stores in flight go on. -/
def State.endFiring (s : State) : State :=
  let t := (s.upX Ctx.emptied).upM (·.ended s.curCtx)
  match s.x.firing with
  | none => t
  | some f => t.upC fun c =>
      let c1 := match c.actor f.actor with
        | some a => c.setActor f.actor (some (a.firingEnded s.time f))
        | none => c
      { c1 with arr := if (c.actor f.actor).any (·.csr.asgArr) then { c1.arr with quadWant := none } else c1.arr }

/-! ## Registers -/

/-- g[n] (R50): g0 reads zero. -/
def Regs.gv (r : Regs) (n : Nat) : Word := if n = 0 then 0 else tget 0 r.g n
/-- The seal of g[n]; g0 has seal 0x00 (R50). -/
def Regs.gsl (r : Regs) (n : Nat) : Byte := if n = 0 then 0 else tget 0 r.gs n
/-- v[n]. -/
def Regs.vv (r : Regs) (n : Nat) : Vec := tget 0 r.v n
/-- The seals of v[n]. -/
def Regs.vsl (r : Regs) (n : Nat) : VSeals := tget 0 r.vs n
/-- k[n]; k0 reads all ones (R125). -/
def Regs.kv (r : Regs) (n : Nat) : Mask := if n = 0 then BitVec.allOnes 32 else tget 0 r.k n
/-- The registers with g[n] and its seal written; a write to g0 is discarded (R50). -/
def Regs.setG (r : Regs) (n : Nat) (w : Word) (sl : Byte) : Regs :=
  if n = 0 then r else { r with g := tset 0 r.g n w, gs := tset 0 r.gs n sl }
/-- The registers with v[n] and its seals written. -/
def Regs.setV (r : Regs) (n : Nat) (w : Vec) (sl : VSeals) : Regs := { r with v := tset 0 r.v n w, vs := tset 0 r.vs n sl }
/-- The registers with k[n] written. -/
def Regs.setK (r : Regs) (n : Nat) (w : Mask) : Regs := if n = 0 then r else { r with k := tset 0 r.k n w }
/-- A register of any class with its seals, widened. -/
def Regs.get (r : Regs) : RegId → Vec × VSeals
  | .g n => ((r.gv n).setWidth 1024, (r.gsl n).setWidth 128)
  | .v n => (r.vv n, r.vsl n)
  | .k n => ((r.kv n).setWidth 1024, 0)
/-- The registers with a register of any class written. -/
def Regs.put (r : Regs) (i : RegId) (w : Vec) (sl : VSeals) : Regs :=
  match i with
  | .g n => r.setG n (w.setWidth 64) (sl.setWidth 8)
  | .v n => r.setV n w sl
  | .k n => r.setK n (w.setWidth 32)

/-- Whether a register discards writes: g0 and k0 (R50). -/
def RegId.fixed : RegId → Bool
  | .g n => n == 0
  | .k n => n == 0
  | .v _ => false

/-- Pending results once variable-latency result id has come with value v: the one that awaits it replaced that value (R56). -/
def replaced (id : Nat) (v : Vec × VSeals) (l : List Pend) : List Pend :=
  l.map fun p => if p.awaits == some id then { p with old := v.1, seals := v.2, awaits := none } else p

/-- The context with variable-latency result id written, if it is still wanted (R55, R76); where a younger result of the register has
issued, it is what that one replaced, and once that one is visible it is seen no more (R56). -/
def Ctx.deliver (x : Ctx) (id : Nat) (v : Vec × VSeals) : Ctx :=
  match x.varp.find? (·.id == id) with
  | some e =>
    let y := { x with varp := x.varp.filter (·.id != id) }
    if e.shadowed then { y with pend := replaced id v x.pend } else { y with regs := x.regs.put e.reg v.1 v.2 }
  | none => x

/-- A variable-latency vector result whose value is known: a trap waits until it is written (R105). -/
def VarRes.vector (e : VarRes) : Option (Vec × VSeals) := match e.reg with
  | .v _ => e.res
  | _ => none
/-- The context with such results written. -/
def Ctx.vecDone (x : Ctx) : Ctx :=
  x.varp.foldl (fun y e => match e.vector with
    | some r => y.deliver e.id r
    | none => y) x

/-! ## Traps -/

/-- The firing with its budget clock stopped at time t (R345, log 16). -/
def Firing.pause (t : Nat) (f : Firing) : Firing :=
  match f.awaySince with
  | none => { f with awaySince := some t }
  | some _ => f
/-- The firing with its budget clock running again at time t. -/
def Firing.resume (t : Nat) (f : Firing) : Firing :=
  match f.awaySince with
  | some u => { f with awaySince := none, away := f.away + (t - u) }
  | none => f

/-- What the context keeps, while it handles a trap, of a BARVW or WAITW that it was waiting in (R229, R232, R365). -/
def Ctx.held (x : Ctx) : Option Held :=
  if x.barvSent.isSome || x.waitw.isSome then some ⟨x.pc, x.barvSent, x.waitw⟩ else none
/-- The context with what it kept of a wait, if it goes on at the instruction that waits. -/
def Ctx.rejoined (x : Ctx) (pc : Word) : Ctx :=
  match x.heldWait with
  | some h => if h.pc = pc then { x with barvSent := h.barv, waitw := h.waitw, heldWait := none } else { x with barvSent := none, waitw := none, heldWait := none }
  | none => { x with barvSent := none, waitw := none }

/-- Taking a trap in the acting context: vector results on their way are written (R105), then TCODE, TPC and the information are saved,
the level becomes S and the PC the entry (R350); while one is being handled, the context stops and the core reports a failure (R353). -/
def takeTrap (s : State) (code : Nat) (i0 i1 tpc : Word) : State :=
  if s.x.trap.tact then
    let s1 := (s.upX fun x => { x.vecDone with dead := true }).upC fun c => { c with failed := true }
    { s1 with power := { s1.power with failures := s1.power.failures ++ [s.cur] } }
  else
    let entry := s.c.tvec.setWidth 64 <<< 1
    s.upX fun x => { x.vecDone with
      pc := entry
      loadG := none
      swapWait := false
      swait := none
      firing := x.firing.map (·.pause s.time)
      barvSent := none
      waitw := none
      heldWait := x.held
      trap := { x.trap with
        pl := true, ppl := x.trap.pl, tact := true
        tcode := (if x.trap.pl then 256 else 0) + BitVec.ofNat 9 code, tpc := tpc, tinfo0 := i0, tinfo1 := i1
        actsel := match x.firing with
          | some f => BitVec.ofNat 4 f.actor
          | none => x.trap.actsel } }

/-- The state after the return from a trap that resumes (R352): the level is PPL, TACT is clear, the PC is TPC, an odd one too: R47 gives ALIGN
to jumps, calls and returns, and R352 none to TRET (DESIGN CHOICE, log 68). -/
def State.resumed (s : State) : State :=
  s.upX fun x => { x.rejoined x.trap.tpc with
    pc := x.trap.tpc
    firing := if x.trap.ppl then x.firing else x.firing.map (·.resume s.time)
    trap := { x.trap with pl := x.trap.ppl, tact := false } }

/-- The state with the acting context waiting. -/
def State.park (s : State) : State := { s with stalled := (s.cur, s.curCtx) :: s.stalled }

/-- The outcome of an instruction of the acting context: completed, trapped (R58: nothing of it took effect), waiting, or
refused. -/
def finish (s : State) (m : M Unit) : Host.Outcome State Fault Refusal :=
  match m s with
  | .ok (_, t) => .next t
  | .error (.trap c i0 i1 tpc) => .next (takeTrap s c i0 i1 (tpc.getD s.x.pc))
  | .error (.wait t) => .next (t.getD s).park
  | .error (.refuse r) => .refused r

/-! ## Local memory -/

/-- XB: the first address that is not code (R81). -/
def Core.xbAddr (c : Core) : Nat := c.m.xb.toNat * 8192
/-- Whether n bytes at a lie in data LM or in the converted ways present (R79). -/
def Core.inLm (c : Core) (a n : Nat) : Bool :=
  (c.xbAddr ≤ a && a + n ≤ 0x80000) || (0x80000 ≤ a && a + n ≤ 0x80000 + 8192 * c.m.ways)
/-- Whether n bytes at a lie in the window of an actor (R80). -/
def Actor.inWindow (w : Actor) (a n : Nat) : Bool := w.csr.lo.toNat * 8192 ≤ a && a + n ≤ w.csr.hi.toNat * 8192
/-- Whether n bytes at a are data that the acting context may access: at level S the window does not count (R345). -/
def State.lmInside (s : State) (a n : Nat) : Bool :=
  s.c.inLm a n && (s.x.trap.pl || match s.act with
    | some w => w.inWindow a n
    | none => false)

/-- What an access is, for the record of R102: lane, kind, global, element, log2 of the size or 7. -/
structure Acc where
  kind : Nat
  size : Nat
  lane : Nat := 0
  glob : Bool := false
  elem : Bool := false
  deriving DecidableEq, Repr

/-- TINFO1 of ALIGN, XREAD, LMBOUND, TRANSLATE and PERMIT (R102). -/
def Acc.info (i : Acc) : Word :=
  BitVec.ofNat 64 (i.lane * 256 + i.kind * 64 + (if i.glob then 32 else 0) + (if i.elem then 16 else 0) + i.size)

/-- The SIZE field for an access of n bytes (R102). -/
def sizeCode (n : Nat) : Nat :=
  if n = 1 then 0 else if n = 2 then 1 else if n = 4 then 2 else if n = 8 then 3 else 7

/-- Whether an operation is bound to a bank: MMA, MMAS, MOUTL, and an output with SC (R295, R304). -/
def ArrOp.binds (o : ArrOp) (b : Bool) : Bool := (o.fn == 3 || o.fn == 4 || o.sc) && o.bank == b
/-- Whether an operation loads a bank. -/
def ArrOp.loads (o : ArrOp) (b : Bool) : Bool := o.fn == 0 && o.bank == b
/-- Whether an operation names a tile. -/
def ArrOp.onTile (o : ArrOp) (z : Bool) : Bool := o.fn != 0 && o.tile == z

/-- Whether operation p waits for the earlier operation o (R295). -/
def ArrOp.before (o p : ArrOp) : Bool :=
  (p.fn != 0 && o.onTile p.tile) || (p.fn == 0 && (o.binds p.bank || o.loads p.bank))

/-- Whether an MSTZ of context k has LM still to write: its writes are LM stores of the context in program order (R295). -/
def Core.storesLm (c : Core) (k : Nat) : Bool := c.arr.ops.any fun o => o.fn == 6 && match o.owner with
  | some p => p.1 == k
  | none => false

/-- The granules that the core cache holds dirty. -/
def Core.dirtyGrans (c : Core) : List Nat := (c.m.cache.filter fun e => e.2.dirty).map (·.1)

/-- The faults of an LM access in order: ALIGN, XREAD, LMBOUND (R89, R101); it waits for the writes of earlier MSTZs of its own context, after
which it comes in program order (R87, R240, R295, log 46). -/
def lmFaults (a : Word) (n align : Nat) (i : Acc) : M Unit := fun s =>
  if a.toNat % align ≠ 0 then trapM 0x03 a i.info s
  else if a.toNat < s.c.xbAddr then trapM 0x06 a i.info s
  else if !s.lmInside a.toNat n then trapM 0x04 a i.info s
  else if s.c.storesLm s.curCtx then waitM s
  else .ok ((), s)

/-- A field of a configuration word. -/
def Mailbox.f (m : Mailbox) (lo w : Nat) : Nat := m.cfg.toNat / 2 ^ lo % 2 ^ w
/-- The slots of a mailbox (R171). -/
def Mailbox.k (m : Mailbox) : Nat := m.f 17 8 + 1
/-- The bytes of a slot's payload (R171). -/
def Mailbox.z (m : Mailbox) : Nat := 16 * 4 ^ m.f 14 3
/-- The LM address of a slot's payload (R172). -/
def Mailbox.payAt (m : Mailbox) (i : Nat) : Nat := m.base + 128 * ((16 * m.k + 127) / 128) + m.z * i
/-- Whether n bytes at a lie in the payload of a message of the core that is still landing (R82, R196). -/
def Core.landingAt (c : Core) (a n : Nat) : Bool :=
  c.actors.any fun e => match e.2 with
    | some w => w.mbs.any fun m => m.2.slots.any fun x =>
        x.2.st == .landing && decide (m.2.payAt x.1 < a + n) && decide (a < m.2.payAt x.1 + 8 * x.2.held.length)
    | none => false
/-- Whether n bytes at a of the acting core's LM lie in a payload, or in the image of a copy, that is still landing (R82, R330). -/
def State.landingAt (s : State) (a n : Nat) : Bool :=
  s.c.landingAt a n || s.dist.copies.any fun c => match c.land with
    | some (m, b, k) => m == s.cur && decide (b < a + n) && decide (a < b + k)
    | none => false
/-- A load waits until the payload that its range lies in has landed (R82). -/
def landedFirst (a n : Nat) : M Unit := fun s => if s.landingAt a n then waitM s else .ok ((), s)

/-- Granule gr of the acting core's LM with its seal. -/
def State.lmGran (s : State) (gr : Nat) : Word × Byte := (s.c.m.lm.gran gr, s.c.m.lm.sealOf gr)
/-- The state with granule gr of the acting core's LM written. -/
def State.setLm (s : State) (gr : Nat) (w : Word) (sl : Byte) : State :=
  s.upM fun m => { m with lm := m.lm.setGran gr w sl }
/-- The state with granules written from gr. -/
def State.setLms (s : State) (gr : Nat) (l : List (Word × Byte)) : State :=
  s.upM fun m => { m with lm := m.lm.setGrans gr l }

/-! ## Seal checks -/

/-- SEALCTL.MODE of the acting actor; with none, 0 (R283, R408). -/
def State.sealMode (s : State) : Nat := match s.act with
  | some a => (a.csr.sealctl &&& 3).toNat
  | none => 0

/-- The actor CSRs with a failed check recorded (R284). -/
def ActorCsrs.record (k : ActorCsrs) (y : Byte) (src pr : Nat) (pc : Word) : ActorCsrs :=
  let cnt := k.sealctl >>> 8
  let k1 := { k with sealctl := (if cnt = 0xFF then cnt else cnt + 1) <<< 8 ||| (k.sealctl &&& 0xFF) }
  if k.seallog.getLsbD 40 then k1
  else { k1 with seallog := BitVec.ofNat 64 (y.toNat * 2 ^ 56 + src * 2 ^ 48 + pr * 2 ^ 44 + 2 ^ 40 + pc.toNat % 2 ^ 19) }

/-- Check of one granule in the issuing context: a syndrome traps SEAL or POISON, or is recorded as SEALCTL.MODE says
(R45, R284, R285).  src is TINFO0, pr the pair, a the address for an LM granule. -/
def check (w : Word) (sl : Byte) (src : Nat) (pr : Nat := 0) (a : Nat := 0) : M Unit := fun s =>
  let y := syn w sl
  if y = 0 then .ok ((), s)
  else if s.sealMode = 2 || (s.sealMode = 1 && y ≠ 0xA5) then
    .ok ((), s.upAct fun k => { k with csr := k.csr.record y src pr s.x.pc })
  else trapM (if y = 0xA5 then 0x0A else 0x09) (BitVec.ofNat 64 src)
    (BitVec.ofNat 64 (y.toNat + pr * 256 + a * 2 ^ 32)) s

/-- Check of LM granule gr in place (R285). -/
def checkLm (gr : Nat) : M Unit := fun s => check (s.lmGran gr).1 (s.lmGran gr).2 0xC0 0 (8 * gr) s

end Sys2Proof.Machine
end

