-- ==== Sys2Proof/Machine/Operands.lean ====
section
/-!
DEFINITION. Register operands: reading under the three SCB modes (R54 to R57), the seal checks of a read (R61), the writes of
fixed-latency and variable-latency results, and addresses of base plus offset (R88).
-/

namespace Sys2Proof.Machine

/-- The register number as TINFO0 of SCOREBOARD gives it: bit 5 set for a v register (R55), bit 6 for a k register (R104). -/
def RegId.code : RegId → Nat
  | .g n => n
  | .v n => n + 32
  | .k n => n + 64

/-- The mode that governs a context: interlock at level S and where no actor acts (R345, R346, R408). -/
def State.scbMode (s : State) : Nat :=
  if s.x.trap.pl then 1 else match s.act with
    | some a => a.csr.scb.toNat
    | none => 1

/-- The results still short of their distance after an instruction of the given cost (R54). -/
def agePend (cost : Nat) (l : List Pend) : List Pend :=
  l.filterMap fun p => if p.left ≤ cost then none else some { p with left := p.left - cost }

/-- The context as an instruction of the given cost sees it; the instructions of a trap handler count too (R63, R390, log 27). -/
def Ctx.aged (x : Ctx) (cost : Nat) : Ctx := { x with pend := agePend cost x.pend }

/-- The registers as trust mode reads them: a register short of its distance reads what it held before its oldest producer
that is not visible (R55, R56). -/
def oldValues (r : Regs) : List Pend → Regs
  | [] => r
  | p :: l => (oldValues r l).put p.reg p.old p.seals

/-- Issues an instruction of stall count l that reads registers rd: SCOREBOARD in check mode (R55), the wait for
variable-latency results (R55), and the register values that it reads.  Compact forms are always interlocked (R53).  Of several registers
short of their distance the trap names the first of rd, which lists a mask first, then A, B and D (DESIGN CHOICE, log 68). -/
def issue (l : Nat) (compact : Bool) (rd : List RegId) : M Regs := fun s =>
  let x := s.x.aged (1 + l)
  match (if s.scbMode = 2 && !compact then rd.find? (fun r => x.pend.any (·.reg == r)) else none) with
  | some r => trapM 0x0B (BitVec.ofNat 64 r.code) 0 s
  | none =>
    if rd.any (fun r => x.varp.any (·.reg == r)) then waitM s
    else .ok (if s.scbMode = 0 && !compact then oldValues x.regs x.pend else x.regs, s.upX fun y => y.aged (1 + l))

/-- The registers as an instruction of stall count l reads them in the mode of its context (R55). -/
def State.asRead (s : State) (l : Nat) (compact : Bool) : Regs :=
  if s.scbMode = 0 && !compact then oldValues s.x.regs (s.x.aged (1 + l)).pend else s.x.regs

/-- Issues an instruction governed by mask register k: which other registers it reads depends on the lanes that the mask holds, since
inactive lanes read nothing (R106). -/
def issueLanes (l : Nat) (compact : Bool) (k : Nat) (rd : (Nat → Bool) → List RegId) : M Regs := fun s =>
  issue l compact (.k k :: rd fun i => ((s.asRead l compact).kv k).getLsbD i) s

/-- Register names in the classes of R367. -/
def gR {n : Nat} (i : BitVec n) : RegId := .g i.toNat
/-- A v register. -/
def vR {n : Nat} (i : BitVec n) : RegId := .v i.toNat
/-- A k register. -/
def kR {n : Nat} (i : BitVec n) : RegId := .k i.toNat

/-! ## Reads with their checks -/

/-- Reads g[n] and checks its seal; g0 is not checked (R61). -/
def readG {n : Nat} (r : Regs) (i : BitVec n) : M Word := do
  if i.toNat = 0 then pure 0 else
    check (r.gv i.toNat) (r.gsl i.toNat) i.toNat
    pure (r.gv i.toNat)

/-- Checks the pairs of v[n] from j on. -/
def checkPairs (w : Vec) (sl : VSeals) (n : Nat) : List Nat → M Unit
  | [] => pure ()
  | j :: r => do
    check (pair w j) (pairSeal sl j) (n + 32) j
    checkPairs w sl n r

/-- Reads v[n] and checks the listed pairs in order (R107). -/
def readV {n : Nat} (r : Regs) (i : BitVec n) (ps : List Nat := List.range 16) : M Vec := do
  checkPairs (r.vv i.toNat) (r.vsl i.toNat) i.toNat ps
  pure (r.vv i.toNat)

/-! ## Writes -/

/-- The distance left of the results of one register: a younger result becomes visible no earlier than an older one (R56). -/
def longest (i : RegId) : List Pend → Nat → Nat
  | [], m => m
  | p :: l, m => longest i l (if p.reg == i then max m p.left else m)

/-- The results short of their distance once register i is to be written with n left, over value o: a result that becomes visible together with an
older one of the register adds nothing, since no distance shows what lies between, so there are no more records than R57 counts.  awaits
names the variable-latency result of the register that is still to come and then is the value replaced (R56). -/
def pendWith (x : Ctx) (i : RegId) (n : Nat) (o : Vec × VSeals) : List Pend :=
  if x.pend.any fun p => p.reg == i && n ≤ p.left then x.pend
  else x.pend ++ [⟨i, o.1, o.2, n, (x.varp.find? fun e => e.reg == i && !e.shadowed).map (·.id)⟩]

/-- The context with a fixed-latency result of latency lat written (R54 to R56): the register holds it at once, and the value
it replaces stays readable until the distance is reached.  A variable-latency result of the register that is still to come becomes that
value when it comes, while the distance is not reached (R56).  A handler writes as a firing does, so a firing that resumes within the distance
still reads what its own producer replaced (R57, log 27). -/
def Ctx.wrFixed (x : Ctx) (lat : Nat) (i : RegId) (w : Vec) (sl : VSeals) : Ctx :=
  if i.fixed then x else
    { x with
      regs := x.regs.put i w sl
      varp := x.varp.map fun e => if e.reg == i then { e with shadowed := true } else e
      pend := pendWith x i (longest i x.pend lat) (x.regs.get i) }

/-- The context with a variable-latency result written: its readers waited for it (R55). -/
def Ctx.wrVar (x : Ctx) (i : RegId) (w : Vec) (sl : VSeals) : Ctx :=
  if i.fixed then x else
    { x with regs := x.regs.put i w sl, varp := x.varp.filter (fun e => e.reg != i)
             pend := x.pend.filter (fun p => p.reg != i) }

/-- The context with a variable-latency result to come: result none while a reply is awaited (R55). -/
def Ctx.wrLate (x : Ctx) (id : Nat) (i : RegId) (res : Option (Vec × VSeals)) : Ctx :=
  if i.fixed then x else
    { x with varp := x.varp.filter (fun e => e.reg != i) ++ [⟨id, i, res, false⟩], pend := x.pend.filter (fun p => p.reg != i) }

/-- The context with fixed-latency results in v[d] and v[e], which become visible at the same distance (R104). -/
def Ctx.wrFixed2 (x : Ctx) (lat d e : Nat) (w1 : Vec × VSeals) (w2 : Vec × VSeals) : Ctx :=
  let n := longest (.v e) x.pend (longest (.v d) x.pend lat)
  (x.wrFixed n (.v d) w1.1 w1.2).wrFixed n (.v e) w2.1 w2.2

/-- Writes g[d] with latency lat and seal sl. -/
def writeGs {n : Nat} (lat : Nat) (d : BitVec n) (w : Word) (sl : Byte) : M Unit :=
  modify fun s => s.upX fun x => x.wrFixed lat (gR d) (w.setWidth 1024) (sl.setWidth 128)
/-- Writes g[d] with latency lat and a fresh seal (R61). -/
def writeG {n : Nat} (lat : Nat) (d : BitVec n) (w : Word) : M Unit := writeGs lat d w (sealFn w)
/-- Writes a variable-latency result to g[d] with seal sl. -/
def writeVarGs {n : Nat} (d : BitVec n) (w : Word) (sl : Byte) : M Unit :=
  modify fun s => s.upX fun x => x.wrVar (gR d) (w.setWidth 1024) (sl.setWidth 128)
/-- Writes a variable-latency result, such as a status, to g[d] with a fresh seal. -/
def writeVarG {n : Nat} (d : BitVec n) (w : Word) : M Unit := writeVarGs d w (sealFn w)
/-- Writes a result that comes some cycles after issue to register i (R55). -/
def writeLate (i : RegId) (w : Vec) (sl : VSeals) : M Unit := do
  let id ← freshId
  modify fun s => s.upX fun x => x.wrLate id i (some (w, sl))
/-- Writes v[d] with latency lat. -/
def writeV {n : Nat} (lat : Nat) (d : BitVec n) (w : Vec) (sl : VSeals) : M Unit :=
  modify fun s => s.upX fun x => x.wrFixed lat (vR d) w sl
/-- Writes a variable-latency result to v[d]. -/
def writeVarV {n : Nat} (d : BitVec n) (w : Vec) (sl : VSeals) : M Unit :=
  modify fun s => s.upX fun x => x.wrVar (vR d) w sl
/-- Writes k[d] with latency lat. -/
def writeK {n : Nat} (lat : Nat) (d : BitVec n) (w : Mask) : M Unit :=
  modify fun s => s.upX fun x => x.wrFixed lat (kR d) (w.setWidth 1024) 0

/-- Base plus offset times size, modulo 2^64 (R88). -/
def effAddr (base : Word) (o : BitVec 8) (n : Nat) : Word := base + o.signExtend 64 * BitVec.ofNat 64 n

end Sys2Proof.Machine
end

