-- ==== Sys2Proof/Machine/Flags.lean ====
section
/-!
DEFINITION. The flags of FPX (R33, R34): an operation ORs the flags it raises into the context's FPX.
-/

namespace Sys2Proof.Machine

/-- ORs flags into the context's FPX (R33). -/
def raise (f : BitVec 6) : M Unit := modify fun s => s.upX fun x => { x with fpx := x.fpx ||| f }

/-- The union of flags. -/
def orFlags : List (BitVec 6) → BitVec 6
  | [] => 0
  | f :: l => f ||| orFlags l

end Sys2Proof.Machine
end

