-- ==== Sys2Proof/Machine/Global.lean ====
section
/-!
DEFINITION. Global memory: the five-level walk and the cached translations (R354 to R357), home memory with its frame state
(R356, R361, R362), the two caches (R83, R84), signatures (R213, R214), and the fault messages of hardware (R94, R174, R286).
-/

namespace Sys2Proof.Machine

/-! ## Translation -/

/-- The device that a physical address names (R85). -/
def devOf (pa : Nat) : Nat := pa / 2 ^ 44 % 256
/-- Whether a physical address lies on another device (R85). -/
def State.remote (s : State) (pa : Nat) : Bool := devOf pa != s.devNum.toNat
/-- The state byte of the frame that holds pa (R356). -/
def State.frame (s : State) (pa : Nat) : Byte := tget 0 s.home.frames (pa / 8192)
/-- The owner of the frame that holds pa; none while it is not assigned (R356). -/
def State.owner (s : State) (pa : Nat) : Option Nat :=
  if (s.frame pa).getLsbD 5 then some ((s.frame pa).toNat % 16) else none

/-- Whether a route to a device remains: one of the links that the record's routes to it may take is ready (R397, R399). -/
def State.linkUp (s : State) (dev : Nat) : Bool := match s.power.record with
  | some r => (tget [] r.routes dev).any fun l => s.power.ready.contains (.link l)
  | none => false
/-- Whether another partition's frame, on another device, refuses the access there (R356, log 17). -/
def State.denied (s : State) (part pa : Nat) : Bool := s.remote pa && s.owner pa != some part

/-- A translation: the physical address, the leaf entry, the level of the leaf, and the owner of its frame (R355, R356). -/
structure Xlat where
  pa : Nat
  leaf : Word
  lvl : Nat
  owner : Option Nat
  deriving DecidableEq, Repr

/-- The page size in address bits of a leaf level (R354). -/
def pageBits : Nat → Nat
  | 0 => 13
  | 1 => 21
  | _ => 30
/-- Whether a leaf is writable (R355). -/
def Xlat.wr (x : Xlat) : Bool := x.leaf.getLsbD 60
/-- Whether a leaf selects the home-direct aperture (R355). -/
def Xlat.hd (x : Xlat) : Bool := x.leaf.getLsbD 61
/-- The key slot of a leaf (R355). -/
def Xlat.kslot (x : Xlat) : Nat := x.leaf.toNat / 128 % 4

/-- Whether the key slot last used for a frame has been discarded (R361, log 13). -/
def State.keyDead (s : State) (gr : Nat) : Bool :=
  match tget 0 s.home.slots (gr / 1024) with
  | 0 => false
  | n + 1 => (s.part (n / 4)).dead.getLsbD (n % 4)

/-- A granule with a poison mark (R45). -/
def poisoned (w : Word) : Word × Byte := (w, sealFn w ^^^ 0xA5)

/-- The storage slot that holds an address: 0 HBM, 1 to 4 the capacity tier (R339). -/
def State.slotOfFrame (s : State) (f : Nat) : Nat := match tget 0 s.home.remap f with
  | 0 => f / 2 ^ 26
  | n + 1 => n
/-- The HBM channel of the congruence group that holds a frame of the device (R11). -/
def channelOf (f : Nat) : Nat := (f % 2 ^ 26 % 256) ^^^ (f % 2 ^ 26 / 256 % 256) ^^^ (f % 2 ^ 26 / 65536 % 256)
/-- The eave core number of the home of a physical address (R11, R339). -/
def State.homeEave (s : State) (pa : Nat) : Nat :=
  let f := pa % 2 ^ 44 / 8192
  let c := channelOf f
  match s.slotOfFrame f with
  | 0 => 68 * (c / 64) + c % 64
  | k + 1 => 68 * (c / 64) + 64 + k
/-- Whether the home of granule gr takes part: on this device its eave core is ready (R12), to another one a route remains (R399). -/
def State.served (s : State) (gr : Nat) : Bool :=
  if s.remote (8 * gr) then s.linkUp (devOf (8 * gr)) else s.power.ready.contains (.eave (s.homeEave (8 * gr)))

/-- Whether an access to granule gr completes as a memory error: its key slot is gone (R361), or its home takes no part (R12, R399, log 69). -/
def State.lostAt (s : State) (gr : Nat) : Bool := s.keyDead gr || !s.served gr

/-- Granule gr as the home reads it: zero in a cleared frame (R362), poison-marked on a memory error (R361, R399, log 4). -/
def State.homeGran (s : State) (gr : Nat) : Word × Byte :=
  if s.lostAt gr then poisoned (Config.freeWord (gr + 2 ^ 50 * s.draws))
  else if (s.frame (8 * gr)).getLsbD 4 then (0, 0)
  else (s.home.mem.gran gr, s.home.mem.sealOf gr)

/-- Granule gr as its home answers a partition's request (R356). -/
def State.answer (s : State) (part gr : Nat) : Word × Byte :=
  if s.denied part (8 * gr) then poisoned (Config.freeWord (gr + 2 ^ 50 * s.draws)) else s.homeGran gr

/-- The levels of the walk: level, lowest index bit, index width, log2 of the next table's alignment (R354). -/
def walkLevels : List (Nat × Nat × Nat × Nat) := [(4, 53, 3, 15), (3, 41, 12, 14), (2, 30, 11, 12), (1, 21, 9, 11), (0, 13, 8, 0)]

/-- Whether page swap holds the line of granule gr (R10, R340). -/
def State.swapping (s : State) (gr : Nat) : Bool :=
  !s.remote (8 * gr) && s.home.swaps.any fun w =>
    (gr / 1024 % 2 ^ 31 == w.far || gr / 1024 % 2 ^ 31 == w.near) && gr / 32 % 32 < w.next
/-- Whether the line of granule gr is locked at home by a copy or a swap (R86, R328). -/
def State.locked (s : State) (gr : Nat) : Bool := tget 0 s.home.locks (gr / 32) != 0 || s.swapping gr

/-- The walk of R355 from a table: the translation, or why there is none: 1 no mapping, 2 malformed (R359), 3 none yet, as the line of an entry
is locked (R249). -/
def State.walkFrom (s : State) (part va : Nat) : List (Nat × Nat × Nat × Nat) → Nat → Except Nat Xlat
  | [], _ => .error 2
  | (lvl, lo, w, al) :: r, table =>
    let ea := table + 8 * (va / 2 ^ lo % 2 ^ w)
    if s.remote ea || s.owner ea != some part then .error 2 else
    if s.locked (ea / 8) then .error 3 else
    let e := (s.homeGran (ea / 8)).1
    let n := e.toNat
    if !e.getLsbD 63 then .error 1
    else if n / 2 ^ 52 % 256 ≠ 0 then .error 2
    else if e.getLsbD 62 then
      let base := n / 2 ^ 13 % 2 ^ 39 * 2 ^ 13
      if 2 < lvl || n / 2 ^ 9 % 16 ≠ 0 || n % 128 ≠ 0 || base % 2 ^ lo ≠ 0 then .error 2
      else
        let pa := base + va % 2 ^ lo
        .ok ⟨pa, e, lvl, if s.remote pa then some part else s.owner pa⟩
    else
      let next := n / 64 % 2 ^ 46 * 64
      if lvl = 0 || e.getLsbD 61 || e.getLsbD 60 || n % 64 ≠ 0 || next % 2 ^ al ≠ 0 then .error 2
      else State.walkFrom s part va r next

/-- The walk from the partition's top table (R354). -/
def State.walk (s : State) (part va : Nat) : Except Nat Xlat :=
  s.walkFrom part va walkLevels ((s.part part).ptb.toNat / 64 % 2 ^ 46 * 64)

/-- Whether a cached translation serves va for a partition. -/
def Tlb.serves (t : Tlb) (part va : Nat) : Bool := t.part == part && t.vpage == va / 2 ^ t.bits

/-- The translation that a cached entry gives. -/
def Tlb.xlat (t : Tlb) (va : Nat) : Xlat :=
  ⟨t.leaf.toNat / 2 ^ 13 % 2 ^ 39 * 2 ^ 13 + va % 2 ^ t.bits, t.leaf,
    if t.bits = 13 then 0 else if t.bits = 21 then 1 else 2, t.owner⟩

/-- A list of at most n entries with one more; when it is full, one that Config names goes (R357, log 26). -/
def fillTlb (n draw : Nat) (t : Tlb) (l : List Tlb) : List Tlb :=
  if l.length < n then t :: l else t :: l.eraseIdx (Config.victim draw % n)

/-- The state that remembers the key slot of a translation (log 13). -/
def State.noteSlot (s : State) (part : Nat) (x : Xlat) : State :=
  { s with home := { s.home with slots := tset 0 s.home.slots (x.pa / 8192) (1 + 4 * part + x.kslot) } }

/-- The translation of va for a partition through the translation cache of the cluster of core n and the walkers, as a cached entry, with the cache that
it fills (R357). -/
def State.walkers (s : State) (n part va : Nat) : Except Nat Tlb × State :=
  match (if isEave n then none else (s.cluster (clusterOf n)).tcache.find? (·.serves part va)) with
  | some t => (.ok t, s)
  | none => match s.walk part va with
    | .error e => (.error e, s)
    | .ok x =>
      let t : Tlb := ⟨part, va / 2 ^ pageBits x.lvl, pageBits x.lvl, x.leaf, x.owner⟩
      (.ok t, if isEave n then s else
        { s.upCluster (clusterOf n) fun k => { k with tcache := fillTlb 4096 s.draws t k.tcache } with draws := s.draws + 1 })

/-- The translation of va for a partition through the TLB of core n, the translation cache of its cluster and the walkers,
with the entries that it fills (R357). -/
def State.translate (s : State) (n part va : Nat) : Except Nat Xlat × State :=
  match (s.core n).m.tlb.find? (·.serves part va) with
  | some t => (.ok (t.xlat va), s.noteSlot part (t.xlat va))
  | none =>
    match (s.upCore n (·.count 7 1)).walkers n part va with
    | (.error e, u) => (.error e, u)
    | (.ok t, u) =>
      let v := { u.upCore n fun c => { c with m := { c.m with tlb := fillTlb 32 u.draws t c.m.tlb } } with draws := u.draws + 1 }
      (.ok (t.xlat va), v.noteSlot part (t.xlat va))

/-- Translates an access of the acting context: TRANSLATE, then PERMIT (R93, R101, R356); a walk waits for a locked line (R249). -/
def xlate (va : Word) (write : Bool) (i : Acc) : M Xlat := fun s =>
  if va.toNat / 2 ^ 56 ≠ 0 then trapM 0x07 va i.info s
  else match s.translate s.cur s.c.partNo va.toNat with
    | (.error 3, _) => waitM s
    | (.error _, _) => trapM 0x07 va i.info s
    | (.ok x, t) =>
      if x.owner ≠ some s.c.partNo || (write && !x.wr) then trapM 0x08 va i.info s else .ok (x, t)

/-! ## Home memory -/

/-- Marks the watch entries on granule gr as triggered (R230 to R232). -/
def triggerWatch (gr : Nat) (cs : Tab Core) : Tab Core :=
  cs.map fun (n, c) =>
    if c.m.watch.any (·.2.gr == gr) then
      (n, { c with m := { c.m with watch := c.m.watch.map fun (i, w) => (i, if w.gr == gr then { w with hit := true } else w) } })
    else (n, c)

/-- The state with granule gr written at home: a cleared frame is first written as zeros (R362), watchers are triggered, and a
write that completes as a memory error changes nothing (R361, R399). -/
def State.homePut (s : State) (gr : Nat) (w : Word) (sl : Byte) : State :=
  if s.lostAt gr then s else
    let f := gr / 1024
    let h := if (s.frame (8 * gr)).getLsbD 4 then
        { s.home with mem := s.home.mem.zero (1024 * f) 1024, frames := tset 0 s.home.frames f (s.frame (8 * gr) &&& 0xEF) }
      else s.home
    { s with home := { h with mem := h.mem.setGran gr w sl }, cores := triggerWatch gr s.cores }

/-- The state with granules written at home from gr. -/
def State.homePuts (s : State) (gr : Nat) : List (Word × Byte) → State
  | [] => s
  | (w, sl) :: r => State.homePuts (s.homePut gr w sl) (gr + 1) r

/-- n granules as the home reads them, from gr. -/
def State.homeGrans (s : State) (gr n : Nat) : List (Word × Byte) := (List.range n).map fun i => s.homeGran (gr + i)

/-- The watch entries of lines that the home cache evicts are lost (R231, R232). -/
def loseWatch (lines : List Nat) (cs : Tab Core) : Tab Core :=
  if lines.isEmpty then cs else
    cs.map fun (n, c) => (n, { c with m := { c.m with watch := c.m.watch.map fun (i, w) =>
      (i, if lines.contains (w.gr / 32) then { w with lost := true } else w) } })

/-- The state after home caches have evicted lines of 256 bytes that they hold (R231, log 7). -/
def State.evictHome (s : State) (lines : List Nat) : State :=
  let out := lines.filter s.home.cached.contains
  { s with cores := loseWatch out s.cores, home := { s.home with cached := s.home.cached.filter fun l => !out.contains l } }

/-- The lines that the home cache of an eave core holds. -/
def State.heldBy (s : State) (eave : Nat) : List Nat := s.home.cached.filter fun l => !s.remote (256 * l) && s.homeEave (256 * l) == eave

/-- The state with the line of granule gr in its home cache, of 4,096 lines (R8); a full one evicts a line that Config names (log 7). -/
def State.bring (s : State) (gr : Nat) : State :=
  if s.home.cached.contains (gr / 32) then s else
    let held := s.heldBy (s.homeEave (8 * gr))
    let t := if s.remote (8 * gr) || held.length < 4096 then s
      else { s.evictHome [held.getD (Config.victim s.draws % held.length) 0] with draws := s.draws + 1 }
    { t with home := { t.home with cached := gr / 32 :: t.home.cached } }

/-- The state with one access more counted for the frame of a granule (R340), whose line is then in the home cache. -/
def State.visit (s : State) (gr : Nat) : State :=
  let t := s.bring gr
  { t with home := { t.home with hits := tset 0 t.home.hits (gr / 1024) (tget 0 t.home.hits (gr / 1024) + 1) } }

/-! ## Fault messages of hardware -/

/-- The header of a message (R169). -/
def mkHeader (sender type flags b7 len rank dest : Nat) : BitVec 128 :=
  BitVec.ofNat 128 (sender + type * 2 ^ 32 + flags * 2 ^ 48 + b7 * 2 ^ 56 + len * 2 ^ 64 + rank * 2 ^ 80 + dest * 2 ^ 96)

/-- Words with fresh seals. -/
def sealed (l : List Word) : List (Word × Byte) := l.map fun w => (w, sealFn w)

/-- The address of a hardware sender on this device (R167). -/
def State.hwSender (s : State) : Nat := s.devNum.toNat * 2 ^ 24 + 0x00FFFFF0

/-- The state with a message of a hardware sender on its way (R167, R174); such a sender has no index in a gang, so RANK is open (log 40). -/
def State.sendHw (s : State) (kind : MsgKind) (part : Nat) (dst : BitVec 32) (type flags tc : Nat) (payload : List (Word × Byte)) (weight : Nat) :
    State :=
  let rank := (Config.freeWord s.draws).toNat % 2 ^ 16
  let m : Msg := ⟨s.dist.next, kind, 0, BitVec.ofNat 32 s.hwSender, part, dst, tc,
    mkHeader s.hwSender type flags (tc * 8) (8 * payload.length) rank dst.toNat, payload, weight, [], none, false, 0, .flying⟩
  { s with dist := { s.dist with hw := s.dist.hw ++ [m], next := s.dist.next + 1 }, draws := s.draws + 1 }

/-- The address of mb7 of an actor. -/
def mb7 (addr : BitVec 32) : BitVec 32 := addr ||| 7

/-- The state with SEALFAULT on its way to mb7 of an actor: unit, syndrome, reporting core, the granule's address, and for a
transform or join the receiver (R286). -/
def State.sealFault (s : State) (part : Nat) (addr : BitVec 32) (unit core : Nat) (y : Byte) (va : Word) (recv : Nat) : State :=
  s.sendHw .fault part (mb7 addr) 0xFFF2 0 0
    (sealed [BitVec.ofNat 64 (y.toNat + unit * 256 + coreNumber core * 4096), va &&& (BitVec.allOnes 64 <<< 3), BitVec.ofNat 64 recv, BitVec.ofNat 64 s.time]) 0

/-- A merge of bytes into an old granule by a lane: the new granule, its seal, and the syndrome when a check fails (R44, R94). -/
def laneMerge (old : Word × Byte) (new : Word × Byte) (mask : BitVec 8) : Word × Byte × Byte :=
  let y0 := syn new.1 new.2
  let y := if y0 ≠ 0 then y0 else syn old.1 old.2
  let x := mergeBytes old.1 new.1 mask
  (x, if y = 0 then sealFn x else sealFn x ^^^ 0xA5, y)

/-- The state with one granule of a store performed at home: a move of a whole granule, else a merge, which the home's eave core reports (R84,
R93, R94, R286). -/
def State.homeMerge (s : State) (w : GWrite) (part : Nat) (addr : BitVec 32) (va : Word) : State :=
  if w.mask = 0xFF then s.homePut w.gr w.data w.sl
  else
    let r := laneMerge (s.homeGran w.gr) (w.data, w.sl) w.mask
    let s1 := s.homePut w.gr r.1 r.2.1
    if r.2.2 = 0 then s1 else s1.sealFault part addr 1 (1024 + s.homeEave (8 * w.gr)) r.2.2 va 0

/-! ## The caches -/

/-- The line of granule gr in a cache. -/
def cacheAt (t : Tab Line) (gr : Nat) : Option Line := t.lookup gr
/-- The cache with granule gr holding a line. -/
def cachePut (t : Tab Line) (gr : Nat) (l : Line) : Tab Line := tins (tdel t gr) gr l
/-- Whether a granule is valid in a cache. -/
def inCache (t : Tab Line) (gr : Nat) : Bool := (cacheAt t gr).isSome
/-- The cache with every invalid granule of the list filled, clean, in a way and for a partition (R83, R84). -/
def fillLines (src : Nat → Word × Byte) (way part : Nat) (t : Tab Line) : List Nat → Tab Line
  | [] => t
  | g :: r => fillLines src way part (if inCache t g then t else cachePut t g ⟨(src g).1, (src g).2, false, way, part⟩) r
/-- The granules of the 32-byte line that holds gr (R83). -/
def lineOf (gr : Nat) : List Nat := (List.range 4).map fun i => gr / 4 * 4 + i

/-- The state with a line written at home, unless the home refuses its partition (R356). -/
def State.homeLine (s : State) (g : Nat) (l : Line) : State := if s.denied l.part (8 * g) then s else s.homePut g l.val l.sl

/-- The state with lines written at home. -/
def State.homeLines (s : State) : List (Nat × Line) → State
  | [] => s
  | (g, l) :: r => State.homeLines (s.homeLine g l) r

/-- The granules of a cluster cache for which p holds, written back to home; they stay valid and clean (R84). -/
def State.cleanCluster (s : State) (k : Nat) (p : Nat → Bool) : State :=
  let d := (s.cluster k).cache.filter fun e => e.2.dirty && p e.1
  (s.homeLines d).upCluster k fun c => { c with
    cache := c.cache.map fun e => if p e.1 then (e.1, { e.2 with dirty := false }) else e }

/-- The state with the granules of a cluster cache for which p holds invalidated. -/
def State.dropCluster (s : State) (k : Nat) (p : Nat → Bool) : State :=
  s.upCluster k fun c => { c with cache := c.cache.filter fun e => !p e.1 }

/-- The bank of a granule in a cluster cache: address bits 11 to 8 (R84). -/
def bankOf (gr : Nat) : Nat := gr / 32 % 16
/-- The lines of 256 bytes that a bank of a cache holds. -/
def bankLines (t : Tab Line) (b : Nat) : List Nat :=
  t.foldl (fun l e => if bankOf e.1 == b && !l.contains (e.1 / 32) then e.1 / 32 :: l else l) []

/-- Whether a line of a cluster cache cannot leave it now: it has a dirty granule and is locked at home (R86). -/
def State.stuck (s : State) (t : Tab Line) (line : Nat) : Bool := s.locked (32 * line) && t.any fun e => e.1 / 32 == line && e.2.dirty

/-- Whether cluster cache k has no room for the lines of granules: those that are new in a bank, with those that cannot leave it, are more than the
1,024 that it has (R13, R84, R86). -/
def State.noRoom (s : State) (k : Nat) (grs : List Nat) : Bool :=
  let t := (s.cluster k).cache
  grs.any fun g =>
    let held := bankLines t (bankOf g)
    let new := ((grs.filter fun h => bankOf h == bankOf g).map (· / 32)).eraseDups.filter fun l => !held.contains l
    !new.isEmpty && 1024 < (held.filter (s.stuck t)).length + new.length

/-- The state with room for the line of granule gr in its bank of cluster cache k, which has 1,024 lines (R13, R84): a full bank writes back and
drops a line that Config names, none that cannot leave (R86, log 6). -/
def State.roomCluster (s : State) (k gr : Nat) : State :=
  let t := (s.cluster k).cache
  let held := bankLines t (bankOf gr)
  if held.contains (gr / 32) || held.length < 1024 then s else
    let out := held.filter fun l => !s.stuck t l
    let v := out.getD (Config.victim s.draws % max 1 out.length) (gr / 32)
    let p := fun g => g / 32 == v
    { (s.cleanCluster k p).dropCluster k p with draws := s.draws + 1 }

/-- The state with granule gr of cluster cache k holding a line. -/
def State.clusterPut (s : State) (k gr : Nat) (l : Line) : State :=
  (s.roomCluster k gr).upCluster k fun c => { c with cache := cachePut c.cache gr { l with way := 0 } }

/-- The cluster cache with the invalid ones of granules filled from home for a partition (R84). -/
def State.fillCluster (s : State) (k part : Nat) : List Nat → State
  | [] => s
  | g :: r => State.fillCluster
      (if inCache (s.cluster k).cache g then s else s.clusterPut k g ⟨(s.answer part g).1, (s.answer part g).2, false, 0, part⟩) k part r

/-- Whether a copy of granule g at core n or in its cluster is dirty. -/
def State.dirtyCopy (s : State) (n g : Nat) : Bool :=
  (cacheAt (s.core n).m.cache g).any (·.dirty) || (!isEave n && (cacheAt (s.cluster (clusterOf n)).cache g).any (·.dirty))

/-- The state with the copies of granules at core n and in its cluster gone (R154, R156): dirty ones are first written back to home, so that no
store is lost (R214, R244).  A dirty one whose line is locked cannot be, and stays (R86). -/
def State.dropCopies (s : State) (n : Nat) (grs : List Nat) : State :=
  let p := fun g => grs.contains g && !(s.locked g && s.dirtyCopy n g)
  let dirty := fun (t : Tab Line) => t.filter fun e => e.2.dirty && p e.1
  let k := if isEave n then [] else (s.cluster (clusterOf n)).cache
  let s1 := (s.homeLines (dirty k ++ dirty (s.core n).m.cache)).upCore n fun c => { c with m := { c.m with cache := c.m.cache.filter fun e => !p e.1 } }
  if isEave n then s1 else s1.dropCluster (clusterOf n) p

/-- The cluster caches and home as a place that takes write-backs of core n: the state with dirty granules written back (R83); an eave core
writes back to home (R407). -/
def State.writeBackTo (s : State) (n : Nat) : List (Nat × Line) → State
  | [] => s
  | (g, l) :: r => State.writeBackTo (if isEave n then s.homeLine g l else s.clusterPut (clusterOf n) g { l with dirty := true }) n r

/-- The granules of the core cache for which p holds, written back; they stay valid and clean (R83). -/
def State.cleanCore (s : State) (n : Nat) (p : Nat → Bool) : State :=
  let d := (s.core n).m.cache.filter fun e => e.2.dirty && p e.1
  (s.writeBackTo n d).upCore n fun c => { c with m := { c.m with
    cache := c.m.cache.map fun e => if p e.1 then (e.1, { e.2 with dirty := false }) else e } }

/-- The state with the granules of the core cache for which p holds invalidated. -/
def State.dropCore (s : State) (n : Nat) (p : Nat → Bool) : State :=
  s.upCore n fun c => { c with m := { c.m with cache := c.m.cache.filter fun e => !p e.1 } }

/-- The set of a granule's line in a core cache: the line's number modulo 256 (R83, log 6). -/
def setOf (gr : Nat) : Nat := gr / 4 % 256

/-- The way of the line of granule gr in a core cache: that which holds it, else a free one of the first n, else one that Config names (R83, R99,
log 6). -/
def wayFor (t : Tab Line) (n draw gr : Nat) : Nat :=
  match t.find? fun e => e.1 / 4 == gr / 4 with
  | some e => e.2.way
  | none => match (List.range n).find? fun w => !(t.any fun e => setOf e.1 == setOf gr && e.2.way == w) with
    | some w => w
    | none => Config.victim draw % n

/-- The ways of a core cache that take allocations (R99). -/
def CoreMem.open' (m : CoreMem) : Nat := 8 - m.ways

/-- Whether a granule of a core cache lies in the place of another line that granule gr needs in a way. -/
def inPlace (t : Tab Line) (way gr g : Nat) : Bool :=
  setOf g == setOf gr && g / 4 != gr / 4 && match cacheAt t g with
    | some l => l.way == way
    | none => false

/-- The state with the place of a line in a way of core n free: another line there is written back and leaves (R83). -/
def State.roomCore (s : State) (n way gr : Nat) : State :=
  let t := (s.core n).m.cache
  if t.any fun e => inPlace t way gr e.1 then (s.cleanCore n (inPlace t way gr)).dropCore n (inPlace t way gr) else s

/-- Whether a dirty granule of a cache for which p holds has a locked line, so that a write-back to home waits (R86). -/
def State.dirtyLocked (s : State) (t : Tab Line) (p : Nat → Bool) : Bool := t.any fun e => e.2.dirty && p e.1 && s.locked e.1

/-- Whether the write-back of the dirty granules of core n for which p holds waits: at an eave core for a locked line (R86), else for room in the
cluster cache. -/
def State.cleanHeld (s : State) (n : Nat) (p : Nat → Bool) : Bool :=
  if isEave n then s.dirtyLocked (s.core n).m.cache p
  else s.noRoom (clusterOf n) (((s.core n).m.cache.filter fun e => e.2.dirty && p e.1).map (·.1))

/-- Whether making that place waits (R86). -/
def State.roomBlocked (s : State) (n way gr : Nat) : Bool := s.cleanHeld n (inPlace (s.core n).m.cache way gr)

/-! ## Signatures -/

/-- A superset of a signature, which Config may widen (R213, log 5). -/
def widened (n : Nat) (g : Sig) : Sig :=
  match Config.widen n with
  | none => .full
  | some l => g.union ⟨false, l⟩

/-- The state with signature T applied to the core cache of core n (R214). -/
def State.applyCore (s : State) (n : Nat) (t : Sig) : State := (s.cleanCore n (t.hits 4)).dropCore n (t.hits 4)
/-- The state with signature T applied to cluster cache k (R214). -/
def State.applyCluster (s : State) (k : Nat) (t : Sig) : State := (s.cleanCluster k (t.hits 32)).dropCluster k (t.hits 32)

/-- The state with granules added to P.CL and P.DV of core n (R213). -/
def State.noteWrites (s : State) (n : Nat) (grs : List Nat) : State :=
  s.upCore n fun c => { c with m := { c.m with pcl := c.m.pcl.union ⟨false, grs⟩, pdv := c.m.pdv.union ⟨false, grs⟩ } }

/-- The line signature that a scope point keeps: at the cluster cache or at home (R218). -/
def State.lineSig (s : State) (atHome : Bool) (k gr : Nat) : Option Sig :=
  if atHome then tget none s.home.sigs (gr / 32) else tget none (s.cluster k).sigs (gr / 32)
/-- The state with signature S merged into a line's signature (R218). -/
def State.mergeSig (s : State) (atHome : Bool) (k gr : Nat) (g : Sig) : State :=
  let u := some (match s.lineSig atHome k gr with
    | some h => h.union g
    | none => g)
  if atHome then { s with home := { s.home with sigs := tset none s.home.sigs (gr / 32) u } }
  else s.upCluster k fun c => { c with sigs := tset none c.sigs (gr / 32) u }

end Sys2Proof.Machine
end

