-- ==== Sys2Proof/Machine/Tensor.lean ====
section
/-!
DEFINITION. Tensor layout records: their fields, validity, tiles and images (R318 to R320), handles (R322), and the landing transforms (R170).
-/

namespace Sys2Proof.Machine

/-- n bytes of a record from a byte, as a number (R23). -/
def fld (r : Vec) (byte n : Nat) : Nat := r.toNat / 2 ^ (8 * byte) % 2 ^ (8 * n)
/-- The element format of a record; codes 14 and 15 make it invalid. -/
def recFmt (r : Vec) : Fmt := (Fmt.ofCode (BitVec.ofNat 4 (fld r 8 1))).getD .f32
/-- The bits of an element. -/
def recBits (r : Vec) : Nat := (recFmt r).bits
/-- Count j (R318). -/
def recC (r : Vec) (j : Nat) : Nat := fld r (16 + 4 * j) 4
/-- Stride j (R318). -/
def recT (r : Vec) (j : Nat) : Word := BitVec.ofNat 64 (fld r (40 + 8 * j) 8)
/-- Tile extent j (R318). -/
def recE (r : Vec) (j : Nat) : Nat := fld r (80 + 4 * j) 4
/-- The product of a list. -/
def prod (l : List Nat) : Nat := l.foldl (· * ·) 1
/-- The five dimensions. -/
def dims : List Nat := List.range 5
/-- The elements of a tile. -/
def tileElems (r : Vec) : Nat := prod (dims.map (recE r))
/-- The bytes of a tile's image (R320). -/
def imageBytes (r : Vec) : Nat := tileElems r * recBits r / 8
/-- The bytes of a row of the image (R320). -/
def rowBytes (r : Vec) : Nat := recE r 0 * recBits r / 8
/-- The swizzle (R320). -/
def recSwz (r : Vec) : Nat := fld r 9 1 % 4

/-- Whether a record is valid (R318, R320). -/
def recValid (r : Vec) : Bool :=
  let nd := fld r 8 1 / 32
  let w := recBits r
  let sz := w / 8
  fld r 8 1 / 16 % 2 == 0 && fld r 9 1 / 4 == 0 && fld r 10 6 == 0 && fld r 36 4 == 0 && fld r 100 28 == 0
    && nd ≤ 4 && fld r 8 1 % 16 < 14
    && dims.all (fun j => 1 ≤ recC r j && recC r j ≤ 2 ^ 31 && 1 ≤ recE r j && recE r j ≤ recC r j
        && (j ≤ nd || (recC r j == 1 && recT r j == 0 && recE r j == 1)))
    && (if w == 4 then recFmt r ≠ .q4x || (recE r 0 % 2 == 0 && recC r 0 % 2 == 0)
        else fld r 0 8 % sz == 0 && dims.all fun j => (recT r j).toNat % sz == 0)
    && recE r 0 * w % 64 == 0 && tileElems r * w ≤ 8 * 262144
    && (recSwz r == 0 || rowBytes r % (32 * 2 ^ recSwz r) == 0)

/-- Tiles along dimension j (R319). -/
def recN (r : Vec) (j : Nat) : Nat := (recC r j + recE r j - 1) / recE r j
/-- The tiles of a tensor (R319). -/
def tileCount (r : Vec) : Nat := prod (dims.map (recN r))
/-- Digit j of a number in mixed radix. -/
def digit (radix : Nat → Nat) (x j : Nat) : Nat := x / prod ((List.range j).map radix) % radix j
/-- The tensor coordinate j of element q, in image order, of tile t (R319). -/
def coord (r : Vec) (t q j : Nat) : Nat := digit (recN r) t j * recE r j + digit (recE r) q j
/-- Whether element q of tile t lies inside the tensor (R319). -/
def inside (r : Vec) (t q : Nat) : Bool := dims.all fun j => coord r t q j < recC r j
/-- The virtual address of element q of tile t, and its nibble for a 4-bit format (R319). -/
def elemAddr (r : Vec) (t q : Nat) : Word × Nat :=
  let w := recBits r
  let x0 := coord r t q 0
  let rest := ((List.range 4).map fun j => BitVec.ofNat 64 (coord r t q (j + 1)) * recT r (j + 1)).foldl (· + ·) (BitVec.ofNat 64 (fld r 0 8))
  if w == 4 then (rest + BitVec.ofNat 64 (x0 / 2), x0 % 2) else (rest + BitVec.ofNat 64 x0 * recT r 0, 0)
/-- Where byte o of an image is stored (R320). -/
def swizzle (r : Vec) (o : Nat) : Nat :=
  let l := rowBytes r
  let s := recSwz r
  if s == 0 then o else
    let q := o % l / 32
    o / l * l + (q ^^^ (o / l % 2 ^ s)) * 32 + o % 32
/-- The lowest bit of element q in the stored image (R320). -/
def imageBit (r : Vec) (q : Nat) : Nat :=
  let b := q * recBits r
  swizzle r (b / 8) * 8 + b % 8

/-- The record that a handle names in an actor's table, when the handle is valid (R322). -/
def Actor.tlrOf (a : Actor) (h : Nat) : Option Vec :=
  let e := tget .free a.tlr (h % 16)
  if h < 2 ^ 16 && e.used && e.gen.toNat == h / 16 then some e.record else none

/-! ## Landing transforms (R170) -/

/-- An output granule of a transform: its value, and the first syndrome of its inputs that is not zero. -/
abbrev TOut := Word × Byte

/-- The landed length of s bytes under a transform (R170). -/
def landedLen (xf s : Nat) : Nat := if 1 ≤ xf && xf ≤ 4 then 2 * s else s

/-- A value of eight bytes from a function of the byte's number. -/
def bytesOf (f : Nat → Nat) : Word := BitVec.ofNat 64 (packNat 8 ((List.range 8).map f))

/-- One output granule of a transform of granule g, of its low or high half (R170), and whether a bad Q4X pair was decoded. -/
def widenHalf (xf : Nat) (w : Word) (hi : Bool) : Word × Bool :=
  let b := fun i => (byteOf w ((if hi then 4 else 0) + i)).toNat
  match xf with
  | 1 => (BitVec.ofNat 64 (packNat 16 ((List.range 4).map fun i => (cvt .e4 .f16 (b i)).1)), false)
  | 2 => (BitVec.ofNat 64 (packNat 16 ((List.range 4).map fun i => (cvt .e5 .f16 (b i)).1)), false)
  | 3 =>
    let q := fun i => q4decode (b i)
    (bytesOf fun i => ((if i % 2 == 0 then (q (i / 2)).1 else (q (i / 2)).2.1) % 256).toNat,
      (List.range 4).any fun i => (q i).2.2)
  | _ =>
    let p0 := b 2 % 8
    let p1 := b 2 / 8 % 8
    (bytesOf fun i => if i == p0 then b 0 else if i == p1 then b 1 else 0, false)

/-- Whether a unit of EXPAND_2OF8 is invalid (R170). -/
def badUnit (w : Word) : Bool :=
  [0, 4].any fun o => (byteOf w (o + 2)).toNat / 8 % 8 ≤ (byteOf w (o + 2)).toNat % 8 || byteOf w (o + 3) != 0

/-- A payload under a transform: the output granules with the syndrome of their checks, and whether QB is set (R170). -/
def transform (xf : Nat) (p : List (Word × Byte)) : List TOut × Bool :=
  if xf = 0 then (p.map fun g => (g.1, 0), false)
  else if xf = 5 then
    ((List.range p.length).map fun k =>
      let at' := fun (i j : Nat) => p.getD (16 * i + j / 2) (0, 0)
      let half := fun (i j : Nat) => (at' i j).1.toNat / 2 ^ (32 * (j % 2)) % 2 ^ 32
      let j := k / 16
      let i := k % 16 * 2
      let y0 := syn (at' i j).1 (at' i j).2
      (BitVec.ofNat 64 (half i j + half (i + 1) j * 2 ^ 32), if y0 ≠ 0 then y0 else syn (at' (i + 1) j).1 (at' (i + 1) j).2), false)
  else
    (p.flatMap fun g => [((widenHalf xf g.1 false).1, syn g.1 g.2), ((widenHalf xf g.1 true).1, syn g.1 g.2)],
      xf == 3 && p.any fun g => (widenHalf xf g.1 false).2 || (widenHalf xf g.1 true).2)

/-- The landed granules of a payload with their seals (R170): moved whole without a transform, else sealed, or poisoned after a failed check. -/
def landed (xf : Nat) (p : List (Word × Byte)) : List (Word × Byte) :=
  if xf = 0 then p else (transform xf p).1.map fun o => (o.1, if o.2 = 0 then sealFn o.1 else sealFn o.1 ^^^ 0xA5)

/-- The state with a SEALFAULT of unit u for each granule with a syndrome, from LM granule gr of a receiver on a core (R170, R286). -/
def State.faultEach (s : State) (part : Nat) (addr : BitVec 32) (u core gr : Nat) (recv : BitVec 32) : List Byte → State
  | [] => s
  | y :: r =>
    State.faultEach (if y = 0 then s else s.sealFault part addr u core y (BitVec.ofNat 64 (8 * gr)) recv.toNat) part addr u core (gr + 1) recv r

end Sys2Proof.Machine
end

