-- ==== Sys2Proof/Machine/Landing.lean ====
section
/-!
DEFINITION. Mailboxes and landing: the fields of a configuration word and the ring (R171, R172), where a message fits (R173, R174, R181, R186,
R193, R307), landing (R175), deposits and joins (R188, R192, R193), replies to tags (R186, R203), refusal (R181, R182) and rejection (R184).
-/

namespace Sys2Proof.Machine

/-! ## Mailboxes -/

/-- KIND: 0 handler, 1 deposit, 2 join, 3 disabled (R171). -/
def Mailbox.kind (m : Mailbox) : Nat := m.f 9 2
/-- ORD (R171). -/
def Mailbox.ord (m : Mailbox) : Bool := m.cfg.getLsbD 11
/-- PRIO (R171). -/
def Mailbox.prio (m : Mailbox) : Nat := m.f 12 2
/-- RSV (R171). -/
def Mailbox.rsv (m : Mailbox) : Nat := m.f 25 4
/-- TYPE (R171). -/
def Mailbox.typ (m : Mailbox) : Nat := m.f 29 16
/-- ENTRY (R171). -/
def Mailbox.entry (m : Mailbox) : Nat := m.f 45 19
/-- The LM address of a slot's header (R172). -/
def Mailbox.hdrAt (m : Mailbox) (i : Nat) : Nat := m.base + 16 * i
/-- The end of a ring at base b with k slots of z bytes (R172). -/
def ringEnd (b k z : Nat) : Nat := b + 128 * ((16 * k + 127) / 128) + z * k
/-- Slot i. -/
def Mailbox.slot (m : Mailbox) (i : Nat) : Slot := tget .free m.slots i
/-- The mailbox with slot i replaced. -/
def Mailbox.setSlot (m : Mailbox) (i : Nat) (x : Slot) : Mailbox := { m with slots := tset .free m.slots i x }
/-- Mailbox m of an actor. -/
def Actor.mb (a : Actor) (m : Nat) : Mailbox := tget .disabled a.mbs m
/-- The actor with mailbox m replaced. -/
def Actor.setMb (a : Actor) (m : Nat) (b : Mailbox) : Actor := { a with mbs := tset .disabled a.mbs m b }
/-- The state with the actor at index i of core n changed. -/
def State.upActor (s : State) (n i : Nat) (f : Actor → Actor) : State :=
  s.upCore n fun c => match c.actor i with
    | some a => c.setActor i (some (f a))
    | none => c
/-- The state with mailbox m of the actor at index i of core n changed. -/
def State.upMb (s : State) (n i m : Nat) (f : Mailbox → Mailbox) : State := s.upActor n i fun a => a.setMb m (f (a.mb m))
/-- The state with LM granules of core n written from granule gr. -/
def State.landLm (s : State) (n gr : Nat) (l : List (Word × Byte)) : State :=
  s.upCore n fun c => { c with m := { c.m with lm := c.m.lm.setGrans gr l } }

/-- Reservations of mailbox m that tags or unfinished firings of replies claim (R186). -/
def Actor.claimed (a : Actor) (m : Nat) : Nat :=
  ((List.range 16).filter fun t => (tget .free a.tags t).bind == some (.mailbox m)).length
    + ((a.mb m).slots.filter fun e => e.2.claim.isSome).length
/-- Claimed reservations whose reply has not landed (R186). -/
def Actor.awaited (a : Actor) (m : Nat) : Nat :=
  ((List.range 16).filter fun t => (tget .free a.tags t).bind == some (.mailbox m)).length

/-! ## Messages -/

/-- A field of a message's header (R169). -/
def Msg.h (m : Msg) (lo w : Nat) : Nat := m.header.toNat / 2 ^ lo % 2 ^ w
/-- TYPE (R169). -/
def Msg.typ (m : Msg) : Nat := m.h 32 16
/-- The landing transform (R170). -/
def Msg.xf (m : Msg) : Nat := m.h 56 3
/-- The sent length. -/
def Msg.len (m : Msg) : Nat := m.h 64 13
/-- RANK (R169). -/
def Msg.rank (m : Msg) : Nat := m.h 80 16
/-- The mailbox that a message names. -/
def Msg.mb (m : Msg) : Nat := m.dst.toNat % 8
/-- Whether a message is a hardware sender's (R167). -/
def Msg.hw (m : Msg) : Bool := m.kind != .plain && m.kind != .reply
/-- The header as it lands in a given room: LEN is the landed length, and QB tells a bad Q4X pair (R169, R170). -/
def Msg.headerIn (m : Msg) (room : Nat) : BitVec 128 :=
  let qb := (transform m.xf m.payload).2
  BitVec.ofNat 128 (m.header.toNat - m.len * 2 ^ 64 + min room (landedLen m.xf m.len) * 2 ^ 64 + if qb then 2 ^ 61 else 0)
/-- The header as it lands where all of the payload fits. -/
def Msg.landedHeader (m : Msg) : BitVec 128 := m.headerIn (landedLen m.xf m.len)
/-- The reason for which the transform of a message rejects it, none where it can be applied (R170). -/
def Msg.unfit (m : Msg) : Option Nat :=
  if m.xf = 5 && m.len ≠ 4096 then some 2
  else if m.xf = 4 && m.payload.any (fun g => badUnit g.1) then some 7
  else none
/-- Flag i of the header (R169). -/
def Msg.flag (m : Msg) (i : Nat) : Bool := m.header.getLsbD (48 + i)

/-- The syndromes of the checks that a message's transform makes (R170). -/
def faultsOf (m : Msg) : List Byte := (transform m.xf m.payload).1.map fun o => o.2

/-- Where a message fits: slots from i, span of them; it joins a combination at once; it is refused; or it is rejected (R173 to R186). -/
inductive Fit where
  | place (i span : Nat)
  | merge
  | refuse
  | reject (reason : Nat)
  deriving DecidableEq, Repr

/-- Whether slot i is free for a message from a core: free, and not held for another core (R181). -/
def Mailbox.open' (m : Mailbox) (core : Option Nat) (i : Nat) : Bool :=
  (m.slot i).st == .free && !(m.holds.any fun h => h.1 == i && some h.2.1 != core)
/-- The slots that ordinary messages hold, and those held for other cores (R181, R186). -/
def Mailbox.taken (m : Mailbox) (core : Option Nat) : Nat :=
  ((List.range m.k).filter fun i => if (m.slot i).st == .free then !m.open' core i else (m.slot i).ord).length
/-- The lowest slot open for a core. -/
def Mailbox.lowest (m : Mailbox) (core : Option Nat) : Option Nat := (List.range m.k).find? (m.open' core)
/-- A slot found, or refused. -/
def fitAt : Option Nat → Fit
  | some i => .place i 1
  | none => .refuse

/-- Where an ordinary message, or the first message of a slot run, fits in mailbox b of actor a (R173, R181, R186, R192, R193, R307). -/
def Mailbox.fit (b : Mailbox) (core : Option Nat) (m : Msg) : Fit :=
  let len := landedLen m.xf m.len
  if b.kind = 3 || (m.multi && b.kind ≠ 0) then .reject 3
  else if m.typ ≠ b.typ then .reject 1
  else if m.multi then
    if b.k * b.z < len then .reject 2
    else
      let n := (len + b.z - 1) / b.z
      if b.k - b.rsv < b.taken core + n then .refuse
      else match (List.range (b.k + 1 - n)).find? fun i => (List.range n).all fun j => b.open' core (i + j) with
        | some i => .place i n
        | none => .refuse
  else if b.z < len then .reject 2
  else match m.unfit with
  | some n => .reject n
  | none =>
    let room := b.taken core + b.rsv < b.k
    match b.kind with
    | 0 => if room then fitAt (b.lowest core) else .refuse
    | 1 =>
      if b.ord then (if room && b.open' core (m.rank % b.k) then .place (m.rank % b.k) 1 else .refuse)
      else if room then fitAt (b.lowest core) else .refuse
    | _ => match b.join with
      | none => .refuse
      | some j =>
        if j.running || j.count ≤ j.landed then .refuse
        else if b.ord && (j.count ≤ m.rank || j.ranks.contains m.rank) then .reject 7
        else if j.op = 0 then
          if b.ord then (if room && b.open' core m.rank then .place m.rank 1 else .refuse)
          else if room then fitAt (b.lowest core) else .refuse
        else if !b.ord || m.rank == j.combined then .merge
        else if room then fitAt (b.lowest core) else .refuse

/-- Where a hardware fault message fits in mb7: the lowest open slot, while more are free than replies are awaited (R174). -/
def Actor.faultFit (a : Actor) : Fit :=
  let b := a.mb 7
  if ((List.range b.k).filter (b.open' none)).length ≤ a.awaited 7 then .refuse else fitAt (b.lowest none)

/-- The mailbox after the free slots i to i + n - 1 have been taken: no hold on one of them is left (R181). -/
def Mailbox.useHold (m : Mailbox) (i n : Nat) : Mailbox :=
  { m with holds := m.holds.filter fun h => h.1 < i || i + n ≤ h.1 }

/-- The two granules of a header (R169). -/
def headerGrans (h : BitVec 128) : List (Word × Byte) := sealed [h.extractLsb' 0 64, h.extractLsb' 64 64]

/-- The state with the header of a landed message in slots i to i + n - 1 of a mailbox. -/
def State.putHeaders (s : State) (core : Nat) (b : Mailbox) (h : BitVec 128) (i : Nat) : Nat → State
  | 0 => s
  | n + 1 => State.putHeaders (s.landLm core (b.hdrAt i / 8) (headerGrans h)) core b h (i + 1) n

/-- A mailbox with slots i + 1 to i + n - 1 occupied by the message of slot i (R307). -/
def Mailbox.span (b : Mailbox) (i : Nat) (x : Slot) : Nat → Mailbox
  | 0 => b
  | n + 1 => Mailbox.span (b.setSlot (i + 1) { x with st := .joined, claim := none, held := [] }) (i + 1) x n

/-- The copy by which a receiver fetches one tile of a SENDT (R196): as a COPY of the sender to an offset of the receiver's window. -/
def tileCopy (id core idx : Nat) (m : Msg) (recv : BitVec 32) (slot : Nat) (t : TileRef) : Copy :=
  { id := id, core := core, actor := idx, addr := m.src, part := m.part
    block := BitVec.ofNat 512 (t.handle + t.tile * 2 ^ 32 + recv.toNat * 2 ^ 128 + t.ofs * 2 ^ 160 + 2 * 2 ^ 256)
    srcRec := t.record, dstRec := 0, image := [], requested := false, parts := [], cancelled := false, bytes := 0
    grs := [], landed := false, tile := some (core, idx, m.mb, slot), rank := m.rank, tlb := [], land := none }

/-- The copies for the tiles of a message. -/
def tileCopies (core idx : Nat) (m : Msg) (recv : BitVec 32) (slot id : Nat) : List TileRef → List Copy
  | [] => []
  | t :: r => tileCopy id core idx m recv slot t :: tileCopies core idx m recv slot (id + 1) r

/-- A slot number that no ring has: the tiles of a contribution combined at once are awaited by the join itself (R196). -/
def joinSlot : Nat := 2 ^ 16

/-- A core that sent a message, for the holds of the destination; none for a hardware sender. -/
def Msg.sender (m : Msg) : Option Nat := if m.hw then none else some m.core

/-- The state after a message has landed in slots i to i + span - 1 of mailbox mb of the actor at index idx of a core (R175): its header, its
payload under its transform as far as the slots hold it (R197), and the slot ready; one with tiles lands its payload when the last tile has landed. -/
def State.landAt (s : State) (core idx mb : Nat) (m : Msg) (i span : Nat) (claim : Option Nat) : State :=
  match (s.core core).actor idx with
  | none => s
  | some a =>
    let b := a.mb mb
    let room := max 1 span * b.z
    let out := (landed m.xf m.payload).take (room / 8)
    let tiles := m.tiles.length
    let x : Slot := { st := if tiles = 0 then .ready else .landing, src := m.src, header := m.headerIn room, weight := m.weight, accepted := s.time
                      seqNo := s.dist.next, ord := m.kind != .fault && claim.isNone, claim := claim, tiles := tiles, span := span
                      raised := false, sig := m.sig, held := if tiles = 0 then [] else out }
    let b1 := ((b.setSlot i x).span i x (span - 1)).useHold i (max 1 span)
    let w := if b.kind = 1 && tiles = 0 then m.weight else 0
    let s1 := s.upActor core idx fun a => { a.setMb mb b1 with csr := { a.csr with w := (a.csr.w + w) % 2 ^ 64 } }
    let s2 := s1.putHeaders core b (m.headerIn room) i (max 1 span)
    let s3 := if tiles = 0 then s2.landLm core (b.payAt i / 8) out else s2
    let s4 := s3.faultEach m.part (BitVec.ofNat 32 (m.h 0 32)) 4 core (b.payAt i / 8) a.addr ((faultsOf m).take (room / 8))
    { s4 with dist := { s4.dist with next := s4.dist.next + 1 + tiles
                                     copies := s4.dist.copies ++ tileCopies core idx m a.addr i (s4.dist.next + 1) m.tiles } }

/-! ## Joins -/

/-- A combining operation on 32-bit elements, with flags (R192). -/
def joinOp (op x y : Nat) : Nat × Flags :=
  let lt := decide (intOf 32 true x < intOf 32 true y)
  match op with
  | 1 => addF .f32 x y
  | 2 => ((x + y) % 2 ^ 32, 0)
  | 3 => (maxF .f32 x y, 0)
  | 4 => (minF .f32 x y, 0)
  | 5 => (if lt then y else x, 0)
  | _ => (if lt then x else y, 0)

/-- A granule that a lane outside a context writes, with its seal: poisoned after a failed check (R286). -/
def laneOut (w : Word) (y : Byte) : Word × Byte := (w, if y = 0 then sealFn w else sealFn w ^^^ 0xA5)

/-- One granule combined into one of the accumulator by a lane (R192): the granule, the first syndrome, and flags. -/
def joinGran (op : Nat) (acc x : Word × Byte) : Word × Byte × Flags :=
  let half := fun (w : Word) (i : Nat) => w.toNat / 2 ^ (32 * i) % 2 ^ 32
  let r := fun i => joinOp op (half acc.1 i) (half x.1 i)
  let y := if syn x.1 x.2 ≠ 0 then syn x.1 x.2 else syn acc.1 acc.2
  (BitVec.ofNat 64 ((r 0).1 + (r 1).1 * 2 ^ 32), y, (r 0).2 ||| (r 1).2)

/-- The state with a contribution's granules combined into the accumulator of a join (R192, R286): the first is placed as a move. -/
def State.combine (s : State) (core idx mb : Nat) (part : Nat) (sender : BitVec 32) (pay : List (Word × Byte)) : State :=
  match (s.core core).actor idx with
  | none => s
  | some a => match (a.mb mb).join with
    | none => s
    | some j =>
      let gr := j.acc / 8
      let old := (s.core core).m.lm.grans gr pay.length
      let rs := (old.zip pay).map fun (o, x) => joinGran j.op o x
      let fresh := j.combined == 0
      let out : List (Word × Byte) := if fresh then pay else rs.map fun r => laneOut r.1 r.2.1
      let s1 := s.landLm core gr out
      let s2 := if fresh then s1 else s1.faultEach part sender 5 core gr a.addr (rs.map (·.2.1))
      s2.upMb core idx mb fun b => { b with join := some { j with
        combined := j.combined + 1, maxLen := max j.maxLen (8 * pay.length), flags := if fresh then j.flags else j.flags ||| orFlags (rs.map (·.2.2)) } }

/-- Signatures joined. -/
def sigJoin : Option Sig → Option Sig → Option Sig
  | some a, some b => some (a.union b)
  | some a, none => some a
  | none, b => b

/-- The state with a contribution counted by a join (R192). -/
def State.countIn (s : State) (core idx mb : Nat) (m : Msg) : State :=
  s.upMb core idx mb fun b => match b.join with
    | some j => { b with join := some { j with landed := j.landed + 1, ranks := m.rank :: j.ranks, weight := j.weight + m.weight
                                               first := if j.landed = 0 then s.time else j.first, last := s.time, seqNo := s.dist.next, sig := sigJoin j.sig m.sig } }
    | none => b

/-- The state after the contributions that wait in slots have been combined as far as their turn has come (R193). -/
def State.cascade (s : State) (core idx mb : Nat) : Nat → State
  | 0 => s
  | n + 1 =>
    match (s.core core).actor idx with
    | none => s
    | some a =>
      let b := a.mb mb
      match b.join with
      | none => s
      | some j =>
        if j.op = 0 || !b.ord then s
        else match b.slots.find? fun e => e.2.st == .ready && e.2.header.toNat / 2 ^ 80 % 2 ^ 16 == j.combined with
          | none => s
          | some (i, x) =>
            let len := x.header.toNat / 2 ^ 64 % 2 ^ 13
            let s1 := s.combine core idx mb a.part (BitVec.ofNat 32 (x.header.toNat % 2 ^ 32)) ((s.core core).m.lm.grans (b.payAt i / 8) (len / 8))
            State.cascade (s1.upMb core idx mb fun b => b.freeSlots s.time a.fence [i]) core idx mb n

/-- The state after one more tile of a message has landed or been skipped (R196): after the last the payload lands and its slot is ready, and a
join combines what then has its turn (R193). -/
def State.tileDone (s : State) (core idx mb i : Nat) : State :=
  match (s.core core).actor idx with
  | none => s
  | some a =>
    let b := a.mb mb
    let x := b.slot i
    if i = joinSlot then s.upMb core idx mb fun b => { b with join := b.join.map fun j => { j with tiles := j.tiles - 1 } }
    else if 1 < x.tiles then s.upMb core idx mb fun b => b.setSlot i { x with tiles := x.tiles - 1 }
    else
      let w := if b.kind = 1 then x.weight else 0
      let s1 := s.upActor core idx fun a =>
        { a.setMb mb (b.setSlot i { x with tiles := 0, st := .ready, held := [] }) with csr := { a.csr with w := (a.csr.w + w) % 2 ^ 64 } }
      let s2 := s1.landLm core (b.payAt i / 8) x.held
      if b.kind = 2 then s2.cascade core idx mb 256 else s2

/-- The state with the tiles of a contribution that a join has combined at once to be fetched (R196). -/
def State.fetchTiles (s : State) (core idx mb : Nat) (recv : BitVec 32) (m : Msg) : State :=
  let s1 := s.upMb core idx mb fun b => { b with join := b.join.map fun j => { j with tiles := j.tiles + m.tiles.length } }
  { s1 with dist := { s1.dist with next := s1.dist.next + 1 + m.tiles.length
                                   copies := s1.dist.copies ++ tileCopies core idx m recv joinSlot (s1.dist.next + 1) m.tiles } }

/-- The state after a message has been accepted where it fits in a mailbox (R173, R175, R192, R193). -/
def State.accept (s : State) (core idx mb : Nat) (m : Msg) (f : Fit) : State :=
  match (s.core core).actor idx with
  | none => s
  | some a =>
    let join := (a.mb mb).kind = 2
    match f with
    | .place i span =>
      let s1 := if join then s.countIn core idx mb m else s
      s1.landAt core idx mb m i span none
    | .merge =>
      let s1 := s.countIn core idx mb m
      let s2 := s1.combine core idx mb m.part (BitVec.ofNat 32 (m.h 0 32)) (landed m.xf m.payload)
      let s3 := s2.faultEach m.part (BitVec.ofNat 32 (m.h 0 32)) 4 core
        (match (a.mb mb).join with
          | some j => j.acc / 8
          | none => 0) a.addr (faultsOf m)
      (s3.cascade core idx mb 256).fetchTiles core idx mb a.addr m
    | _ => s

/-! ## Replies -/

/-- The state after a reply has landed by the binding of tag t (R186, R197, R203): in its LM range, cut to the limit, or in a slot of its mailbox; or the
reason for which it is rejected: no request is outstanding, or its transform cannot be applied (R170), which leaves the tag as it is (log 71). -/
def State.landReply (s : State) (core idx t : Nat) (m : Msg) : Except Nat State :=
  match (s.core core).actor idx with
  | none => .error 5
  | some a =>
    let g := tget .free a.tags t
    if !g.out then .error 5
    else match g.bind, m.unfit with
      | none, _ => .error 5
      | _, some n => .error n
      | some (.range ad lim), _ =>
        let out := (landed m.xf m.payload).take (lim / 8)
        let s1 := (s.landLm core (ad / 8) out).upActor core idx fun a =>
          { a with tags := tset .free a.tags t { g with out := false, landed := some m.len, sig := m.sig } }
        .ok (s1.faultEach m.part (BitVec.ofNat 32 (m.h 0 32)) 4 core (ad / 8) a.addr ((faultsOf m).take (lim / 8)))
      | some (.mailbox mb), _ =>
        let b := a.mb mb
        let i := match b.lowest none with
          | some i => i
          | none => ((List.range b.k).find? fun i => (b.slot i).st == .free).getD 0
        let s1 := s.upActor core idx fun a => { a with tags := tset .free a.tags t .free }
        .ok (s1.landAt core idx mb m i 1 (some t))

/-! ## Refusal and rejection -/

/-- A message after a refusal (R182): listed when its core stands in the waiting list, else with its backoff doubled. -/
def Msg.refused (m : Msg) (now : Nat) (listed : Bool) : Msg :=
  if listed then { m with st := .listed }
  else
    let n := if m.backoff = 0 then 64 else min 4096 (2 * m.backoff)
    { m with backoff := n, st := .backoff (now + n) }

/-- The mailbox after a refusal of a message of a core, and whether that core is listed (R181). -/
def Mailbox.enlist (b : Mailbox) (core : Option Nat) : Mailbox × Bool :=
  match core with
  | none => (b, false)
  | some w =>
    if b.waiting.contains w then (b, true)
    else if b.waiting.length < 8 then ({ b with waiting := b.waiting ++ [w] }, true)
    else (b, false)

/-- The state with TYPEREJECT on its way to the sender of a message, with the message's weight (R184). -/
def State.typeReject (s : State) (m : Msg) (reason : Nat) : State :=
  let h := m.landedHeader
  s.sendHw .fault m.part (mb7 (BitVec.ofNat 32 (m.h 0 32))) 0xFFF4 (if m.weight = 0 then 0 else 1) 0
    (sealed [h.extractLsb' 0 64, h.extractLsb' 64 64, BitVec.ofNat 64 (m.dst.toNat + reason * 2 ^ 32), 0]) m.weight

end Sys2Proof.Machine
end

