-- ==== Sys2Proof/Machine/Queue.lean ====
section
/-!
DEFINITION. Memory as the distributor and the host reach it, through a partition's page tables at home (R392), and the launch queues with
their control blocks (R393 to R395).
-/

namespace Sys2Proof.Machine

/-- The translation of a virtual address for a partition, when the page translates and permits the access (R191, R392). -/
def State.distXlat (s : State) (part va : Nat) (write : Bool) : Option Xlat :=
  if va / 2 ^ 56 ≠ 0 then none
  else match s.walk part va with
    | .ok x => if x.owner == some part && (!write || x.wr) then some x else none
    | .error _ => none
/-- The physical address that such a translation gives. -/
def State.distPa (s : State) (part va : Nat) (write : Bool) : Option Nat := (s.distXlat part va write).map (·.pa)
/-- Whether the key slot of a translation has been discarded, so that the access completes as a memory error (R361). -/
def State.slotGone (s : State) (part : Nat) (x : Xlat) : Bool := (s.part part).dead.getLsbD x.kslot

/-- Whether an access to the granule at a virtual address waits: a line of its walk, or its own line, is locked (R86, R249). -/
def State.vaLocked (s : State) (part va : Nat) : Bool := va / 2 ^ 56 == 0 && match s.walk part va with
  | .ok x => s.locked (x.pa / 8)
  | .error why => why == 3
/-- Whether one of the n granules from a virtual address waits. -/
def State.vaBusy (s : State) (part va n : Nat) : Bool :=
  n != 0 && (List.range ((va % 256 + 8 * n + 255) / 256)).any fun i => s.vaLocked part (va / 256 * 256 + 256 * i)

/-- The granule at a virtual address, with its seal, as read at home; poison where the access is a memory error (R361). -/
def State.distRead (s : State) (part va : Nat) : Option (Word × Byte) := (s.distXlat part va false).map fun x =>
  if s.slotGone part x then poisoned (Config.freeWord (x.pa / 8 + 2 ^ 50 * s.draws)) else s.homeGran (x.pa / 8)

/-- The n granules from a virtual address; none when one does not translate. -/
def State.distReads (s : State) (part va : Nat) : Nat → Option (List (Word × Byte))
  | 0 => some []
  | n + 1 => match s.distRead part va, State.distReads s part (va + 8) n with
    | some g, some l => some (g :: l)
    | _, _ => none

/-- The state with a granule written at a virtual address, where that is permitted and no memory error; the key slot of the translation is noted (R361). -/
def State.distWrite (s : State) (part va : Nat) (w : Word) (sl : Byte) : State :=
  match s.distXlat part va true with
  | some x => if s.slotGone part x then s.noteSlot part x else (s.noteSlot part x).homePut (x.pa / 8) w sl
  | none => s

/-- The state with granules written from a virtual address. -/
def State.distWrites (s : State) (part va : Nat) : List (Word × Byte) → State
  | [] => s
  | g :: r => State.distWrites (s.distWrite part va g.1 g.2) part (va + 8) r

/-- A number from granules, the first in the low bits. -/
def packWords (l : List (Word × Byte)) : Nat := packNat 64 (l.map fun g => g.1.toNat)

/-- Launch queue q of a partition. -/
def State.queue (s : State) (part q : Nat) : Queue := tget .off s.dist.queues (16 * part + q)
/-- The state with launch queue q of a partition changed. -/
def State.upQueue (s : State) (part q : Nat) (f : Queue → Queue) : State :=
  { s with dist := { s.dist with queues := tset .off s.dist.queues (16 * part + q) (f (s.queue part q)) } }
/-- The 64-bit field at a byte offset of a queue's control block (R393). -/
def State.ctl (s : State) (part q off : Nat) : Nat := match s.distRead part ((s.queue part q).cb.toNat + off) with
  | some g => g.1.toNat
  | none => 0
/-- The state with a field of a queue's control block written, with a fresh seal. -/
def State.setCtl (s : State) (part q off v : Nat) : State :=
  s.distWrite part ((s.queue part q).cb.toNat + off) (BitVec.ofNat 64 v) (sealFn (BitVec.ofNat 64 v))
/-- COUNT of a queue (R393). -/
def State.qCount (s : State) (part q : Nat) : Nat := s.ctl part q 8 % 2 ^ 32
/-- The virtual address of slot i of a queue (R393). -/
def State.qSlot (s : State) (part q i : Nat) : Nat := s.ctl part q 0 + 64 * (i % max 1 (s.qCount part q))
/-- RESERVE (R393). -/
def State.qReserve (s : State) (part q : Nat) : Nat := s.ctl part q 16
/-- HEAD (R393). -/
def State.qHead (s : State) (part q : Nat) : Nat := s.ctl part q 24
/-- FREE (R393). -/
def State.qFree (s : State) (part q : Nat) : Nat := s.ctl part q 32

/-- Whether an access to the control block of a queue, or to its record i, waits for a locked line (R249). -/
def State.queueBusy (s : State) (part q i : Nat) : Bool :=
  s.vaBusy part (s.queue part q).cb.toNat 6 || s.vaBusy part (s.qSlot part q i) 8

/-- Reserves the next index of a queue (R394): the index and the state; none when the queue is not set up or full. -/
def State.qTake (s : State) (part q : Nat) : Option (Nat × State) :=
  let i := s.qReserve part q
  if !(s.queue part q).enabled || i - s.qFree part q = s.qCount part q then none else some (i, s.setCtl part q 16 (i + 1))

/-- The state with index i of a queue committed, unless it lies outside HEAD to RESERVE or is committed already (R394). -/
def State.qCommit (s : State) (part q i : Nat) : State :=
  let u := s.queue part q
  if u.enabled && s.qHead part q ≤ i && i < s.qReserve part q && !u.committed.contains i then
    s.upQueue part q fun u => { u with committed := u.committed ++ [i] }
  else s

/-- The state with a record appended to a queue as one act (R208, R395); none when the queue is full. -/
def State.qAppend (s : State) (part q : Nat) (record : List (Word × Byte)) : Option State :=
  match s.qTake part q with
  | none => none
  | some (i, u) => some ((u.distWrites part (s.qSlot part q i) record).qCommit part q i)

end Sys2Proof.Machine
end

