-- ==== Sys2Proof/Machine/Local.lean ====
section
/-!
DEFINITION. Local memory loads and stores: majors 0x0C and 0x0D, with their compact forms (R88 to R92).
-/

namespace Sys2Proof.Machine

/-- The n bytes from byte i of a granule, extended to 64 bits (R89). -/
def subWord (x : Word) (i n : Nat) (signed : Bool) : Word :=
  let v := (x >>> (8 * i)).toNat % 2 ^ (8 * n)
  if signed && v.testBit (8 * n - 1) then BitVec.ofInt 64 ((v : Int) - 2 ^ (8 * n)) else BitVec.ofNat 64 v

/-- A value of n bytes at byte i of granule x with its carried syndrome: a whole granule is a move, a narrower load a lane (R89). -/
def narrow (x : Word) (sx : Byte) (i n : Nat) (signed : Bool) : Word × Byte :=
  if n = 8 then (x, sx) else (subWord x i n signed, sealFn (subWord x i n signed) ^^^ syn x sx)

/-- LDL of n bytes (R89). -/
def loadLocal (len n : Nat) (signed : Bool) (o : BitVec 8) (a d : BitVec 5) (l : BitVec 3) (s : State) :
    Host.Outcome State Fault Refusal :=
  finish s do
    let r ← issue l.toNat (len == 2) [gR a]
    let base ← readG r a
    let ad := effAddr base o n
    lmFaults ad n n { kind := 0, size := sizeCode n }
    landedFirst ad.toNat n
    let g := s.lmGran (ad.toNat / 8)
    let v := narrow g.1 g.2 (ad.toNat % 8) n signed
    writeVarGs d v.1 v.2
    retire len

/-- STL of n bytes: a move of the whole granule, or a merge that checks the data and the old granule (R90). -/
def storeLocal (len n : Nat) (o : BitVec 8) (a d : BitVec 5) (l : BitVec 3) (s : State) :
    Host.Outcome State Fault Refusal :=
  finish s do
    let r ← issue l.toNat (len == 2) [gR a, gR d]
    let base ← readG r a
    let ad := effAddr base o n
    lmFaults ad n n { kind := 1, size := sizeCode n }
    let gr := ad.toNat / 8
    if n = 8 then modify fun t => t.setLm gr (r.gv d.toNat) (r.gsl d.toNat)
    else
      let w ← readG r d
      checkLm gr
      let x := mergeBytes (s.lmGran gr).1 (w <<< (8 * (ad.toNat % 8))) (maskOf (ad.toNat % 8) n)
      modify fun t => t.setLm gr x (sealFn x)
    retire len

/-- Sixteen granules of the acting core's LM from gr. -/
def State.lmVec (s : State) (gr : Nat) : Vec × VSeals :=
  let l := s.c.m.lm.grans gr 16
  (vecOfPairs (l.map (·.1)), vsealsOf (l.map (·.2)))

/-- The pairs of a vector register with their seals. -/
def granules (v : Vec) (sl : VSeals) : List (Word × Byte) := (List.range 16).map fun j => (pair v j, pairSeal sl j)

/-- The faults of a gather or scatter, lane by lane in ascending order (R92). -/
def laneFaults (base : Word) (off : Vec) (kind : Nat) : List Nat → M Unit
  | [] => pure ()
  | i :: r => do
    lmFaults (base + (lane off i).setWidth 64) 4 4 { kind := kind, size := 2, lane := i, elem := true }
    laneFaults base off kind r

/-- The base of a gather or scatter is aligned to 4 (R88, log 29). -/
def gatherBase (base : Word) (kind : Nat) : M Unit :=
  orTrap (base.toNat % 4 == 0) 0x03 base { kind := kind, size := 7 : Acc }.info

/-- The address of lane i. -/
def laneAddr (base : Word) (off : Vec) (i : Nat) : Nat := (base + (lane off i).setWidth 64).toNat

/-- A gather waits for each lane as a load does (R82). -/
def lanesLanded (base : Word) (off : Vec) : List Nat → M Unit
  | [] => pure ()
  | i :: r => do
    landedFirst (laneAddr base off i) 4
    lanesLanded base off r

/-- The syndrome that a lane pair carries from its two sources (R92). -/
def pairSyn (y z : Byte) : Byte := if y = 0xA5 || z = 0xA5 then 0xA5 else if y ≠ 0 then y else z

/-- What a gather reads: the words and the seals (R92). -/
def State.gather (s : State) (base : Word) (off : Vec) : Vec × VSeals :=
  let gr := fun i => s.lmGran (laneAddr base off i / 8)
  let w := fun i => (subWord (gr i).1 (laneAddr base off i % 8) 4 false).setWidth 32
  let v := vecOf ((List.range 32).map w)
  let y := fun i => syn (gr i).1 (gr i).2
  (v, vsealsOf ((List.range 16).map fun j => sealFn (pair v j) ^^^ pairSyn (y (2 * j)) (y (2 * j + 1))))

/-- The granules that a scatter writes, each once, in the order of their first lane. -/
def scatterGrans (base : Word) (off : Vec) : List Nat :=
  ((List.range 32).map fun i => laneAddr base off i / 8).eraseDups

/-- Checks the old granules of a scatter (R92). -/
def checkOlds : List Nat → M Unit
  | [] => pure ()
  | g :: r => do
    checkLm g
    checkOlds r

/-- Granule gr after the lanes of a scatter that name it, in ascending order: the higher lane remains (R92). -/
def scatterInto (base : Word) (off data : Vec) (gr : Nat) (old : Word) : Word :=
  (List.range 32).foldl (fun x i =>
    let a := laneAddr base off i
    if a / 8 = gr then mergeBytes x ((lane data i).setWidth 64 <<< (8 * (a % 8))) (maskOf (a % 8) 4) else x) old

/-- The state with the listed granules of a scatter written, each as one merge (R92). -/
def State.scatter (s : State) (base : Word) (off data : Vec) : List Nat → State
  | [] => s
  | g :: r =>
    let x := scatterInto base off data g (s.lmGran g).1
    State.scatter (s.setLm g x (sealFn x)) base off data r

/-! ## The instructions -/

/-- LDL.S8 (R89). -/
def execLdlS8 (o : BitVec 8) (a d : BitVec 5) (l : BitVec 3) (s : State) : Host.Outcome State Fault Refusal := loadLocal 4 1 true o a d l s
/-- LDL.N8 (R89). -/
def execLdlN8 (o : BitVec 8) (a d : BitVec 5) (l : BitVec 3) (s : State) : Host.Outcome State Fault Refusal := loadLocal 4 1 false o a d l s
/-- LDL.S16 (R89). -/
def execLdlS16 (o : BitVec 8) (a d : BitVec 5) (l : BitVec 3) (s : State) : Host.Outcome State Fault Refusal := loadLocal 4 2 true o a d l s
/-- LDL.N16 (R89). -/
def execLdlN16 (o : BitVec 8) (a d : BitVec 5) (l : BitVec 3) (s : State) : Host.Outcome State Fault Refusal := loadLocal 4 2 false o a d l s
/-- LDL.S32 (R89). -/
def execLdlS32 (o : BitVec 8) (a d : BitVec 5) (l : BitVec 3) (s : State) : Host.Outcome State Fault Refusal := loadLocal 4 4 true o a d l s
/-- LDL.N32 (R89). -/
def execLdlN32 (o : BitVec 8) (a d : BitVec 5) (l : BitVec 3) (s : State) : Host.Outcome State Fault Refusal := loadLocal 4 4 false o a d l s
/-- LDL.64 (R89). -/
def execLdl64 (o : BitVec 8) (a d : BitVec 5) (l : BitVec 3) (s : State) : Host.Outcome State Fault Refusal := loadLocal 4 8 false o a d l s
/-- C.LDL (R53). -/
def execCLdl (a d : BitVec 5) (s : State) : Host.Outcome State Fault Refusal := loadLocal 2 8 false 0 a d 0 s
/-- STL.8 (R90). -/
def execStl8 (o : BitVec 8) (a d : BitVec 5) (l : BitVec 3) (s : State) : Host.Outcome State Fault Refusal := storeLocal 4 1 o a d l s
/-- STL.16 (R90). -/
def execStl16 (o : BitVec 8) (a d : BitVec 5) (l : BitVec 3) (s : State) : Host.Outcome State Fault Refusal := storeLocal 4 2 o a d l s
/-- STL.32 (R90). -/
def execStl32 (o : BitVec 8) (a d : BitVec 5) (l : BitVec 3) (s : State) : Host.Outcome State Fault Refusal := storeLocal 4 4 o a d l s
/-- STL.64 (R90). -/
def execStl64 (o : BitVec 8) (a d : BitVec 5) (l : BitVec 3) (s : State) : Host.Outcome State Fault Refusal := storeLocal 4 8 o a d l s
/-- C.STL: b is the data register (R53). -/
def execCStl (a b : BitVec 5) (s : State) : Host.Outcome State Fault Refusal := storeLocal 2 8 0 a b 0 s

/-- VLDL: a move of 128 bytes (R91). -/
def execVldl (o : BitVec 8) (a d : BitVec 5) (l : BitVec 3) (s : State) : Host.Outcome State Fault Refusal :=
  finish s do
    let r ← issue l.toNat false [gR a]
    let base ← readG r a
    let ad := effAddr base o 128
    lmFaults ad 128 128 { kind := 0, size := 7 }
    landedFirst ad.toNat 128
    let v := s.lmVec (ad.toNat / 8)
    writeVarV d v.1 v.2
    retire 4

/-- VSTL: a move of 128 bytes (R91). -/
def execVstl (o : BitVec 8) (a d : BitVec 5) (l : BitVec 3) (s : State) : Host.Outcome State Fault Refusal :=
  finish s do
    let r ← issue l.toNat false [gR a, vR d]
    let base ← readG r a
    let ad := effAddr base o 128
    lmFaults ad 128 128 { kind := 1, size := 7 }
    modify fun t => t.setLms (ad.toNat / 8) (granules (r.vv d.toNat) (r.vsl d.toNat))
    retire 4

/-- VBCL: the word at a in every lane, with the syndrome of its granule (R91). -/
def execVbcl (o : BitVec 8) (a d : BitVec 5) (l : BitVec 3) (s : State) : Host.Outcome State Fault Refusal :=
  finish s do
    let r ← issue l.toNat false [gR a]
    let base ← readG r a
    let ad := effAddr base o 4
    lmFaults ad 4 4 { kind := 0, size := 2 }
    landedFirst ad.toNat 4
    let g := s.lmGran (ad.toNat / 8)
    let w : BitVec 32 := (subWord g.1 (ad.toNat % 8) 4 false).setWidth 32
    writeVarV d (vecOf (List.replicate 32 w)) (vsealsOf (List.replicate 16 (sealFn (w ++ w) ^^^ syn g.1 g.2)))
    retire 4

/-- VGATL: lane i of v[D] is the byte offset, replaced by the word it names (R92). -/
def execVgatl (o : BitVec 8) (a d : BitVec 5) (l : BitVec 3) (s : State) : Host.Outcome State Fault Refusal :=
  finish s do
    let r ← issue l.toNat false [gR a, vR d]
    let g ← readG r a
    let off ← readV r d
    let base := effAddr g o 128
    gatherBase base 0
    laneFaults base off 0 (List.range 32)
    lanesLanded base off (List.range 32)
    let v := s.gather base off
    writeVarV d v.1 v.2
    retire 4

/-- VSCATL: lane i of v[(D + 1) mod 32] is written at the offset in lane i of v[D] (R92). -/
def execVscatl (o : BitVec 8) (a d : BitVec 5) (l : BitVec 3) (s : State) : Host.Outcome State Fault Refusal :=
  finish s do
    let e : BitVec 5 := d + 1
    let r ← issue l.toNat false [gR a, vR d, vR e]
    let g ← readG r a
    let off ← readV r d
    let data ← readV r e
    let base := effAddr g o 128
    gatherBase base 1
    laneFaults base off 1 (List.range 32)
    checkOlds (scatterGrans base off)
    modify fun t => t.scatter base off data (scatterGrans base off)
    retire 4

end Sys2Proof.Machine
end

