-- ==== Sys2Proof/Machine/StreamOps.lean ====
section
/-!
DEFINITION. The operations of streams: the pattern and its elements (R130, R131), the attached arithmetic (R133), the control word and the image
(R129, R150), locations, events and recall (R146 to R148), and the match of a store or load with the core's streams (R86, R156).
-/

namespace Sys2Proof.Machine

/-! ## The pattern -/

/-- The element format of a descriptor; codes 14 and 15 never reach it (R137). -/
def Descr.format (d : Descr) : Fmt := (Fmt.ofCode d.fmt).getD .f32
/-- The format that CVTF names (R133). -/
def Descr.cvtFmt (d : Descr) : Fmt := (Fmt.ofCode d.cvtf).getD .f32
/-- Count j of a descriptor (R130). -/
def Descr.cnt (d : Descr) (j : Nat) : Nat := (d.c.getD j 1).toNat
/-- Stride j of a descriptor (R130). -/
def Descr.str (d : Descr) (j : Nat) : Word := d.t.getD j 0
/-- The elements of one pass of the affine pattern (R130). -/
def Descr.per (d : Descr) : Nat := d.cnt 0 * d.cnt 1 * d.cnt 2 * d.cnt 3
/-- The bits of one element. -/
def Descr.bits (d : Descr) : Nat := d.format.bits
/-- The bytes that an element touches. -/
def Descr.bytes (d : Descr) : Nat := if d.bits = 4 then 1 else d.bits / 8
/-- The address of element e of the affine pattern from a base, and its nibble for a 4-bit format (R130). -/
def Descr.addr (d : Descr) (base : Word) (e : Nat) : Word × Nat :=
  let i0 := e % d.cnt 0
  let r1 := e / d.cnt 0
  let r2 := r1 / d.cnt 1
  let step := fun (i : Nat) (j : Nat) => BitVec.ofNat 64 i * d.str j
  let rest := step (r1 % d.cnt 1) 1 + step (r2 % d.cnt 2) 2 + step (r2 / d.cnt 2 % d.cnt 3) 3
  if d.bits = 4 then (base + BitVec.ofNat 64 (i0 / 2) + rest, i0 % 2) else (base + step i0 0 + rest, 0)

/-- Where an element past the start of the index values lies: the index value and the element's number in its pattern (R131). -/
def locate (per : Nat) : List (Option Word) → Nat → Option (Word × Nat)
  | [], _ => none
  | none :: r, k => locate per r k
  | some x :: r, k => if k < per then some (x, k) else locate per r (k - per)

/-- The index values without those whose positions are complete: the rest, the elements past its start, the positions completed (R131). -/
def doneIdx (per : Nat) : List (Option Word) → Nat → Nat → List (Option Word) × Nat × Nat
  | [], w, n => ([], w, n)
  | none :: r, w, n => doneIdx per r w (n + 1)
  | some x :: r, w, n => if per ≤ w then doneIdx per r (w - per) (n + 1) else (some x :: r, w, n)

/-- The address and nibble of element e, at or past the frontier; none while an index is awaited (R130, R131). -/
def Stream.addr (t : Stream) (e : Nat) : Option (Word × Nat) :=
  if t.d.indir then
    match locate t.d.per t.idx (t.within + (e - t.f)) with
    | some (x, k) => some (t.d.addr (t.d.base + x * t.d.ts) k)
    | none => none
  else some (t.d.addr t.d.base e)

/-- The window of an affine pattern as offsets from base: lowest byte and one past the highest (R86). -/
def Descr.span (d : Descr) : Int × Int :=
  let ext := fun j => ((d.cnt j : Int) - 1) * (if d.bits = 4 && j == 0 then 0 else (d.str j).toInt)
  let es := (List.range 4).map ext
  let lo := es.foldl (fun m x => m + min 0 x) 0
  let hi := es.foldl (fun m x => m + max 0 x) 0
  (lo, hi + (if d.bits = 4 then ((d.cnt 0 : Int) + 1) / 2 else (d.bytes : Int)))

/-- Whether n bytes at a overlap m bytes at b. -/
def overlaps (a n b m : Nat) : Bool := a < b + m && b < a + n

/-- Whether n bytes at va lie in the window of an affine pattern; where addresses of the pattern wrap modulo 2^64 (R130), the window is every address. -/
def Descr.near (d : Descr) (va : Word) (n : Nat) : Bool :=
  let w := d.span
  let b : Int := d.base.toNat
  b + w.1 < 0 || 2 ^ 64 < b + w.2 || (b + w.1 < (va.toNat : Int) + n && (va.toNat : Int) < b + w.2)

/-- Whether n bytes at va meet an element from lo to hi - 1 of an affine stream: the window, then the elements (R86, R156). -/
def Stream.meets (t : Stream) (va : Word) (n lo hi : Nat) : Bool :=
  (0 < t.d.per && t.d.near va n) &&
    (List.range (hi - lo)).any fun i => overlaps va.toNat n (t.d.addr t.d.base (lo + i)).1.toNat t.d.bytes

/-! ## The attached operation -/

/-- Whether the attached operation is permitted for a direction and format (R133); fmt to cvtf for CVT. -/
def opOk (dir : Dir) (op : Nat) (f c : Fmt) : Bool :=
  let narrow := f = .s4 || f = .q4x
  let conv := fun (src dst : Fmt) => 8 ≤ dst.bits && ((src ≠ .s4 && src ≠ .q4x) || dst = .s8)
  match op with
  | 0 => dir ≠ .idx || f = .n32 || f = .s64
  | 1 | 2 | 3 | 5 | 6 => dir ≠ .idx && !narrow
  | 4 => match dir with
    | .src => conv f c
    | .drn => conv c f && c ≠ .q4x
    | _ => false
  | 7 => (dir = .src || dir = .upd) && !narrow
  | 8 => dir = .upd && !narrow
  | _ => false

/-- The result of the attached operation on element x, with a, b and the second stream's y, as bits, with flags (R133). -/
def Descr.apply (d : Descr) (x y : Nat) : Nat × Flags :=
  let f := d.format
  let w := f.bits
  let a := d.a.toNat % 2 ^ w
  let b := d.b.toNat % 2 ^ w
  let lt := fun p q => decide (intOf w f.signed p < intOf w f.signed q)
  if f.isFloat then match d.op.toNat with
    | 1 => mulF f x a
    | 2 => addF f x a
    | 3 => fmaF f false b x a
    | 5 => (minF f x a, 0)
    | 6 => (maxF f x a, 0)
    | 8 => addF f x y
    | _ => (x, 0)
  else match d.op.toNat with
    | 1 => (x * a % 2 ^ w, 0)
    | 2 => ((x + a) % 2 ^ w, 0)
    | 3 => ((x * a + b) % 2 ^ w, 0)
    | 5 => (if lt x a then x else a, 0)
    | 6 => (if lt a x then x else a, 0)
    | 8 => ((x + y) % 2 ^ w, 0)
    | _ => (x, 0)

/-- The sum accumulator after element x (R133). -/
def Descr.sum (d : Descr) (acc : Word) (x : Nat) : Word × Flags :=
  let f := d.format
  if f.isFloat then
    let (v, fl) := addR (unpackF .f32 (acc.toNat % 2 ^ 32)) (unpackF f x)
    let r := withFl (rneF .f32 v) fl
    (BitVec.ofNat 64 r.1, r.2)
  else (acc + BitVec.ofInt 64 (intOf f.bits f.signed x), 0)

/-- The raw bits of an element in its granule (R23). -/
def rawElem (d : Descr) (gr : Word) (va : Word) (nib : Nat) : Nat :=
  gr.toNat / 2 ^ (8 * (va.toNat % 8) + 4 * nib) % 2 ^ d.bits

/-- What a source stream delivers for a raw element: the value in the delivered format, and flags (R133, R141); nib is the
element's slot in its Q4X pair, byte the pair. -/
def Descr.deliver (d : Descr) (x byte nib : Nat) : Nat × Flags :=
  if d.op = 4 then
    if d.format = .q4x then
      let q := q4decode byte
      let r := rne d.cvtFmt (ofInt (if nib = 0 then q.1 else q.2.1))
      (r.1, r.2 ||| if q.2.2 then fQ4 else 0)
    else cvt d.format d.cvtFmt x
  else d.apply x 0

/-- The format in which a source stream delivers, and a drain takes, its elements (R141, R143). -/
def Descr.regFmt (d : Descr) : Fmt := if d.op = 4 then d.cvtFmt else d.format

/-- What a drain writes for an element taken from a register (R133, R143). -/
def Descr.drain (d : Descr) (x : Nat) : Nat × Flags :=
  if d.op = 4 then cvt d.cvtFmt d.format x else d.apply x 0

/-! ## Slots -/

/-- Stream slot k of a core. -/
def Core.stream (c : Core) (k : Nat) : Stream := tget .closed c.streams k
/-- The core with stream slot k replaced. -/
def Core.setStream (c : Core) (k : Nat) (t : Stream) : Core := { c with streams := tset .closed c.streams k t }
/-- The state with stream slot k of core n changed. -/
def State.upStream (s : State) (n k : Nat) (f : Stream → Stream) : State :=
  s.upCore n fun c => c.setStream k (f (c.stream k))
/-- The actor to which slot k of a core is assigned, with its index (R128). -/
def Core.slotOwner (c : Core) (k : Nat) : Option (Nat × Actor) :=
  (List.range 16).findSome? fun i => match c.actor i with
    | some a => if a.csr.asgSlots.getLsbD k then some (i, a) else none
    | none => none
/-- The index stream of an indirect stream. -/
def Core.indexOf (c : Core) (t : Stream) : Stream := c.stream t.d.ixs.toNat
/-- The slots bound to slot k: its index stream and its second operand stream (R138). -/
def Stream.boundSlots (t : Stream) : List Nat :=
  (if t.d.indir then [t.d.ixs.toNat] else []) ++ (if t.d.op = 8 then [t.d.slv.toNat] else [])
/-- What an element of an index stream says: none for a null index (R131). -/
def Stream.indexValue (ix : Stream) (e : Elem) : Option Word :=
  let raw := if ix.d.dir == .idx then e.val.toNat else rawElem ix.d e.gr e.va e.val.toNat
  if ix.d.format = .n32 && raw = 0xFFFFFFFF then none else some (BitVec.ofNat 64 raw)

/-- Whether position p of an index stream is passed over (R145). -/
def Stream.skipped (t : Stream) (p : Nat) : Bool := t.skips.any fun r => r.1 ≤ p && p < r.1 + r.2

/-- The elements that the index values read or pushed so far give an indirect stream (R131). -/
def Core.known (c : Core) (t : Stream) : Nat :=
  let ix := c.indexOf t
  t.f - t.within + t.d.per * ((t.idx.filter (·.isSome)).length + (ix.buf.filter fun e => (ix.indexValue e).isSome && !ix.skipped e.e).length)

/-- The total of a stream through at most n levels of index streams (R130, R131): that of an indirect stream is known when its index stream is
exhausted, that is, when every index has been pushed or read. -/
def Core.totalIn (c : Core) : Nat → Stream → Option Nat
  | 0, t => if t.d.indir then none else some t.d.per
  | n + 1, t =>
    if !t.d.indir then some t.d.per
    else match t.total with
      | some q => some q
      | none =>
        let ix := c.indexOf t
        match Core.totalIn c n ix with
        | none => none
        | some m =>
          if m ≤ (if ix.d.dir == .idx then ix.pushed else ix.read) || m ≤ t.ixpos + t.idx.length then
            some (c.known t)
          else none
/-- The total of a stream of the core; none for an indirect stream until its index stream is exhausted (R130, R131, R151). -/
def Core.total (c : Core) (t : Stream) : Option Nat := c.totalIn 16 t

/-- A stream whose counts are held to its total, and F to the elements that its index values give so far: those of an indirect one may have run past
them while they were not known, and what was pushed past the total is no element (R132, R143 to R145). -/
def Stream.heldTo (t : Stream) (total : Option Nat) (known : Nat) : Stream :=
  if !t.d.indir then t else
    let u := { t with f := min t.f known, within := t.within - (t.f - known), frec := min t.frec known }
    match total with
    | some q => { u with g := min t.g q, pushed := min t.pushed q, total := some q, f := min u.f q, frec := min u.frec q
                         buf := if t.d.dir == .drn then t.buf.filter (·.e < q) else t.buf }
    | none => u
/-- Slot k of the core with its counts held to its total. -/
def Core.slot (c : Core) (k : Nat) : Stream := (c.stream k).heldTo (c.total (c.stream k)) (c.known (c.stream k))

/-- The code of STATE (R129). -/
def SlotPhase.code : SlotPhase → Nat
  | .closed => 0
  | .opened => 1
  | .running => 2
  | .halted => 3

/-- The control word of a slot (R129). -/
def Stream.control (t : Stream) : Word :=
  let d := t.d
  let b := fun (x : Bool) (n : Nat) => if x then 2 ^ n else 0
  BitVec.ofNat 64 (t.flags.toNat * 2 ^ 48 + t.evpend.toNat * 2 ^ 45 + d.slv.toNat * 2 ^ 41 + d.ixs.toNat * 2 ^ 37 + b d.indir 36
    + b t.bound 35 + d.cvtf.toNat * 2 ^ 31 + t.loc.toNat * 2 ^ 29 + t.pin.toNat * 2 ^ 27 + t.ph.code * 2 ^ 25 + d.op.toNat * 2 ^ 21
    + d.dir.code.toNat * 2 ^ 16 + d.evmask.toNat * 2 ^ 12 + b d.evmsg 11 + d.evmb.toNat * 2 ^ 8 + b d.auto 5 + b d.row 4
    + d.fmt.toNat)

/-- The location id of a stream at the core: the core number (R151). -/
def Core.locNo (n : Nat) (t : Stream) : Nat := if t.loc = 0 then coreNumber n else t.locId

/-- The state after slot k raises event ev (1 FLOAT, 2 SINK, 4 RECALL) on core n (R147). -/
def State.streamEvent (s : State) (n k : Nat) (ev : BitVec 3) : State :=
  let t := (s.core n).stream k
  if t.d.evmask &&& ev = 0 then s
  else
    let s1 := s.upStream n k fun t => { t with evpend := t.evpend ||| ev }
    if !t.d.evmsg then s1
    else match (s.core n).slotOwner k with
      | none => s1
      | some (_, a) =>
        s1.sendHw (.event n k) a.part (a.addr ||| t.d.evmb.setWidth 32) 0xFFE0 0 1
          (sealed [BitVec.ofNat 64 (k + ev.toNat * 16 + t.loc.toNat * 256 + Core.locNo n t * 1024), BitVec.ofNat 64 t.f]) 0

/-- The stream with one entry more in its course, which holds the last 16 (R155). -/
def Stream.noteCourse (n : Nat) (reason : BitVec 2) (t : Stream) : Stream :=
  { t with course := (t.course ++ [(⟨t.loc, Core.locNo n t, t.f, reason⟩ : CourseEntry)]).drop (t.course.length + 1 - 16) }

/-- The state after slot k of core n has moved, for a reason code of its course and an event code, or none for a hop (R147, R155). -/
def State.moveStream (s : State) (n k : Nat) (loc : BitVec 2) (id : Nat) (reason : BitVec 2) (ev : BitVec 3) : State :=
  let s1 := s.upStream n k fun t =>
    ({ t with loc := loc, locId := id, frec := if loc = 0 then t.f else t.frec } : Stream).noteCourse n reason
  (s1.upCore n fun c => c.count 3 1).streamEvent n k ev

/-- A stream whose frontier has passed n more elements (R132). -/
def Stream.advance (t : Stream) (n : Nat) : Stream :=
  let t1 := { t with f := t.f + n }
  if t.d.indir then
    let q := doneIdx t.d.per t.idx (t.within + n) t.ixpos
    { t1 with idx := q.1, within := q.2.1, ixpos := q.2.2
              past := if t.bound then t.past ++ t.idx.take (q.2.2 - t.ixpos) else t.past }
  else t1

/-- Steps back by n elements: from the values of completed positions, latest first, and the values, elements past their start and completed
positions, to the same before. -/
def stepBack (per : Nat) : List (Option Word) → List (Option Word) × Nat × Nat → Nat → List (Option Word) × List (Option Word) × Nat × Nat
  | [], q, n => ([], q.1, q.2.1 - n, q.2.2)
  | x :: r, q, n =>
    if n ≤ q.2.1 then (x :: r, q.1, q.2.1 - n, q.2.2)
    else stepBack per r (x :: q.1, q.2.1 + (if x.isSome then per else 0), q.2.2 - 1) n

/-- A bound stream whose frontier steps back to f, as its reader gives elements back (R148). -/
def Stream.retreat (t : Stream) (f : Nat) : Stream :=
  let t1 := { t with buf := [], read := f, f := f, frec := f }
  if t.d.indir then
    let q := stepBack t.d.per t.past.reverse (t.idx, t.within, t.ixpos) (t.f - f)
    { t1 with past := q.1.reverse, idx := q.2.1, within := q.2.2.1, ixpos := q.2.2.2 }
  else t1

/-- The state with slot k changed by an advance or a step back; an IDX stream bound to it counts the positions completed (R132). -/
def State.progress (s : State) (n k : Nat) (f : Stream → Stream) : State :=
  let s1 := s.upStream n k f
  let t := (s1.core n).stream k
  if t.d.indir && ((s1.core n).indexOf t).d.dir == .idx then
    s1.upStream n t.d.ixs.toNat fun ix => { ix with f := t.ixpos, frec := t.ixpos }
  else s1

/-- The index stream with the values taken for incomplete positions given back, so that they are read again (R148, R162): a pushed
index returns to the push buffer, a source index stream steps back. -/
def giveBack (t ix : Stream) : Stream :=
  let first := t.ixpos
  if ix.d.dir = .idx then
    let back := (List.range t.idx.length).filterMap fun i => match t.idx.getD i none with
      | some x => some (⟨first + i, x, 0, 0, 0, false⟩ : Elem)
      | none => some ⟨first + i, 0xFFFFFFFF, 0, 0, 0, false⟩
    { ix with buf := back ++ ix.buf, read := first }
  else ix.retreat first

/-- The state with the read-ahead data of slot k of core n discarded (R148); a total that they made known stays known, and the counts stay within it. -/
def State.discardAhead (s : State) (n k : Nat) : State :=
  let c := s.core n
  let t := c.stream k
  if t.d.dir ≠ .src && !t.d.indir then s
  else
    let s1 := s.upStream n k fun _ =>
      let t := t.heldTo (c.total t) (c.known t)
      { t with buf := if t.d.dir = .src then [] else t.buf, read := if t.d.dir = .src then t.f else t.read
               idx := if t.d.indir then [] else t.idx, total := if t.d.indir then c.total t else none }
    if t.d.indir then s1.progress n t.d.ixs.toNat (giveBack t) else s1

/-- The IDX stream that feeds a stream, which runs where the stream runs (R152). -/
def Core.indexAlong (c : Core) (t : Stream) : List Nat := if t.d.indir && (c.indexOf t).d.dir == .idx then [t.d.ixs.toNat] else []
/-- Slot k with the bound streams that run where it runs: its IDX stream, and an ADD2 second stream with the IDX stream of that one (R152). -/
def Core.along (c : Core) (k : Nat) : List Nat :=
  let t := c.stream k
  k :: (c.indexAlong t ++ if t.d.op = 8 then t.d.slv.toNat :: c.indexAlong (c.stream t.d.slv.toNat) else [])
/-- The slot with which slot k runs; slot k is always among those that run there. -/
def Core.root (c : Core) (k : Nat) : Nat :=
  let up := fun (k : Nat) => ((List.range 16).find? fun j => j != k && (c.along j).contains k).getD k
  let r := up (up k)
  if (c.along r).contains k then r else k

/-- The state after slot k of core n, with all that runs where it runs, has been recalled to the core (R148), with event code ev; at the core
already, it raises no event. -/
def State.recallAs (s : State) (n k : Nat) (ev : BitVec 3) : State :=
  if ((s.core n).stream k).loc = 0 then s
  else
    let l := (s.core n).along ((s.core n).root k)
    l.foldl (fun u j => u.moveStream n j 0 (coreNumber n) 3 ev) (l.foldl (fun u j => u.discardAhead n j) s)
/-- The state after slot k of core n has been recalled to the core (R148). -/
def State.recall (s : State) (n k : Nat) : State := s.recallAs n k 4

/-- Whether a store routed to slot k is on its way to home (R156). -/
def Core.patched (c : Core) (k : Nat) : Bool := c.m.patches.any fun p => p.slots.any (·.1 == k)

/-- Whether slot k, with all that runs where it runs, stands between elements and no store routed to it is in transit, so that a recall may
complete (R148). -/
def Core.recallable (c : Core) (k : Nat) : Bool :=
  (c.along (c.root k)).all fun j => !c.patched j && (c.stream j).half.isNone

/-! ## Stores and loads that meet streams -/

/-- Whether a slot has a window: an affine SRC or UPD stream that is running or halted (R86, R156). -/
def Stream.hasWindow (t : Stream) : Bool :=
  (t.ph == .running || t.ph == .halted) && !t.d.indir && (t.d.dir == .src || t.d.dir == .upd)

/-- The slots of a core that a store of n bytes at va matches, with the grant of each at the store's issue (R156, R158). -/
def Core.matchSlots (c : Core) (va : Word) (n : Nat) : List (Nat × Nat) :=
  (List.range 16).filterMap fun k =>
    let t := c.stream k
    if t.hasWindow && t.meets va n 0 t.d.per then some (k, t.g) else none

/-- The grants of the slots of a core, slot 0 first. -/
def Core.grants (c : Core) : List Nat := (List.range 16).map fun k => (c.stream k).g

/-- Whether a load of n bytes at va waits for an update stream of the core, with the grants as they stood at its issue (R86). -/
def Core.streamHolds (c : Core) (va : Word) (n : Nat) (grants : List Nat) : Bool :=
  (List.range 16).any fun k =>
    let t := c.stream k
    t.ph == .running && !t.d.indir && t.d.dir == .upd && t.meets va n t.frec (grants.getD k 0)

/-- A granule after one granule of a store: a move where the store replaces it whole, else a lane's merge with the syndrome when a check
fails (R44, R157, R281). -/
def patchGran (old : Word × Byte) (w : GWrite) : Word × Byte × Byte :=
  if w.mask = 0xFF then (w.data, w.sl, 0) else laneMerge old (w.data, w.sl) w.mask

/-- A held element after a store to its granule (R157). -/
def patchElem (va : Word) (ws : List GWrite) (e : Elem) : Elem :=
  ws.zipIdx.foldl (fun e (w, i) =>
    if e.va.toNat / 8 = va.toNat / 8 + i then
      let r := patchGran (e.gr, e.sl) w
      { e with gr := r.1, sl := r.2.1, patched := true }
    else e) e

/-- The syndromes of the merges of a store into held elements that fail, one for a granule (R94, R286). -/
def patchFails (va : Word) (ws : List GWrite) (buf : List Elem) : List Byte :=
  ws.zipIdx.filterMap fun (w, i) =>
    match buf.find? fun e => e.va.toNat / 8 == va.toNat / 8 + i with
    | some e => let y := (patchGran (e.gr, e.sl) w).2.2
      if y = 0 then none else some y
    | none => none

/-- The state with a SEALFAULT for each failed merge of a store into what core n holds for a stream (R286; unit 1: log 70). -/
def State.patchFaults (s : State) (n : Nat) (e : StoreEntry) (l : List Byte) : State :=
  l.foldl (fun u y => u.sealFault e.part e.addr 1 n y e.va 0) s

/-- The state with the held elements of the matching source streams of core n patched by a store (R157). -/
def State.patchBufs (s : State) (n : Nat) (e : StoreEntry) : List (Nat × Nat) → State
  | [] => s
  | (k, _) :: r =>
    let t := (s.core n).stream k
    let u := if t.d.dir == .src then
        (s.upStream n k fun t => { t with buf := t.buf.map (patchElem e.va e.writes) }).patchFaults n e (patchFails e.va e.writes t.buf)
      else s
    State.patchBufs u n e r

/-- A granule read for a source stream with the stores on their way to home applied, in issue order: whether one changed it, and the
failed merges (R157). -/
def overlayPatches (gr : Nat) (x : Word × Byte) (ps : List Patch) : (Word × Byte × Bool) × List (StoreEntry × Byte) :=
  ps.foldl (fun acc p => p.st.writes.foldl (fun acc w =>
    if w.gr = gr then
      let r := patchGran (acc.1.1, acc.1.2.1) w
      ((r.1, r.2.1, true), if r.2.2 = 0 then acc.2 else acc.2 ++ [(p.st, r.2.2)])
    else acc) acc) ((x.1, x.2, false), [])

end Sys2Proof.Machine
end

