-- ==== Sys2Proof/Machine/GlobalMem.lean ====
section
/-!
DEFINITION. Global loads and stores, FREQ, PFG, cache maintenance and way conversion (R83 to R100), and the memory events: the store queue, fills,
replies, write-backs and accesses performed at a home.
-/

namespace Sys2Proof.Machine

/-- The granule numbers of n bytes at a physical address. -/
def granulesOf (pa n : Nat) : List Nat := (List.range (if n ≤ 8 then 1 else n / 8)).map fun i => pa / 8 + i

/-- Whether a request of the list touches a granule. -/
def Far.touches (f : Far) (grs : List Nat) : Bool := (granulesOf f.pa f.size).any grs.contains
/-- The virtual address of a granule that a queued store writes. -/
def StoreEntry.vaOf (e : StoreEntry) (w : GWrite) : Nat := e.va.toNat / 8192 * 8192 + 8 * w.gr % 8192
/-- Whether a queued store touches a granule. -/
def StoreEntry.touches (e : StoreEntry) (grs : List Nat) : Bool := e.writes.any fun w => grs.contains w.gr

/-- Whether a request is a load or a store. -/
def FarKind.plain : FarKind → Bool
  | .load _ | .write => true
  | _ => false
/-- Whether a request is a prefetch. -/
def FarKind.hint : FarKind → Bool
  | .prefetch _ => true
  | _ => false

/-- Whether a request, which is no prefetch, has still to be performed (R95, R240). -/
def Far.orders (f : Far) : Bool := f.reply.isNone && !f.kind.hint

/-- Whether context k has an access to one of the granules through one aperture, of a number below lim where one is given, that is not yet
performed (R95, R240). -/
def Core.earlier (c : Core) (lim : Option Nat) (k : Nat) (hd : Bool) (grs : List Nat) : Bool :=
  let old := fun (id : Nat) => match lim with
    | some n => id < n
    | none => true
  c.m.stores.any (fun e => old e.id && e.ctx == k && e.direct == hd && e.touches grs)
    || c.m.far.any (fun f => old f.id && f.ctx == k && f.hd == hd && f.orders && f.touches grs)
    || c.m.patches.any (fun p => old p.id && p.st.ctx == k && p.st.direct == hd && p.st.touches grs)

/-- Whether context k has an earlier access to one of the granules through an aperture that is not yet performed (R95, R240). -/
def Core.pendingAt (c : Core) (k : Nat) (hd : Bool) (grs : List Nat) : Bool := c.earlier none k hd grs

/-- Whether a request holds one of the 16 outstanding-miss entries (R87). -/
def Far.holdsEntry (f : Far) : Bool := match f.kind with
  | .load _ => true
  | .atomic _ _ p _ _ _ _ => !p
  | _ => false

/-- The outstanding-miss entries in use (R87). -/
def Core.misses (c : Core) : Nat := (c.m.far.filter (·.holdsEntry)).length

/-- The actor for which the acting context acts, as index and address; zero without one.  At level S it is the one that ACTSEL names, also as the issuing
actor of a store, to whose mb7 SEALFAULT goes (R94; DESIGN CHOICE, log 75). -/
def State.actorId (s : State) : Nat × BitVec 32 := (s.actIdx, match s.act with
  | some a => a.addr
  | none => 0)

/-- Whether the fill of a request is to be allocated in the core cache (R83, R97). -/
def FarKind.allocates : FarKind → Bool
  | .load _ => true
  | .prefetch clusterOnly => !clusterOnly
  | _ => false

/-- The ways of the acting core's cache to which the fills of granules are assigned, by line of 32 bytes (R83, R99). -/
def State.assign (s : State) (grs : List Nat) : Tab Nat :=
  grs.foldl (fun t g => if (t.lookup (g / 4)).isSome then t
    else tins t (g / 4) (wayFor s.c.m.cache s.c.m.open' (s.draws + t.length) g)) []

/-- Puts a request of the acting context on its way: its number. -/
def issueFar (kind : FarKind) (va : Word) (x : Xlat) (n : Nat) (direct hd : Bool) (writes : List GWrite) : M Nat := do
  let id ← freshId
  modify fun s => { s.upM fun m => { m with far := m.far ++ [
    { id := id, ctx := s.curCtx, actor := s.actorId.1, addr := s.actorId.2, part := s.c.partNo, kind := kind, va := va, pa := x.pa
      size := n, direct := direct, remote := s.remote x.pa, hd := hd, writes := writes
      ways := if kind.allocates && !direct then s.assign (granulesOf x.pa n) else [], got := [], reply := none, flags := 0, sig := none
      atHome := direct, pub := none }] } with draws := s.draws + 4 }
  pure id

/-- The state with the acting context waiting at the issue of a load or store: the grants as they first stood (R86), and its wait on a line under
page swap counted once (R375). -/
def State.waiting (s : State) (grs : List Nat) : State :=
  let fresh := grs.any s.swapping && !s.x.swapWait
  let t := s.upX fun x => { x with loadG := some (x.loadG.getD s.c.grants), swapWait := x.swapWait || fresh }
  if fresh then t.upC (·.count 4 1) else t
/-- Waits, from state s, unless b holds. -/
def holdUntil (s : State) (b : Bool) (grs : List Nat) : M Unit := if b then pure () else waitWith (s.waiting grs)

/-- The value that granules give a destination register: a move, or the carried syndrome of LDG.32 (R93). -/
def loadValue (pa n : Nat) (l : List (Word × Byte)) : Vec × VSeals :=
  if n = 128 then (vecOfPairs (l.map (·.1)), vsealsOf (l.map (·.2)))
  else
    let g := l.headD (0, 0)
    let v := narrow g.1 g.2 (pa % 8) n false
    (v.1.setWidth 1024, v.2.setWidth 128)

/-- LDG and VLDG of n bytes to register i (R93): a hit in the core cache completes at once, anything else waits for its reply (R83, R87). -/
def loadGlobal (n : Nat) (i : RegId) (o : BitVec 8) (a : BitVec 5) (l : BitVec 3) (s : State) :
    Host.Outcome State Fault Refusal :=
  finish s do
    let r ← issue l.toNat false [gR a]
    let base ← readG r a
    let ad := effAddr base o n
    let acc : Acc := { kind := 0, size := sizeCode n, glob := true }
    orTrap (ad.toNat % n == 0) 0x03 ad acc.info
    let x ← xlate ad false acc
    let grs := granulesOf x.pa n
    let t ← get
    holdUntil s (!t.c.streamHolds ad n (t.x.loadG.getD t.c.grants) && !t.c.pendingAt t.curCtx x.hd grs && !grs.any t.locked) grs
    let look := grs.map fun g => cacheAt t.c.m.cache g
    if !x.hd && look.all (·.isSome) then
      let v := loadValue x.pa n (look.filterMap fun e => e.map fun q => (q.val, q.sl))
      modify fun u => u.upX fun y => y.wrVar i v.1 v.2
    else
      holdUntil s (t.c.misses < 16) grs
      let id ← issueFar (.load i) ad x n x.hd x.hd []
      modify fun u => (u.upX fun y => y.wrLate id i none).upC fun c => if x.hd then c else c.count 2 1
    retire 4

/-- The granule writes of a store of n bytes: whole granules, or the whole source granule with a byte mask (R93). -/
def storeWrites (pa n : Nat) (data : List (Word × Byte)) : List GWrite :=
  if n = 4 then
    let g := data.headD (0, 0)
    let w := g.1 <<< (8 * (pa % 8))
    [⟨pa / 8, maskOf (pa % 8) 4, w, sealFn w ^^^ syn g.1 g.2⟩]
  else data.zipIdx.map fun (g, i) => ⟨pa / 8 + i, 0xFF, g.1, g.2⟩

/-- STG and VSTG of n bytes (R93): routed to the streams that it matches (R86, R156), else posted into the store queue (R87).  A matching store drops the
copies of its granules in either aperture: R156 has them invalidated, though R85 lets a home-direct access change no copy (DESIGN CHOICE, log 75). -/
def storeGlobal (n : Nat) (i : RegId) (o : BitVec 8) (a : BitVec 5) (l : BitVec 3) (s : State) :
    Host.Outcome State Fault Refusal :=
  finish s do
    let r ← issue l.toNat false [gR a, i]
    let base ← readG r a
    let ad := effAddr base o n
    let acc : Acc := { kind := 1, size := sizeCode n, glob := true }
    orTrap (ad.toNat % n == 0) 0x03 ad acc.info
    let x ← xlate ad true acc
    let d := r.get i
    let data := if n = 128 then granules d.1 d.2 else [(d.1.setWidth 64, d.2.setWidth 8)]
    let ws := storeWrites x.pa n data
    let t ← get
    let ms := t.c.matchSlots ad n
    holdUntil s (!ms.isEmpty || !(ws.any fun w => t.locked w.gr)) (ws.map (·.gr))
    let id ← freshId
    let e : StoreEntry := ⟨id, t.curCtx, t.actorId.1, t.actorId.2, t.c.partNo, ad, ws, x.hd, t.remote x.pa⟩
    if ms.isEmpty then
      holdUntil s (t.c.m.stores.length < 16) (ws.map (·.gr))
      modify fun u => u.upM fun m => { m with stores := m.stores ++ [e] }
    else
      modify fun u => ((u.dropCopies u.cur (ws.map (·.gr))).patchBufs u.cur e ms).upM fun m => { m with patches := m.patches ++ [⟨id, e, ms, false⟩] }
      if !x.hd then modify fun u => u.noteWrites u.cur (ws.map (·.gr))
    retire 4

/-- LDG.32 (R93). -/
def execLdg32 (o : BitVec 8) (a d : BitVec 5) (l : BitVec 3) (s : State) : Host.Outcome State Fault Refusal := loadGlobal 4 (gR d) o a l s
/-- LDG.64 (R93). -/
def execLdg64 (o : BitVec 8) (a d : BitVec 5) (l : BitVec 3) (s : State) : Host.Outcome State Fault Refusal := loadGlobal 8 (gR d) o a l s
/-- VLDG (R93). -/
def execVldg (o : BitVec 8) (a d : BitVec 5) (l : BitVec 3) (s : State) : Host.Outcome State Fault Refusal := loadGlobal 128 (vR d) o a l s
/-- STG.32 (R93). -/
def execStg32 (o : BitVec 8) (a d : BitVec 5) (l : BitVec 3) (s : State) : Host.Outcome State Fault Refusal := storeGlobal 4 (gR d) o a l s
/-- STG.64 (R93). -/
def execStg64 (o : BitVec 8) (a d : BitVec 5) (l : BitVec 3) (s : State) : Host.Outcome State Fault Refusal := storeGlobal 8 (gR d) o a l s
/-- VSTG (R93). -/
def execVstg (o : BitVec 8) (a d : BitVec 5) (l : BitVec 3) (s : State) : Host.Outcome State Fault Refusal := storeGlobal 128 (vR d) o a l s

/-- The lowest free reply tag of an actor (R96, R203). -/
def Actor.freeTag (a : Actor) : Option Nat := (List.range 16).find? fun t => !(tget .free a.tags t).used
/-- The actor with reply tag t replaced. -/
def Actor.setTag (a : Actor) (t : Nat) (v : Tag) : Actor := { a with tags := tset .free a.tags t v }
/-- Reply tag t of an actor. -/
def Actor.tag (a : Actor) (t : Nat) : Tag := tget .free a.tags t

/-- FREQ (R96): a read of 128 bytes at the home, answered to the lowest free tag.  At level S the tag is one of the actor that ACTSEL names, though
R408 does not list major 0x0E (DESIGN CHOICE, log 75). -/
def execFreq (o : BitVec 8) (a d : BitVec 5) (l : BitVec 3) (s : State) : Host.Outcome State Fault Refusal :=
  finish s do
    let r ← issue l.toNat false [gR a]
    let base ← readG r a
    let ad := effAddr base o 128
    let acc : Acc := { kind := 3, size := 7, glob := true }
    orTrap (ad.toNat % 128 == 0) 0x03 ad acc.info
    let x ← xlate ad false acc
    match s.act.bind (·.freeTag) with
    | none => writeVarG d 16
    | some t =>
      let _ ← issueFar (.freq t) ad x 128 true true []
      if (granulesOf x.pa 128).any s.swapping then modify fun u => u.upC (·.count 4 1)
      modify fun u => u.upAct fun k => k.setTag t { Tag.free with used := true, out := true, far := true }
      writeVarG d (BitVec.ofNat 64 t)
    retire 4

/-- PFG (R97): asks for the line of 128 bytes when translation and permission allow, the page is cached and a miss entry is free. -/
def execPfg (o : BitVec 8) (a : BitVec 5) (d : Bool) (l : BitVec 3) (s : State) : Host.Outcome State Fault Refusal :=
  finish s do
    let r ← issue l.toNat false [gR a]
    let ad := effAddr (r.gv a.toNat) o 128 &&& (BitVec.allOnes 64 <<< 7)
    let t ← get
    if ad.toNat / 2 ^ 56 = 0 then
      match t.translate t.cur t.c.partNo ad.toNat with
      | (.ok x, u) =>
        set u
        if x.owner == some u.c.partNo && !x.hd && u.c.misses < 16 then
          let _ ← issueFar (.prefetch d) ad x 128 false false []
      | (.error why, u) =>
        waitUntil (why != 3)
        set u
    retire 4

/-! ## Cache maintenance (R98) -/

/-- Whether physical line number ln, of n granules, lies in the virtual range, on a page that translates for the core's own
partition in the cached aperture (R98). -/
def State.lineInRange (s : State) (va len : Nat) (n : Nat) (ln : Nat) : Bool :=
  len = 2 ^ 64 - 1 || (len ≠ 0 &&
    (List.range ((va % 8192 + len - 1) / 8192 + 1)).any fun i =>
      let page := va / 8192 * 8192 + 8192 * i
      page < 2 ^ 56 && match (s.translate s.cur s.c.partNo page).1 with
        | .ok x => x.owner == some s.c.partNo && !x.hd && x.pa / 8192 == ln * 8 * n / 8192 &&
            overlaps va len (page + ln * 8 * n % 8192) (8 * n)
        | .error _ => false)

/-- Whether a store still in the store queue will write a line of n granules (R98). -/
def Core.storeTo (c : Core) (n gr : Nat) : Bool := c.m.stores.any fun e => e.writes.any fun w => w.gr / n == gr / n

/-- Whether maintenance of a virtual range acts on granule gr of a cache with lines of n granules: an invalidating form leaves the lines alone that a
queued store will write (R98). -/
def State.maintains (s : State) (va len n : Nat) (inv : Bool) (gr : Nat) : Bool := s.lineInRange va len n (gr / n) && !(inv && s.c.storeTo n gr)

/-- The state after cache maintenance on a virtual range: wb writes dirty granules back, inv invalidates, flush acts on the cluster
cache too (R98). -/
def State.maintain (s : State) (va len : Nat) (wb inv flush : Bool) : State :=
  let p := s.maintains va len 4 inv
  let q := s.maintains va len 32 true
  let s1 := if wb then s.cleanCore s.cur p else s
  let s2 := if inv then s1.dropCore s.cur p else s1
  if flush && !isEave s.cur then
    let s3 := s2.cleanCluster (clusterOf s.cur) q
    if len = 2 ^ 64 - 1 then s3 else s3.dropCluster (clusterOf s.cur) q
  else s2

/-- Whether the translation of a page of a range waits for a locked line of a page table (R249). -/
def State.walkHeld (s : State) (va len : Nat) : Bool :=
  len ≠ 2 ^ 64 - 1 && len ≠ 0 && (List.range ((va % 8192 + len - 1) / 8192 + 1)).any fun i =>
    let page := va / 8192 * 8192 + 8192 * i
    page < 2 ^ 56 && match (s.translate s.cur s.c.partNo page).1 with
      | .error 3 => true
      | _ => false

/-- Whether maintenance of a range waits for a locked line at home, or for room for what it writes back (R86, R98). -/
def State.maintainBlocked (s : State) (va len : Nat) (inv flush : Bool) : Bool :=
  let p := s.maintains va len 4 inv
  let q := s.maintains va len 32 true
  s.cleanHeld s.cur p
    || (flush && !isEave s.cur && (s.dirtyLocked (s.cluster (clusterOf s.cur)).cache q || s.dirtyLocked s.c.m.cache fun g => p g && q g))

/-- A maintenance instruction (R98). -/
def maintenance (wb inv flush : Bool) (b a : BitVec 5) (l : BitVec 3) (s : State) : Host.Outcome State Fault Refusal :=
  finish s do
    let r ← issue l.toNat false [gR a, gR b]
    let va ← readG r a
    let len ← readG r b
    waitUntil (!(wb && s.maintainBlocked va.toNat len.toNat inv flush) && !s.walkHeld va.toNat len.toNat)
    modify fun u => u.maintain va.toNat len.toNat wb inv flush
    retire 4

/-- CWB (R98). -/
def execCwb (b a : BitVec 5) (l : BitVec 3) (s : State) : Host.Outcome State Fault Refusal := maintenance true false false b a l s
/-- CINV (R98). -/
def execCinv (b a : BitVec 5) (l : BitVec 3) (s : State) : Host.Outcome State Fault Refusal := maintenance false true false b a l s
/-- CWBINV (R98). -/
def execCwbinv (b a : BitVec 5) (l : BitVec 3) (s : State) : Host.Outcome State Fault Refusal := maintenance true true false b a l s
/-- CFLUSH (R98). -/
def execCflush (b a : BitVec 5) (l : BitVec 3) (s : State) : Host.Outcome State Fault Refusal := maintenance true true true b a l s

/-- LMWIN.HI of the acting actor (R80, R346). -/
def State.hi (s : State) : Nat := match s.act with
  | some a => a.csr.hi.toNat
  | none => 0

/-- Whether a granule of a core cache lies in a way from the nth on. -/
def inWays (t : Tab Line) (n gr : Nat) : Bool := match cacheAt t gr with
  | some l => n ≤ l.way
  | none => false

/-- The state with the count of converted ways changed to n (R99): affected lines are written back and invalidated, outstanding fills that were
assigned to affected ways allocate nothing, and the affected LM reads as zero. -/
def State.convert (s : State) (n : Nat) : State :=
  let cur := s.c.m.ways
  let p := inWays s.c.m.cache (8 - n)
  let s1 := if cur < n then (s.cleanCore s.cur p).dropCore s.cur p else s
  let lo := min cur n
  s1.upM fun m => { m with
    ways := n, lm := m.lm.zero (0x10000 + 1024 * lo) (1024 * (max cur n - lo))
    far := m.far.map fun f => { f with ways := f.ways.filter fun e => e.2 < 8 - n } }

/-- CWAYS (R99). -/
def execCways (a d : BitVec 5) (l : BitVec 3) (s : State) : Host.Outcome State Fault Refusal :=
  finish s do
    let r ← issue l.toNat false [gR a]
    let g ← readG r a
    let n := g.toNat
    let cur := s.c.m.ways
    if n = cur then writeVarG d 0
    else if 7 < n then writeVarG d 1
    else if cur < n && s.hi < 64 + n then writeVarG d 2
    else
      waitUntil (!(cur < n && s.cleanHeld s.cur (inWays s.c.m.cache (8 - n))) && !s.c.storesLm s.curCtx)
      modify fun u => u.convert n
      writeVarG d 0
    retire 4

/-- CWAYQ (R100). -/
def execCwayq (d : BitVec 5) (l : BitVec 3) (s : State) : Host.Outcome State Fault Refusal :=
  finish s do
    let _ ← issue l.toNat false []
    writeG 1 d (BitVec.ofNat 64 (min 7 (s.hi - 64) * 16 + s.c.m.ways))
    retire 4

/-! ## Events of the memory system -/

/-- The core with request id removed. -/
def Core.dropFar (c : Core) (id : Nat) : Core := { c with m := { c.m with far := c.m.far.filter fun f => f.id != id } }
/-- The core with request id changed. -/
def Core.upFar (c : Core) (id : Nat) (g : Far → Far) : Core :=
  { c with m := { c.m with far := c.m.far.map fun f => if f.id = id then g f else f } }
/-- Request id of a core. -/
def Core.farOf (c : Core) (id : Nat) : Option Far := c.m.far.find? fun f => f.id = id
/-- Whether a request has an earlier access of its context to one of its granules before it (R95, R240). -/
def Core.behind (c : Core) (f : Far) : Bool := c.earlier (some f.id) f.ctx f.hd (granulesOf f.pa f.size)

/-- Whether a request to another device has an earlier request of its core to that device before it (R397, log 74). -/
def Core.onLink (c : Core) (f : Far) : Bool :=
  f.remote && c.m.far.any fun g => g.id < f.id && g.remote && (g.direct || g.atHome) && g.reply.isNone && devOf g.pa == devOf f.pa

/-- Whether a store of the queue may be performed: no earlier access of its context waits on one of its granules (R95, R239). -/
def Core.canDrain (c : Core) (e : StoreEntry) : Bool := !c.earlier (some e.id) e.ctx e.direct (e.writes.map (·.gr))

/-- The state with one granule of a store performed at the core cache of core n in a way: allocated without a fill, or merged (R83, R94). -/
def State.cacheMerge (s : State) (n way : Nat) (e : StoreEntry) (w : GWrite) : State :=
  let put := fun (u : State) (v : Word) (sl : Byte) =>
    u.upCore n fun c => { c with m := { c.m with cache := cachePut c.m.cache w.gr ⟨v, sl, true, way, e.part⟩ } }
  if w.mask = 0xFF then put s w.data w.sl
  else
    let old := match cacheAt (s.core n).m.cache w.gr with
      | some l => (l.val, l.sl)
      | none => (0, 0)
    let r := laneMerge old (w.data, w.sl) w.mask
    let s1 := put s r.1 r.2.1
    if r.2.2 = 0 then s1 else s1.sealFault e.part e.addr 1 n r.2.2 e.va 0

/-- The state with the invalid ones of granules filled in a way of the core cache from the cluster cache, where that has them (R83). -/
def State.fillCore (s : State) (n way part : Nat) (grs : List Nat) : State :=
  if isEave n then s
  else
    let k := (s.cluster (clusterOf n)).cache
    let from' := fun g => match cacheAt k g with
      | some l => (l.val, l.sl)
      | none => (0, 0)
    s.upCore n fun c => { c with m := { c.m with cache := fillLines from' way part c.m.cache (grs.filter (inCache k)) } }

/-- The core with granule i of the writes of a queued store done; a store with none left leaves the queue. -/
def Core.storeDone (c : Core) (id i : Nat) : Core :=
  { c with m := { c.m with stores := c.m.stores.filterMap fun e =>
      if e.id = id then (if e.writes.length ≤ 1 then none else some { e with writes := e.writes.eraseIdx i }) else some e } }

/-- The state with write w of a queued store performed at the core cache: a line of the cache makes room, and an STG.32 that misses first
fills its granule (R83). -/
def State.drainWrite (s : State) (n way : Nat) (e : StoreEntry) (w : GWrite) : State :=
  let s1 := s.roomCore n way w.gr
  let s2 := if w.mask = 0xFF || inCache (s.core n).m.cache w.gr then s1
    else (s1.fillCore n way e.part [w.gr]).upCore n (·.count 2 1)
  (s2.cacheMerge n way e w).noteWrites n [w.gr]

/-- STORE_QUEUE_DRAIN: a store leaves the queue for its home, or one of its granules is performed at the core cache, in an order that Config names
(R83, R85, R237, R239). -/
def execStoreQueueDrain (core id : Nat) (s : State) : Host.Outcome State Fault Refusal :=
  runEvent s do
    let c := s.core core
    let e ← needSome (c.m.stores.find? fun e => e.id = id)
    need (c.canDrain e)
    if e.direct then
      set (s.upCore core fun c => { c with m := { c.m with
        stores := c.m.stores.filter fun f => f.id != id
        far := c.m.far ++ [
          { id := id, ctx := e.ctx, actor := e.actor, addr := e.addr, part := e.part, kind := .write, va := e.va
            pa := 8 * (e.writes.headD ⟨0, 0, 0, 0⟩).gr, size := 8 * e.writes.length, direct := true, remote := e.remote, hd := true
            writes := e.writes, ways := [], got := [], reply := none, flags := 0, sig := none, atHome := true, pub := none }] } })
    else
      let i := Config.victim s.draws % e.writes.length
      let w ← needSome e.writes[i]?
      let way := wayFor c.m.cache c.m.open' (s.draws + 1) w.gr
      need (!s.locked w.gr && !s.roomBlocked core way w.gr)
      need (w.mask == 0xFF || inCache c.m.cache w.gr || (!isEave core && inCache (s.cluster (clusterOf core)).cache w.gr))
      set { ((s.drainWrite core way e w).upCore core fun c => c.storeDone id i) with draws := s.draws + 2 }

/-- Whether a queued STG.32 misses at granule gr (R83). -/
def Core.storeWants (c : Core) (gr : Nat) : Bool :=
  !inCache c.m.cache gr && c.m.stores.any fun e => !e.direct && e.writes.any fun w => w.mask != 0xFF && w.gr == gr

/-- Whether the cache from which core n fills wants granule gr from home: its 32-byte sector for a miss, a prefetch or a cluster-scope atomic, and for an STG.32 that
misses, whose granule comes last so that the store finds the whole sector (R83, R84, R97, R223).  An eave core, which has no cluster cache, fills
the granule alone (R83, R407). -/
def State.wants (s : State) (n gr : Nat) : Bool :=
  let c := s.core n
  let k := (s.cluster (clusterOf n)).cache
  (c.m.far.any fun f => !f.direct && (granulesOf f.pa f.size).any fun g => g / 4 == gr / 4)
    || (if isEave n then c.storeWants gr
      else (c.storeWants gr && (lineOf gr).all fun h => h == gr || inCache k h)
        || (lineOf gr).any fun h => h != gr && c.storeWants h && !inCache k h)

/-- Whether a fill of granule gr from another device for core n follows an earlier request of the core to that device, whose order the links keep (R397). -/
def State.fillBehind (s : State) (n gr : Nat) : Bool :=
  let c := s.core n
  s.remote (8 * gr) && c.m.far.any fun g => g.remote && (g.direct || g.atHome) && g.reply.isNone && devOf g.pa == devOf (8 * gr)
    && !(c.m.far.any fun f => f.id < g.id && !f.direct && f.touches (lineOf gr)) && !(c.m.stores.any fun e => e.id < g.id && e.touches (lineOf gr))

/-- The way in which an eave core allocates a fill of granule gr: that to which a miss is assigned, or one for an STG.32 (R83, R99). -/
def Core.wantWay (c : Core) (draw gr : Nat) : Option Nat :=
  match c.m.far.findSome? fun f => if f.direct then none else f.ways.lookup (gr / 4) with
  | some w => some (match c.m.cache.find? fun e => e.1 / 4 == gr / 4 with
      | some e => e.2.way
      | none => w)
  | none => if c.storeWants gr then some (wayFor c.m.cache c.m.open' draw gr) else none

/-- HOME_FILL_REQUEST: a cluster cache (dst below 64) or the core cache of an eave core fills an invalid granule that it wants from home (R84, R237,
R239, R407). -/
def execHomeFillRequest (dst pa : Nat) (evicts : List Nat) (s : State) : Host.Outcome State Fault Refusal :=
  runEvent s do
    let gr := pa / 8
    let users := if isEave dst then [dst] else (List.range 16).map fun i => 16 * dst + i
    let n ← needSome (users.find? fun n => s.wants n gr)
    need ((dst < 64 || isEave dst) && !s.locked gr && !s.fillBehind n gr)
    let u := (s.evictHome evicts).visit gr
    let p := (s.core n).partNo
    if isEave dst then
      let c := s.core dst
      let way ← needSome (c.wantWay s.draws gr)
      need (!s.roomBlocked dst way gr)
      let v := u.roomCore dst way gr
      set { (v.upCore dst fun k =>
          let k1 := { k with m := { k.m with cache := fillLines (u.answer p) way p k.m.cache [gr] } }
          if c.storeWants gr then k1.count 2 1 else k1) with draws := v.draws + 1 }
    else
      need (!s.noRoom dst [gr])
      set (u.fillCluster dst p [gr])

/-- Whether a request has been performed at home, or has filled its sectors, in part only: own and k are the core cache and the cluster cache from which it is
served (R237, R249). -/
def Far.half (own k : Tab Line) (f : Far) : Bool :=
  f.reply.isNone && (!f.got.isEmpty || match f.kind with
    | .write => 8 * f.writes.length < f.size
    | .load _ | .prefetch _ => !f.direct && (
        let grs := (granulesOf f.pa f.size).flatMap lineOf
        let has := fun g => inCache own g || inCache k g
        grs.any has && !grs.all has)
    | _ => false)

/-- Whether an access to a 256-byte line has been performed in part only, so that no interval of a copy or swap may begin on the line now (R249). -/
def State.midAccess (s : State) (line : Nat) : Bool :=
  s.cores.any fun (n, c) =>
    let k := if isEave n then [] else (s.cluster (clusterOf n)).cache
    (c.m.far.any fun f => f.pa / 256 == line && f.half c.m.cache k)
      || (c.m.patches.any fun p => p.begun && p.st.writes.any fun w => w.gr / 32 == line)
      || (c.m.stores.any fun e => e.writes.any fun w => w.gr / 32 == line && w.mask != 0xFF && !inCache c.m.cache w.gr && !inCache k w.gr
          && (lineOf w.gr).any (inCache k))

/-- Whether a request or queued store of the core has still to reach a line at home, so that it waits when page swap takes the line (R375). -/
def Core.waitsOn (c : Core) (line : Nat) : Nat :=
  (c.m.far.filter fun f => f.pa / 256 == line && f.reply.isNone && !f.kind.hint).length
    + (c.m.stores.filter fun e => e.writes.any fun w => w.gr / 32 == line).length
/-- The state with the waits that begin as page swap takes lines counted in their cores' event counters (R375). -/
def State.countWaits (s : State) (lines : List Nat) : State :=
  { s with cores := s.cores.map fun (n, c) =>
      let k := (lines.map c.waitsOn).sum
      (n, if k = 0 then c else c.count 4 k) }

/-- The granules of a request that have still to be read. -/
def Far.rest (f : Far) : List Nat := (granulesOf f.pa f.size).filter fun g => (f.got.lookup g).isNone
/-- The granules that a request has read, in order. -/
def Far.read (f : Far) : List (Word × Byte) := (granulesOf f.pa f.size).map fun g => (f.got.lookup g).getD (0, 0)

/-- Granule g as a cached load of core n gets it, and the state: from the core cache, from a fill of its line in the way assigned, or, where
CWAYS has taken that way, from where the fill comes with nothing allocated (R83, R99); none while it is not there. -/
def State.takeGran (s : State) (n : Nat) (f : Far) (g : Nat) : Option ((Word × Byte) × State) :=
  let t := (s.core n).m.cache
  let k := (s.cluster (clusterOf n)).cache
  let whole := (lineOf g).all (inCache t)
  match f.ways.lookup (g / 4) with
  | none => match cacheAt t g with
    | some l => some ((l.val, l.sl), s)
    | none =>
      if isEave n then (if s.locked g then none else some (s.answer f.part g, s.visit g))
      else (cacheAt k g).map fun l => ((l.val, l.sl), s)
  | some w =>
    if isEave n && !whole || !whole && s.roomBlocked n w g then none
    else if (lineOf g).all fun h => inCache t h || inCache k h then
      let way := match t.find? fun e => e.1 / 4 == g / 4 with
        | some e => e.2.way
        | none => w
      let u := if whole then s else (s.roomCore n way g).fillCore n way f.part (lineOf g)
      (cacheAt (u.core n).m.cache g).map fun l => ((l.val, l.sl), u)
    else none

/-- The state with the lines of a prefetch filled in the core cache, as far as the cluster cache has them (R97). -/
def State.prefetched (s : State) (n part : Nat) : Tab Nat → State
  | [] => s
  | (line, w) :: r =>
    let g := 4 * line
    State.prefetched (if !s.roomBlocked n w g && (lineOf g).any (inCache (s.cluster (clusterOf n)).cache) then
      let way := match (s.core n).m.cache.find? fun e => e.1 / 4 == line with
        | some e => e.2.way
        | none => w
      (s.roomCore n way g).fillCore n way part (lineOf g) else s) n part r

/-- The state with a load done: its value on its way to its register (R87). -/
def State.loaded (s : State) (core : Nat) (f : Far) (v : List (Word × Byte)) : State :=
  s.upCore core fun c => (c.dropFar f.id).setCtx f.ctx ((c.ctx f.ctx).deliver f.id (loadValue f.pa f.size v))

/-- LOAD_REPLY: a miss takes one of its granules, in an order that Config names (R83, R237), and with the last one, as a far load with its reply,
writes its destination register (R87).  A prefetch fills and is done (R97). -/
def execLoadReply (core id : Nat) (s : State) : Host.Outcome State Fault Refusal :=
  runEvent s do
    let f ← needSome ((s.core core).farOf id)
    match f.kind with
    | .load _ =>
      if f.direct then
        let v ← needSome f.reply
        set (s.loaded core f v)
      else
        need (!(s.core core).behind f)
        let g ← needSome f.rest[Config.victim s.draws % f.rest.length]?
        let r ← needSome (s.takeGran core f g)
        let f' := { f with got := tins f.got g r.1 }
        let t := { r.2 with draws := r.2.draws + 1 }
        set (if f'.rest.isEmpty then t.loaded core f f'.read else t.upCore core fun c => c.upFar id fun _ => f')
    | .prefetch clusterOnly =>
      set ((if clusterOnly || isEave core then s else s.prefetched core f.part f.ways).upCore core fun c => c.dropFar id)
    | _ => need false

/-- WRITE_BACK_ARRIVAL: replacement writes the dirty granules of a line back, whole, to the cluster cache or to home, and the line leaves
(R83, R84).  line counts 32-byte lines of a core cache, 256-byte lines of a cluster cache. -/
def execWriteBackArrival (src : Nat) (fromCore : Bool) (line : Nat) (evicts : List Nat) (s : State) :
    Host.Outcome State Fault Refusal :=
  runEvent s do
    if fromCore then
      let p := fun gr => gr / 4 == line
      need (((s.core src).m.cache.any fun e => p e.1) && !s.cleanHeld src p)
      set (((s.evictHome evicts).cleanCore src p).dropCore src p)
    else
      let p := fun gr => gr / 32 == line
      need (((s.cluster src).cache.any fun e => p e.1) && !s.dirtyLocked (s.cluster src).cache p)
      set (((s.evictHome evicts).cleanCluster src p).dropCluster src p)

/-- The state after one granule of a request, in an order that Config names, has been accessed at its home; a load gets its reply with the last; ok
false is a memory error (R85, R96, R237). -/
def State.accessHome (s : State) (core : Nat) (f : Far) (ok : Bool) : State :=
  match f.kind with
  | .load _ | .freq _ =>
    let g := f.rest.getD (Config.victim s.draws % max 1 f.rest.length) 0
    let v := if ok then s.answer f.part g else poisoned (Config.freeWord s.draws)
    let f' := { f with got := tins f.got g v }
    { s.upCore core fun c => c.upFar f.id fun _ => { f' with reply := if f'.rest.isEmpty then some f'.read else none } with draws := s.draws + 1 }
  | .write =>
    let i := Config.victim s.draws % max 1 f.writes.length
    let s1 := s.upCore core fun c =>
      if f.writes.length ≤ 1 then c.dropFar f.id else c.upFar f.id fun f => { f with writes := f.writes.eraseIdx i }
    let s2 := match f.writes[i]? with
      | some w => if ok && !s.denied f.part (8 * w.gr) then s1.homeMerge w f.part f.addr f.va else s1
      | none => s1
    { s2 with draws := s2.draws + 1 }
  | _ => s

/-- HOME_DIRECT_ACCESS: a granule of a home-direct load or store is performed at the line's home cache (R85, R237); err is an uncorrectable memory
error. -/
def execHomeDirectAccess (core id : Nat) (err : Bool) (evicts : List Nat) (s : State) : Host.Outcome State Fault Refusal :=
  runEvent s do
    let f ← needSome ((s.core core).farOf id)
    need (f.kind.plain && f.direct && !f.remote && f.reply.isNone && !(s.core core).behind f)
    need (!(granulesOf f.pa f.size).any s.locked)
    set (((s.evictHome evicts).visit (f.pa / 8)).accessHome core f (!err))

/-- REMOTE_DEVICE_ACCESS: a granule of the access travels over a Bolvan link to its device's home, which checks the partition against its own frame
state (R85, R356); without a route over ready links, or for another partition's frame, it completes as a memory error (R399, log 17).  Requests of one core to one device keep their order (R397, log 74). -/
def execRemoteDeviceAccess (core id : Nat) (routed : Bool) (s : State) : Host.Outcome State Fault Refusal :=
  runEvent s do
    let f ← needSome ((s.core core).farOf id)
    need (f.kind.plain && f.remote && f.direct && f.reply.isNone && !(s.core core).behind f && !(s.core core).onLink f)
    need (!(granulesOf f.pa f.size).any s.locked)
    set ((s.visit (f.pa / 8)).accessHome core f (routed && s.linkUp (devOf f.pa)))

/-- FREQ_READ_AT_HOME: a granule of a far request is read at the home cache at device scope (R96, R237), after earlier home-direct accesses of the
context to it (R240, log 69). -/
def execFreqReadAtHome (core id : Nat) (err : Bool) (s : State) : Host.Outcome State Fault Refusal :=
  runEvent s do
    let f ← needSome ((s.core core).farOf id)
    let isFreq := match f.kind with
      | .freq _ => true
      | _ => false
    need (isFreq && f.reply.isNone && !(s.core core).behind f && !(s.core core).onLink f && !(granulesOf f.pa f.size).any s.locked)
    set ((s.visit (f.pa / 8)).accessHome core f (!err))

end Sys2Proof.Machine
end

