-- ==== Sys2Proof/Machine/Streams.lean ====
section
/-!
DEFINITION. Stream instructions: majors 0x19 to 0x1B and C.SPOP, C.SPUSH (R135 to R151, R160).
-/

namespace Sys2Proof.Machine

/-- A STREAM trap (R160). -/
def streamTrap {α : Type} (cause slot : Nat) : M α := trapM 0x10 (BitVec.ofNat 64 cause) (BitVec.ofNat 64 slot)
/-- Traps STREAM unless b holds. -/
def orStream (b : Bool) (cause slot : Nat) : M Unit := if b then pure () else streamTrap cause slot

/-- Whether slot k is assigned to the acting actor (R128, R408). -/
def State.ownsSlot (s : State) (k : Nat) : Bool := match s.act with
  | some a => a.csr.asgSlots.getLsbD k
  | none => false

/-- The slot as an instruction that needs it open finds it: assigned (0x0C), then not closed (0x01) (R160). -/
def openSlot (k : Nat) : M Stream := do
  let s ← get
  orStream (s.ownsSlot k) 0x0C k
  let t := s.c.slot k
  orStream (t.ph != .closed) 0x01 k
  pure t

/-- The slot as an instruction that changes the descriptor finds it (R138). -/
def openDescr (k : Nat) : M Stream := do
  let t ← openSlot k
  orStream (t.ph == .opened) 0x04 k
  pure t

/-- The MMA that has still to take elements of slot k, if there is one (R301). -/
def Core.taker (c : Core) (k : Nat) : Option ArrOp := c.arr.ops.find? fun o => o.slot == some k && o.next < o.count

/-- Whether slot k is halted at an element that the next row of that MMA needs (R301). -/
def Core.rowHalted (c : Core) (k : Nat) : Bool := match c.taker k, (c.stream k).halt with
  | some o, some h => (c.stream k).ph == .halted && h < (c.stream k).f + o.k
  | _, _ => false

/-- Waits until earlier MMAs have taken their elements of slot k; where one waits at a halted element, traps (R301). -/
def awaitArray (k : Nat) : M Unit := fun s =>
  if (s.c.taker k).isNone then .ok ((), s)
  else if s.c.rowHalted k then streamTrap 0x07 k s
  else waitM s

/-- Changes slot k of the acting core. -/
def upSlot (k : Nat) (f : Stream → Stream) : M Unit := modify fun s => s.upStream s.cur k f

/-- TINFO1 of an ILLEGAL of cause 0x05 taken at execution: the consuming instruction's word (R59). -/
def fmtInfo (w : Word) : Word := w <<< 32 ||| 5

/-- The word of an instruction with a 32-bit encoding (R59). -/
def wordFor (i : Instr) : Word := match encode i with
  | .w32 w => w.setWidth 64
  | _ => 0

/-- A format code from a register or record: codes 14 and 15 trap ILLEGAL with cause 0x05 (R22, R59). -/
def fmtCode (c : Nat) (w : Word) : M Fmt :=
  match Fmt.ofCode (BitVec.ofNat 4 c) with
  | some f => pure f
  | none => trapM 0x01 (BitVec.ofNat 64 c) (fmtInfo w)

/-- SOPEN (R137). -/
def execSopen (i : Dir) (a : BitVec 5) (k : BitVec 4) (l : BitVec 3) (s : State) : Host.Outcome State Fault Refusal :=
  finish s do
    let r ← issue l.toNat false [gR a]
    let g ← readG r a
    orStream (s.ownsSlot k.toNat) 0x0C k.toNat
    orStream ((s.c.stream k.toNat).ph == .closed) 0x02 k.toNat
    orStream (g.toNat / 2 ^ 15 == 0 && g.toNat / 64 % 4 == 0) 0x08 k.toNat
    let f ← fmtCode (g.toNat % 16) (wordFor (.sopen i a k l))
    orStream (i ≠ .idx || f = .n32 || f = .s64) 0x06 k.toNat
    upSlot k.toNat fun _ => { Stream.closed with ph := .opened, d := { Descr.zero with
      dir := i, fmt := g.setWidth 4, row := g.getLsbD 4, auto := g.getLsbD 5, evmb := g.extractLsb' 8 3
      evmsg := g.getLsbD 11, evmask := g.extractLsb' 12 3 } }
    retire 4

/-- SDIM (R138); a grant that stands already stays within the total (R132). -/
def execSdim (i : BitVec 2) (b a : BitVec 5) (k : BitVec 4) (l : BitVec 3) (s : State) : Host.Outcome State Fault Refusal :=
  finish s do
    let r ← issue l.toNat false [gR a, gR b]
    let g ← readG r a
    let h ← readG r b
    let _ ← openDescr k.toNat
    orStream (g.toNat / 2 ^ 32 == 0) 0x08 k.toNat
    upSlot k.toNat fun t =>
      let d := { t.d with c := t.d.c.set i.toNat (g.setWidth 32), t := t.d.t.set i.toNat h }
      { t with d := d, g := if d.dir == .upd && !d.indir then min t.g d.per else t.g, total := none }
    retire 4

/-- SBASE (R138). -/
def execSbase (a : BitVec 5) (k : BitVec 4) (l : BitVec 3) (s : State) : Host.Outcome State Fault Refusal :=
  finish s do
    let r ← issue l.toNat false [gR a]
    let g ← readG r a
    let _ ← openDescr k.toNat
    upSlot k.toNat fun t => { t with d := { t.d with base := g } }
    retire 4

/-- Whether sk may be bound to slot k (R138): same says that it is bound to k in this role already. -/
def bindOk (k sk : Nat) (u : Stream) (same kind : Bool) : Bool :=
  sk != k && u.ph == .opened && (!u.bound || same) && kind

/-- SIDX (R138).  Where the second slot named is the one not assigned, TINFO1 of cause 0x0C is still s: R160 says 'slot' for every cause (DESIGN CHOICE,
log 77). -/
def execSidx (b : BitVec 5) (a k : BitVec 4) (l : BitVec 3) (s : State) : Host.Outcome State Fault Refusal :=
  finish s do
    let r ← issue l.toNat false [gR b]
    let h ← readG r b
    orStream (s.ownsSlot k.toNat) 0x0C k.toNat
    orStream (s.ownsSlot a.toNat) 0x0C k.toNat
    let t ← openDescr k.toNat
    let u := s.c.stream a.toNat
    let same := t.d.indir && t.d.ixs == a
    let kind := u.d.dir == .idx || (u.d.dir == .src && u.d.op == 0 && (u.d.format == .n32 || u.d.format == .s64))
    orStream (bindOk k.toNat a.toNat u same kind) 0x09 k.toNat
    if t.d.indir && !same then upSlot t.d.ixs.toNat fun o => { o with bound := false }
    upSlot a.toNat fun o => { o with bound := true }
    upSlot k.toNat fun t => { t with d := { t.d with indir := true, ixs := a, ts := h }, total := none }
    retire 4

/-- Sets the operation of a slot and releases a second stream bound by ADD2 (R138). -/
def attach (k : Nat) (t : Stream) (f : Descr → Descr) : M Unit := do
  if t.d.op = 8 then upSlot t.d.slv.toNat fun o => { o with bound := false }
  upSlot k fun t => { t with d := f t.d }

/-- SATT of an operation with g operands or none (R138). -/
def satt (op : BitVec 4) (useA useB : Bool) (b a : BitVec 5) (k : BitVec 4) (l : BitVec 3) (s : State) :
    Host.Outcome State Fault Refusal :=
  finish s do
    let r ← issue l.toNat false ((if useA then [gR a] else []) ++ (if useB then [gR b] else []))
    let x ← if useA then readG r a else pure 0
    let y ← if useB then readG r b else pure 0
    let t ← openDescr k.toNat
    orStream (opOk t.d.dir op.toNat t.d.format t.d.format) 0x06 k.toNat
    attach k.toNat t fun d => { d with op := op, a := if useA then x else d.a, b := if useB then y else d.b }
    retire 4

/-- SATT NONE (R138). -/
def execSattNone (k : BitVec 4) (l : BitVec 3) (s : State) : Host.Outcome State Fault Refusal := satt 0 false false 0 0 k l s
/-- SATT SCALE (R138). -/
def execSattScale (a : BitVec 5) (k : BitVec 4) (l : BitVec 3) (s : State) : Host.Outcome State Fault Refusal := satt 1 true false 0 a k l s
/-- SATT ADDS (R138). -/
def execSattAdds (a : BitVec 5) (k : BitVec 4) (l : BitVec 3) (s : State) : Host.Outcome State Fault Refusal := satt 2 true false 0 a k l s
/-- SATT FMAS (R138). -/
def execSattFmas (b a : BitVec 5) (k : BitVec 4) (l : BitVec 3) (s : State) : Host.Outcome State Fault Refusal := satt 3 true true b a k l s
/-- SATT MINS (R138). -/
def execSattMins (a : BitVec 5) (k : BitVec 4) (l : BitVec 3) (s : State) : Host.Outcome State Fault Refusal := satt 5 true false 0 a k l s
/-- SATT MAXS (R138). -/
def execSattMaxs (a : BitVec 5) (k : BitVec 4) (l : BitVec 3) (s : State) : Host.Outcome State Fault Refusal := satt 6 true false 0 a k l s
/-- SATT SUMR (R138). -/
def execSattSumr (k : BitVec 4) (l : BitVec 3) (s : State) : Host.Outcome State Fault Refusal := satt 7 false false 0 0 k l s

/-- SATT CVT (R135, R138). -/
def execSattCvt (a : Fmt) (k : BitVec 4) (l : BitVec 3) (s : State) : Host.Outcome State Fault Refusal :=
  finish s do
    let _ ← issue l.toNat false []
    let t ← openDescr k.toNat
    orStream (opOk t.d.dir 4 t.d.format a) 0x06 k.toNat
    attach k.toNat t fun d => { d with op := 4, cvtf := a.code }
    retire 4

/-- SATT ADD2 (R138). -/
def execSattAdd2 (a k : BitVec 4) (l : BitVec 3) (s : State) : Host.Outcome State Fault Refusal :=
  finish s do
    let _ ← issue l.toNat false []
    orStream (s.ownsSlot k.toNat) 0x0C k.toNat
    orStream (s.ownsSlot a.toNat) 0x0C k.toNat
    let t ← openDescr k.toNat
    let u := s.c.stream a.toNat
    let same := t.d.op = 8 && t.d.slv == a
    orStream (bindOk k.toNat a.toNat u same (u.d.dir == .src && u.d.fmt == t.d.fmt && u.d.op == 0)) 0x09 k.toNat
    orStream (opOk t.d.dir 8 t.d.format t.d.format) 0x06 k.toNat
    attach k.toNat t fun d => { d with op := 8, slv := a }
    upSlot a.toNat fun o => { o with bound := true }
    retire 4

/-- Whether a pattern meets R130; an index stride counts as a stride (log 30). -/
def Descr.patternOk (d : Descr) : Bool :=
  d.per < 2 ^ 48 && (if d.bits = 4 then d.format ≠ .q4x || d.cnt 0 % 2 = 0
    else d.base.toNat % d.bytes = 0 && d.t.all (fun w => w.toNat % d.bytes = 0) && (!d.indir || d.ts.toNat % d.bytes = 0))

/-- The slots that start, halt and close with slot k: those bound to it, and those bound to them (R139). -/
def Core.family (c : Core) (k : Nat) : List Nat :=
  let b := (c.stream k).boundSlots
  b ++ b.flatMap fun j => (c.stream j).boundSlots

/-- A slot as SGO starts it (R139); the grant of an indirect stream under AUTO is its total, which holds it once it is known (R132). -/
def Stream.start (t : Stream) : Stream :=
  { t with ph := .running, halt := none, read := if t.d.dir = .src then t.f else t.read
           g := if t.d.dir = .upd && t.d.auto then (if t.d.indir then 2 ^ 64 - 1 else t.d.per) else t.g }

/-- Whether a store of the actor that may overlap the stream's elements is not yet performed at home (R139); an IDX stream has none. -/
def State.storesBefore (s : State) (t : Stream) : Bool :=
  t.d.dir != .idx &&
  let near := fun (va : Word) (n : Nat) => t.d.indir || t.d.near va n
  (s.c.m.stores.any fun e => e.actor == s.actIdx && e.writes.any fun w => near (BitVec.ofNat 64 (e.vaOf w)) 8)
    || (s.c.m.far.any fun f => f.kind = .write && f.actor == s.actIdx && near f.va f.size)
    || (s.c.m.patches.any fun p => p.st.actor == s.actIdx && p.st.writes.any fun w => near (BitVec.ofNat 64 (p.st.vaOf w)) 8)

/-- The state with what the core has written sent to home: dirty granules of the core cache, and of the cluster cache those whose line P.DV
names (R139, R216). -/
def State.pushHome (s : State) : State :=
  let s1 := s.cleanCore s.cur fun _ => true
  if isEave s.cur then s1 else s1.cleanCluster (clusterOf s.cur) fun gr => (s.c.m.pdv).hits 32 gr
/-- Whether sending it waits for a locked line (R86). -/
def State.pushBlocked (s : State) : Bool :=
  s.dirtyLocked s.c.m.cache (fun _ => true) || s.cleanHeld s.cur (fun _ => true)
    || (!isEave s.cur && s.dirtyLocked (s.cluster (clusterOf s.cur)).cache fun gr => (s.c.m.pdv).hits 32 gr)

/-- Whether two totals are the same, as far as both are known (R139). -/
def sameTotal : Option Nat → Option Nat → Bool
  | some a, some b => a == b
  | _, _ => true

/-- A slot that SGO starts, with the course entry of its start, whose reason R375 gives no code (log 24). -/
def Stream.begun (n draw : Nat) (t : Stream) : Stream := t.start.noteCourse n ((Config.freeWord draw).setWidth 2)

/-- SGO (R139). -/
def execSgo (k : BitVec 4) (l : BitVec 3) (s : State) : Host.Outcome State Fault Refusal :=
  finish s do
    let _ ← issue l.toNat false []
    let t ← openSlot k.toNat
    orStream (!t.bound && t.d.dir ≠ .idx) 0x03 k.toNat
    let fam := s.c.family k.toNat
    let go := fun (u : State) =>
      { (k.toNat :: fam).foldl (fun u j => u.upStream u.cur j (Stream.begun u.cur u.draws)) u with draws := u.draws + 1 }
    match t.ph with
    | .opened =>
      let second := s.c.stream t.d.slv.toNat
      orStream (t.d.patternOk && fam.all (fun j => (s.c.stream j).d.dir ≠ .src || (s.c.stream j).d.patternOk)
        && (t.d.op ≠ 8 || sameTotal (s.c.total t) (s.c.total second))) 0x06 k.toNat
      waitUntil (!((k.toNat :: fam).any fun j => s.storesBefore (s.c.stream j)) && !s.pushBlocked)
      modify fun u => go u.pushHome
    | .halted =>
      modify fun u => (k.toNat :: fam.filter (fun j => (s.c.stream j).ph == .halted)).foldl (fun u j =>
        u.upStream u.cur j fun t => { t with ph := .running, halt := none }) u
    | _ => pure ()
    retire 4

/-- Whether everything that SCLOSE of a running stream waits for has happened (R149). -/
def Stream.drained (t : Stream) : Bool :=
  t.ph != .running || match t.d.dir with
    | .drn => t.buf.isEmpty && t.pushed ≤ t.f
    | .upd => t.g ≤ t.f
    | _ => true

/-- A closed slot with the course that it had (R155). -/
def Stream.shut (t : Stream) : Stream := { Stream.closed with course := t.course }
/-- The state with slot k closed, and the streams bound to it (R149). -/
def State.closeSlots (s : State) (ks : List Nat) : State := ks.foldl (fun u j => u.upStream u.cur j Stream.shut) s

/-- SCLOSE (R149). -/
def execSclose (a : BitVec 5) (k : BitVec 4) (l : BitVec 3) (s : State) : Host.Outcome State Fault Refusal :=
  finish s do
    let _ ← issue l.toNat false []
    let t ← openSlot k.toNat
    orStream (!t.bound) 0x09 k.toNat
    awaitArray k.toNat
    waitUntil (t.drained && s.c.recallable k.toNat)
    raise t.flags
    modify fun u => u.recallAs u.cur k.toNat 0
    modify fun u => u.closeSlots (k.toNat :: s.c.family k.toNat)
    let v : Word := if t.d.op = 7 then (if t.d.format.isFloat then (t.acc.setWidth 32).setWidth 64 else t.acc) else 0
    writeVarG a v
    retire 4

/-- Whether PIN m permits a location (R140). -/
def pinAllows (m loc : BitVec 2) : Bool :=
  m = 0 || loc = 0 || (m = 2 && loc = 1) || (m = 3 && loc ≠ 3)

/-- SPIN (R140): an excluded location is left by a recall, which waits for patches in transit (R148). -/
def execSpin (i : BitVec 2) (k : BitVec 4) (l : BitVec 3) (s : State) : Host.Outcome State Fault Refusal :=
  finish s do
    let _ ← issue l.toNat false []
    let t ← openSlot k.toNat
    waitUntil (pinAllows i t.loc || s.c.recallable k.toNat)
    upSlot k.toNat fun t => { t with pin := i }
    if !pinAllows i t.loc then modify fun u => u.recall u.cur k.toNat
    retire 4

/-! ## Moving data -/

/-- Elements left in the current dimension-0 run from position pos of the pattern (R141). -/
def Descr.runLeft (d : Descr) (pos : Nat) : Nat := d.cnt 0 - pos % d.cnt 0

/-- Whether an index stream can still supply position p, or come closer to it, without another SPUSH; a SRC index stream that is itself indirect needs the next
index of its own index stream (R141). -/
def Core.supplies (c : Core) : Nat → Stream → Nat → Bool
  | 0, _, _ => true
  | n + 1, ix, p => ix.skipped p || (ix.buf.any fun e => e.e == p)
      || (ix.d.dir == .src && ((ix.addr p).isSome || Core.supplies c n (c.indexOf ix) (ix.ixpos + ix.idx.length)))

/-- How many elements a pop takes at most, when the total is known or not (R141). -/
def Stream.popMax (t : Stream) (total : Option Nat) : Nat :=
  let n := 1024 / t.d.regFmt.bits
  let m1 := match total with
    | some q => min n (q - t.f)
    | none => n
  let m2 := if t.d.row then min m1 (t.d.runLeft (if t.d.indir then t.within else t.f)) else m1
  match t.ph, t.halt with
  | .halted, some h => min m2 (h - t.f)
  | _, _ => m2

/-- The Q4X pair of an element: its byte (R27). -/
def Elem.pairByte (e : Elem) : Nat := e.gr.toNat / 2 ^ (8 * (e.va.toNat % 8)) % 256
/-- The raw bits of an element held from a source stream; val is its nibble. -/
def Elem.raw (d : Descr) (e : Elem) : Nat := rawElem d e.gr e.va e.val.toNat
/-- Where an element lies in its granule, in 4-bit units. -/
def Elem.unit (e : Elem) : Nat := e.va.toNat % 8 * 2 + e.val.toNat

/-- Whether the elements of a pair are one whole granule in memory order, unchanged (R142). -/
def wholeGranule (w : Nat) (es : List Elem) : Bool :=
  es.length * w == 64 && es.zipIdx.all fun (e, i) =>
    !e.patched && e.unit == i * w / 4 && e.va.toNat / 8 == (es.headD ⟨0, 0, 0, 0, 0, false⟩).va.toNat / 8
      && e.gr == (es.headD ⟨0, 0, 0, 0, 0, false⟩).gr

/-- Checks the granules that contribute to a pair, each once (R142). -/
def checkGranules (slot : Nat) : List (Word × Byte × Nat) → M Unit
  | [] => pure ()
  | g :: r => do
    check g.1 g.2.1 (0x80 + slot)
    checkGranules slot r

/-- The elements of pair j when every pair holds per of them. -/
def elemsOf (per : Nat) (es : List Elem) (j : Nat) : List Elem := (es.drop (per * j)).take per

/-- Checks the pairs of a popped vector that a lane forms, in ascending order (R142). -/
def checkPopped (slot w per : Nat) (op : BitVec 4) (es : List Elem) : List Nat → M Unit
  | [] => pure ()
  | j :: r => do
    let q := elemsOf per es j
    if !(op = 0 && wholeGranule w q) then checkGranules slot ((q.map fun e => (e.gr, e.sl, e.va.toNat / 8)).eraseDups)
    checkPopped slot w per op es r

/-- The delivered values with their flags (R141). -/
def delivered (d : Descr) (es : List Elem) : List (Nat × Flags) :=
  es.map fun e => d.deliver (e.raw d) e.pairByte e.val.toNat

/-- The popped vector: elements in the low positions, zeros above, with its seals (R141, R142). -/
def poppedVec (d : Descr) (es : List Elem) : Vec × VSeals :=
  let w := d.regFmt.bits
  let per := 64 / w
  let v : Vec := BitVec.ofNat 1024 (packNat w ((delivered d es).map (·.1)))
  (v, vsealsOf ((List.range 16).map fun j =>
    let q := elemsOf per es j
    if q.isEmpty then 0
    else if d.op = 0 && wholeGranule w q then (q.headD ⟨0, 0, 0, 0, 0, false⟩).sl
    else sealFn (pair v j)))

/-- The sum accumulator after the elements, with flags (R133). -/
def sumElems (d : Descr) (acc : Word) : List Elem → Word × Flags
  | [] => (acc, 0)
  | e :: r =>
    let x := d.sum acc (e.raw d)
    let y := sumElems d x.1 r
    (y.1, x.2 ||| y.2)

/-- The state after the elements held first have been taken from source slot k of core n (R133, R141). -/
def State.takeElems (s : State) (n k : Nat) (es : List Elem) : State :=
  s.progress n k fun t =>
    let sum := if t.d.op = 7 then sumElems t.d t.acc es else (t.acc, 0)
    let t1 := t.advance es.length
    { t1 with buf := t.buf.drop es.length, acc := sum.1, frec := t1.f, read := max t.read t1.f
              flags := t.flags ||| orFlags ((delivered t.d es).map (·.2)) ||| sum.2 }

/-- Takes the next elements of a source stream for SPOP (R141): the elements. -/
def popElems (k : Nat) : M (List Elem) := do
  let s ← get
  let t ← openSlot k
  orStream (t.ph != .opened) 0x0D k
  orStream (t.d.dir == .src && !t.bound) 0x03 k
  awaitArray k
  orStream (!(t.ph == .halted && t.halt == some t.f)) 0x07 k
  let total := s.c.total t
  orStream (!(total.any fun q => q ≤ t.f)) 0x05 k
  orStream (!(t.d.indir && t.buf.isEmpty && (t.addr t.f).isNone && total.isNone
    && !s.c.supplies 16 (s.c.indexOf t) (t.ixpos + t.idx.length))) 0x0A k
  let m := t.popMax total
  waitUntil (m ≤ t.buf.length)
  let es := t.buf.take m
  checkPopped k t.d.regFmt.bits (64 / t.d.regFmt.bits) t.d.op es (List.range 16)
  modify fun u => u.takeElems u.cur k es
  pure es

/-- The lanes that hold a delivered element (R141). -/
def lanesHeld (w m : Nat) : Mask := BitVec.ofNat 32 (2 ^ ((m * w + 31) / 32) - 1)

/-- SPOP and C.SPOP (R141). -/
def popWith (len : Nat) (a : BitVec 5) (k : BitVec 4) (l : BitVec 3) (s : State) : Host.Outcome State Fault Refusal :=
  finish s do
    let _ ← issue l.toNat (len == 2) []
    let es ← popElems k.toNat
    let v := poppedVec (s.c.stream k.toNat).d es
    writeVarV a v.1 v.2
    retire len

/-- SPOP (R141). -/
def execSpop (a : BitVec 5) (k : BitVec 4) (l : BitVec 3) (s : State) : Host.Outcome State Fault Refusal := popWith 4 a k l s
/-- C.SPOP (R53). -/
def execCSpop (k : BitVec 4) (d : BitVec 5) (s : State) : Host.Outcome State Fault Refusal := popWith 2 d k 0 s

/-- SPOPK (R141). -/
def execSpopk (b : BitVec 3) (a : BitVec 5) (k : BitVec 4) (l : BitVec 3) (s : State) : Host.Outcome State Fault Refusal :=
  finish s do
    let _ ← issue l.toNat false []
    let es ← popElems k.toNat
    let d := (s.c.stream k.toNat).d
    let v := poppedVec d es
    writeVarV a v.1 v.2
    modify fun u => u.upX fun x => x.wrVar (kR b) ((lanesHeld d.regFmt.bits es.length).setWidth 1024) 0
    retire 4

/-- How many elements a push takes: those that remain, at most a vector, at most the run (R143). -/
def Stream.pushMax (t : Stream) (total : Option Nat) : Nat :=
  let n := 1024 / t.d.regFmt.bits
  let m := match total with
    | some q => min n (q - t.pushed)
    | none => n
  if t.d.row then min m (t.d.runLeft t.pushed) else m

/-- SPUSH and C.SPUSH (R143): the low elements of v[A] enter the push buffer of 8 vectors (R136). -/
def pushWith (len : Nat) (a : BitVec 5) (k : BitVec 4) (l : BitVec 3) (s : State) : Host.Outcome State Fault Refusal :=
  finish s do
    let r ← issue l.toNat (len == 2) [vR a]
    let t ← openSlot k.toNat
    orStream (t.d.dir == .drn || t.d.dir == .idx) 0x03 k.toNat
    let total := s.c.total t
    let m := t.pushMax total
    orStream (m ≠ 0) 0x05 k.toNat
    let w := t.d.regFmt.bits
    let v ← readV r a (List.range ((m * w + 63) / 64))
    waitUntil (t.buf.length + m ≤ 8 * (1024 / w))
    let es := (List.range m).map fun i =>
      (⟨t.pushed + i, BitVec.ofNat 64 (elem v w i), pair v (i * w / 64), pairSeal (r.vsl a.toNat) (i * w / 64),
        BitVec.ofNat 64 (8 * (t.pushed + i * w / 64 * (64 / w))), false⟩ : Elem)
    upSlot k.toNat fun t => { t with buf := t.buf ++ es, pushed := t.pushed + m }
    retire len

/-- SPUSH (R143). -/
def execSpush (a : BitVec 5) (k : BitVec 4) (l : BitVec 3) (s : State) : Host.Outcome State Fault Refusal := pushWith 4 a k l s
/-- C.SPUSH (R53). -/
def execCSpush (k : BitVec 4) (a : BitVec 5) (s : State) : Host.Outcome State Fault Refusal := pushWith 2 a k 0 s

/-- A count clamped to a total that is known, and else to 64 bits, which hold it (R144, R145). -/
def clampTo (total : Option Nat) (n : Nat) : Nat := match total with
  | some q => min n q
  | none => min n (2 ^ 64 - 1)

/-- SGRANT, and SGRANT.SET when f is set (R144). -/
def execSgrant (a : BitVec 5) (f : Bool) (k : BitVec 4) (l : BitVec 3) (s : State) : Host.Outcome State Fault Refusal :=
  finish s do
    let r ← issue l.toNat false [gR a]
    let g ← readG r a
    let t ← openSlot k.toNat
    orStream (t.d.dir == .upd) 0x03 k.toNat
    upSlot k.toNat fun t => { t with g := clampTo (s.c.total t) (if f then max t.g g.toNat else t.g + g.toNat) }
    retire 4

/-- SFRONT (R146). -/
def execSfront (a : BitVec 5) (k : BitVec 4) (l : BitVec 3) (s : State) : Host.Outcome State Fault Refusal :=
  finish s do
    let _ ← issue l.toNat false []
    let t ← openSlot k.toNat
    writeVarG a (BitVec.ofNat 64 t.frec)
    retire 4

/-- The most that SWAITF waits for (R146). -/
def Stream.limit (t : Stream) : Nat := match t.d.dir with
  | .upd => t.g
  | .drn => t.pushed
  | _ => t.frec

/-- SWAITF (R146); one that waits returns when its slot is closed. -/
def execSwaitf (a : BitVec 5) (k : BitVec 4) (l : BitVec 3) (s : State) : Host.Outcome State Fault Refusal :=
  finish s do
    let r ← issue l.toNat false [gR a]
    let g ← readG r a
    if s.x.swait == some k.toNat && s.ownsSlot k.toNat && (s.c.stream k.toNat).ph == .closed then retire 4
    else
      let t ← openSlot k.toNat
      if t.ph == .halted || min g.toNat t.limit ≤ t.frec then retire 4
      else waitWith (s.upX fun x => { x with swait := some k.toNat })

/-- SEVT (R147). -/
def execSevt (a : BitVec 5) (k : BitVec 4) (l : BitVec 3) (s : State) : Host.Outcome State Fault Refusal :=
  finish s do
    let _ ← issue l.toNat false []
    let t ← openSlot k.toNat
    upSlot k.toNat fun t => { t with evpend := 0 }
    writeVarG a (BitVec.ofNat 64 (t.evpend.toNat + t.loc.toNat * 16))
    retire 4

/-- SRECALL (R148). -/
def execSrecall (k : BitVec 4) (l : BitVec 3) (s : State) : Host.Outcome State Fault Refusal :=
  finish s do
    let _ ← issue l.toNat false []
    let t ← openSlot k.toNat
    waitUntil (t.loc = 0 || s.c.recallable k.toNat)
    upSlot k.toNat fun t => { t with pin := 1 }
    modify fun u => u.recall u.cur k.toNat
    retire 4

/-- A stream after SSKIP of n elements (R145).  A halted SRC stream that passes its halt element is then halted at its new F (DESIGN CHOICE, log 77). -/
def Stream.skip (t : Stream) (total : Option Nat) (n : Nat) : Stream :=
  match t.d.dir with
  | .src =>
    let m := clampTo total (t.f + n) - t.f
    let t1 := t.advance m
    { t1 with buf := t.buf.filter (fun e => t1.f ≤ e.e), read := max t.read t1.f, frec := t1.f
              skips := if t.bound then t.skips ++ [(t.f, m)] else t.skips
              halt := t.halt.map fun h => max h t1.f }
  | .upd =>
    let g := clampTo total (t.g + n)
    { t with skips := t.skips ++ [(t.g, g - t.g)], g := g }
  | _ =>
    let p := clampTo total (t.pushed + n)
    { t with skips := t.skips ++ [(t.pushed, p - t.pushed)], pushed := p }

/-- SSKIP (R145). -/
def execSskip (a : BitVec 5) (k : BitVec 4) (l : BitVec 3) (s : State) : Host.Outcome State Fault Refusal :=
  finish s do
    let r ← issue l.toNat false [gR a]
    let g ← readG r a
    let t ← openSlot k.toNat
    awaitArray k.toNat
    modify fun u => u.progress u.cur k.toNat fun t' => t'.skip (s.c.total t) g.toNat
    retire 4

/-! ## Saving and querying -/

/-- The image of a stream: sixteen words (R150). -/
def Stream.image (t : Stream) : List Word :=
  let d := t.d
  let two := fun j => BitVec.ofNat 64 (d.cnt j + d.cnt (j + 1) * 2 ^ 32)
  [t.control, d.base, d.str 0, d.str 1, d.str 2, d.str 3, two 0, two 2, d.a, d.b, BitVec.ofNat 64 t.g, BitVec.ofNat 64 t.f, t.acc, d.ts,
    BitVec.ofNat 64 (if d.dir = .drn || d.dir = .idx then t.pushed else 0), BitVec.ofNat 64 (if d.indir && t.total != some t.f then t.within else 0)]

/-- The direction that a DIR field names. -/
def dirOf (n : Nat) : Dir := (Dir.ofCode (BitVec.ofNat 3 n)).getD .src

/-- The stream that an image holds (R129, R150), at the core, unbound.  The image has no place for ranges that SSKIP passed over beyond F: they are lost, and those
elements are computed (DESIGN CHOICE, log 70); nor for the element at which a halted stream halted, which is then F (DESIGN CHOICE, log 77). -/
def Stream.ofImage (w : List Word) : Stream :=
  let g := fun i => w.getD i 0
  let c := g 0
  let half := fun (x : Word) (hi : Bool) => x.extractLsb' (if hi then 32 else 0) 32
  let ph : SlotPhase := match (c.extractLsb' 25 2).toNat with
    | 0 => .closed
    | 1 => .opened
    | 2 => .running
    | _ => .halted
  let f := (g 11).toNat
  let indir := c.getLsbD 36
  { Stream.closed with
    ph := ph, pin := c.extractLsb' 27 2, evpend := c.extractLsb' 45 3, flags := c.extractLsb' 48 6, g := (g 10).toNat, f := f, frec := f
    read := f, acc := g 12, pushed := (g 14).toNat, within := if indir then (g 15).toNat else 0
    halt := if ph = .halted then some f else none
    d := { dir := dirOf (c.extractLsb' 16 3).toNat, fmt := c.setWidth 4, op := c.extractLsb' 21 4, cvtf := c.extractLsb' 31 4
           row := c.getLsbD 4, auto := c.getLsbD 5, evmb := c.extractLsb' 8 3, evmsg := c.getLsbD 11, evmask := c.extractLsb' 12 3
           base := g 1, t := [g 2, g 3, g 4, g 5], c := [half (g 6) false, half (g 6) true, half (g 7) false, half (g 7) true]
           a := g 8, b := g 9, ts := g 13, indir := indir, ixs := c.extractLsb' 37 4, slv := c.extractLsb' 41 4 } }

/-- Whether the fixed parts of an image are valid: reserved bits, STATE, DIR and the operation (R150). -/
def imageOk (w : List Word) : Bool :=
  let c := (w.getD 0 0).toNat
  let t := Stream.ofImage w
  c / 2 ^ 54 = 0 && c / 2 ^ 19 % 4 = 0 && c / 2 ^ 15 % 2 = 0 && c / 64 % 4 = 0 && c / 2 ^ 16 % 8 < 4 && t.ph != .closed
    && opOk t.d.dir t.d.op.toNat t.d.format (if t.d.op = 4 then t.d.cvtFmt else t.d.format)

/-- SSAVE (R150). -/
def execSsave (a : BitVec 5) (k : BitVec 4) (l : BitVec 3) (s : State) : Host.Outcome State Fault Refusal :=
  finish s do
    let r ← issue l.toNat false [gR a]
    let g ← readG r a
    let t ← openSlot k.toNat
    orStream (!t.bound) 0x09 k.toNat
    lmFaults g 128 128 { kind := 1, size := 7 }
    awaitArray k.toNat
    waitUntil (s.c.recallable k.toNat && (t.buf.isEmpty || t.d.dir == .src || t.d.dir == .upd))
    modify fun u => if t.loc = 0 then u.discardAhead u.cur k.toNat else u.recall u.cur k.toNat
    let u ← get
    let t1 := u.c.stream k.toNat
    modify fun u => (u.setLms (g.toNat / 8) (sealed t1.image)).upStream u.cur k.toNat Stream.shut
    modify fun u => t.boundSlots.foldl (fun u j => u.upStream u.cur j fun o => { o with bound := false }) u
    retire 4

/-- Checks LM granules in place, n from gr. -/
def checkLms (gr : Nat) : Nat → M Unit
  | 0 => pure ()
  | n + 1 => do
    checkLm gr
    checkLms (gr + 1) n

/-- SLOAD (R150).  The image must be read before cause 0x0B can be found, so ALIGN, the LM faults and the image's seals go before it, though R160 names
them after it (DESIGN CHOICE, log 77). -/
def execSload (a : BitVec 5) (k : BitVec 4) (l : BitVec 3) (s : State) : Host.Outcome State Fault Refusal :=
  finish s do
    let r ← issue l.toNat false [gR a]
    let g ← readG r a
    orStream (s.ownsSlot k.toNat) 0x0C k.toNat
    orStream ((s.c.stream k.toNat).ph == .closed) 0x02 k.toNat
    lmFaults g 128 128 { kind := 0, size := 7 }
    landedFirst g.toNat 128
    checkLms (g.toNat / 8) 16
    let w := (s.c.m.lm.grans (g.toNat / 8) 16).map (·.1)
    let t := Stream.ofImage w
    let _ ← fmtCode t.d.fmt.toNat (wordFor (.sload a k l))
    let _ ← if t.d.op = 4 then fmtCode t.d.cvtf.toNat (wordFor (.sload a k l)) else pure .f32
    let free := fun (j : Nat) => s.ownsSlot j && j != k.toNat && (s.c.stream j).ph != .closed && !(s.c.stream j).bound
    let ix := s.c.indexOf t
    let sv := s.c.stream t.d.slv.toNat
    orStream (imageOk w
      && (!t.d.indir || (free t.d.ixs.toNat && (ix.d.dir == .idx || (ix.d.dir == .src && ix.d.op == 0
          && (ix.d.format == .n32 || ix.d.format == .s64)))))
      && (t.d.op ≠ 8 || (free t.d.slv.toNat && sv.d.dir == .src && sv.d.fmt == t.d.fmt && sv.d.op == 0))) 0x0B k.toNat
    modify fun u => t.boundSlots.foldl (fun u j => u.upStream u.cur j fun o => { o with bound := true }) u
    upSlot k.toNat fun _ => { t with ixpos := if t.d.indir then ix.f else 0 }
    retire 4

/-- SQUERY (R151).  Of a closed slot, or one not assigned, every item reads 0; R151 gives no numbers for the total and the location id there (DESIGN CHOICE,
log 77). -/
def execSquery (i : BitVec 3) (a : BitVec 5) (k : BitVec 4) (l : BitVec 3) (s : State) : Host.Outcome State Fault Refusal :=
  finish s do
    let _ ← issue l.toNat false []
    let t := if s.ownsSlot k.toNat then s.c.slot k.toNat else .closed
    let v : Word := if t.ph == .closed then 0 else match i.toNat with
      | 0 => t.control
      | 1 => match s.c.total t with
        | some n => BitVec.ofNat 64 n
        | none => BitVec.allOnes 64
      | 2 => BitVec.ofNat 64 t.g
      | 3 => BitVec.ofNat 64 t.frec
      | 4 => BitVec.ofNat 64 (Core.locNo s.cur t)
      | _ => t.acc
    writeVarG a v
    retire 4

end Sys2Proof.Machine
end

