-- ==== Sys2Proof/Machine/Sync.lean ====
section
/-!
DEFINITION. Fences, release and acquire, atomics, barriers and the watch table: majors 0x1F to 0x22 (R212 to R236, R407), but FENCE.M, which
concerns messages; and the events of atomics, barriers and timeouts.
-/

namespace Sys2Proof.Machine

/-! ## Release and acquire -/

/-- Whether a scope is device or system. -/
def isFar (sc : Scope) : Bool := sc != .cl

/-- Whether a store of actor i, or one routed to its streams, is in transit as a patch (R216, R221). -/
def Core.patchesOf (c : Core) (i : Nat) : Bool := c.m.patches.any fun p => p.st.actor == i || p.slots.any fun q =>
  match c.slotOwner q.1 with
  | some (j, _) => j == i
  | none => false

/-- Whether the streams of actor i hold granted or pushed elements not yet performed, or patches on their way (R216); halted streams count as
drained. -/
def Core.streamsBusy (c : Core) (i : Nat) : Bool :=
  let mine := fun k => match c.slotOwner k with
    | some (j, _) => j == i
    | none => false
  ((List.range 16).any fun k => mine k && (let t := c.slot k
      t.ph == .running && (match t.d.dir with
        | .upd => t.f < t.g
        | .drn => t.f < t.pushed
        | _ => false)))
    || c.patchesOf i

/-- Whether actor i has a posted atomic that is not performed (R216, R220). -/
def Core.atomicsBusy (c : Core) (i : Nat) : Bool := c.m.far.any fun f => f.actor == i && match f.kind with
  | .atomic _ _ true _ _ _ _ => true
  | _ => false

/-- Whether actor i has a cluster-scope atomic that has not executed: a release covers it, so it waits (R244). -/
def Core.clusterAtomic (c : Core) (i : Nat) : Bool := c.m.far.any fun f => f.actor == i && f.reply.isNone && match f.kind with
  | .atomic _ _ _ _ _ _ .cl => true
  | _ => false

/-- Whether a release of scope sc by actor i of the acting core still waits (R216); one of cluster scope too waits for the actor's cached stores that became
patches, which its signature covers (R213, R244). -/
def State.relWaitsOf (s : State) (i : Nat) (sc : Scope) (streams : Bool) : Bool :=
  let c := s.c
  (c.m.stores.any (·.actor == i)) || c.atomicsBusy i || c.clusterAtomic i
    || (isFar sc && streams && c.streamsBusy i)
    || (if isFar sc then c.patchesOf i else c.m.patches.any fun p => p.st.actor == i && !p.st.direct)
    || (isFar sc && c.m.far.any fun f => f.kind = .write && f.actor == i)
    || (if isFar sc then s.pushBlocked else s.cleanHeld s.cur fun _ => true)

/-- Whether a release of scope sc by the acting actor still waits (R216). -/
def State.relWaits (s : State) (sc : Scope) (streams : Bool) : Bool := s.relWaitsOf s.actIdx sc streams

/-- The write-backs of a release of scope sc (R216, R407). -/
def State.relWrites (s : State) (sc : Scope) : State :=
  if isFar sc then s.pushHome else s.cleanCore s.cur fun _ => true

/-- The state after a release, with its signature S; the pending signatures it covers are empty (R216). -/
def State.released (s : State) (sc : Scope) : Sig × State :=
  let s1 := s.relWrites sc
  let g := widened s1.draws (if isFar sc then s1.c.m.pdv else s1.c.m.pcl)
  (g, { s1.upM fun m => { m with pcl := .empty, pdv := if isFar sc then .empty else m.pdv } with draws := s1.draws + 1 })

/-- A release of scope sc: the wait, then the write-backs and the signature. -/
def releaseM (sc : Scope) (streams : Bool) : M Sig := do
  let s ← get
  waitUntil (!s.relWaits sc streams)
  let r := s.released sc
  set r.2
  pure r.1

/-- REL (R216). -/
def execRel (k : Scope) (l : BitVec 3) (s : State) : Host.Outcome State Fault Refusal :=
  finish s do
    let _ ← issue l.toNat false []
    let g ← releaseM k true
    modify fun u => u.upAct fun a => { a with pub := some (g, k) }
    retire 4

/-- Whether the context awaits a load or a non-posted atomic (R217). -/
def State.loadsOut (s : State) : Bool := s.c.m.far.any fun f => f.ctx == s.curCtx && match f.kind with
  | .load _ => true
  | .atomic _ _ false (some _) _ _ _ => true
  | _ => false

/-- The state after an acquire of scope sc (R217). -/
def State.acquired (s : State) (sc : Scope) : State :=
  let t0 := if s.x.bp || s.x.rs.isEmpty then Sig.full else s.x.rs
  let t := widened s.draws t0
  let s1 := s.applyCore s.cur t
  let s2 := if isFar sc && !isEave s.cur then s1.applyCluster (clusterOf s.cur) t else s1
  let s3 := s2.upM fun m => { m with pcl := m.pcl.union t, pdv := m.pdv.union t }
  { s3.upX fun x => { x with rs := .empty, bp := false } with draws := s.draws + 1 }

/-- Whether an acquire waits for a locked line before it can write back (R86, R214). -/
def State.acqBlocked (s : State) (sc : Scope) : Bool :=
  (s.cleanHeld s.cur fun _ => true)
    || (isFar sc && !isEave s.cur && (s.dirtyLocked s.c.m.cache (fun _ => true) || s.dirtyLocked (s.cluster (clusterOf s.cur)).cache fun _ => true))

/-- An acquire of scope sc with its waits. -/
def acquireM (sc : Scope) : M Unit := do
  let s ← get
  waitUntil (!s.loadsOut && !s.acqBlocked sc)
  modify fun u => u.acquired sc

/-- ACQ (R217). -/
def execAcq (k : Scope) (l : BitVec 3) (s : State) : Host.Outcome State Fault Refusal :=
  finish s do
    let _ ← issue l.toNat false []
    acquireM k
    retire 4

/-- What STREL, LDACQ, WATCH and WAITW record for address faults of 8 bytes (R235). -/
def syncAcc (kind : Nat) : Acc := { kind := kind, size := 3, glob := true }

/-- Whether an access of scope sc has its scope point at home (R212, R407). -/
def State.pointHome (s : State) (sc : Scope) (x : Xlat) : Bool := isFar sc || x.hd || s.remote x.pa || isEave s.cur

/-- Whether an access at home on another device waits for an earlier request of the core to that device, whose order the links keep (R397, log 74). -/
def State.linkHeld (s : State) (home : Bool) (pa : Nat) : Bool :=
  home && s.remote pa && s.c.m.far.any fun g => g.remote && (g.direct || g.atHome) && g.reply.isNone && devOf g.pa == devOf pa

/-- STREL (R218). -/
def execStrel (k : Scope) (b a : BitVec 5) (l : BitVec 3) (s : State) : Host.Outcome State Fault Refusal :=
  finish s do
    let r ← issue l.toNat false [gR a, gR b]
    let ad ← readG r a
    let v ← readG r b
    orTrap (ad.toNat % 8 == 0) 0x03 ad (syncAcc 1).info
    let x ← xlate ad true (syncAcc 1)
    let gr := x.pa / 8
    let home := s.pointHome k x
    holdUntil s (!s.locked gr && !s.c.pendingAt s.curCtx x.hd [gr]) [gr]
    waitUntil (!s.linkHeld home x.pa && (home || !s.noRoom (clusterOf s.cur) (gr :: s.c.dirtyGrans)))
    let g ← releaseM k true
    let sl := r.gsl b.toNat
    let n := s.cur
    modify fun u =>
      let u1 := u.dropCore n (· == gr)
      if u.pointHome k x then
        let u2 := if isFar k && !isEave n then u1.dropCluster (clusterOf n) (· == gr) else u1
        if u2.denied u.c.partNo x.pa then u2 else ((u2.visit gr).homePut gr v sl).mergeSig true 0 gr g
      else (u1.clusterPut (clusterOf n) gr ⟨v, sl, true, 0, u.c.partNo⟩).mergeSig false (clusterOf n) gr g
    retire 4

/-- LDACQ (R219). -/
def execLdacq (k : Scope) (a d : BitVec 5) (l : BitVec 3) (s : State) : Host.Outcome State Fault Refusal :=
  finish s do
    let r ← issue l.toNat false [gR a]
    let ad ← readG r a
    orTrap (ad.toNat % 8 == 0) 0x03 ad (syncAcc 0).info
    let x ← xlate ad false (syncAcc 0)
    let gr := x.pa / 8
    let t ← get
    holdUntil s (!t.locked gr && !t.c.pendingAt t.curCtx x.hd [gr]) [gr]
    let home := t.pointHome k x
    let q := clusterOf t.cur
    waitUntil (!t.loadsOut && !t.acqBlocked k && !t.linkHeld home x.pa && (home || !t.noRoom q (gr :: t.c.dirtyGrans)))
    if !home then modify fun u => u.fillCluster q u.c.partNo (lineOf gr) else modify fun u => u.visit gr
    let u ← get
    let v : Word × Byte :=
      if home then u.answer u.c.partNo gr
      else match cacheAt (u.cluster q).cache gr with
        | some e => (e.val, e.sl)
        | none => (0, 0)
    modify fun u => { u with draws := u.draws + 1 }
    match u.lineSig home q gr with
    | some g => modify fun u => u.upX fun y => { y with rs := y.rs.union g }
    | none => pure ()
    acquireM k
    writeVarGs d v.1 v.2
    retire 4

/-! ## Fences -/

/-- FENCE.L (R220). -/
def execFenceL (l : BitVec 3) (s : State) : Host.Outcome State Fault Refusal :=
  finish s do
    let _ ← issue l.toNat false []
    waitUntil (!(s.c.m.stores.any (·.ctx == s.curCtx)) && !s.c.storesLm s.curCtx)
    retire 4

/-- FENCE.S (R220). -/
def execFenceS (l : BitVec 3) (s : State) : Host.Outcome State Fault Refusal :=
  finish s do
    let _ ← issue l.toNat false []
    waitUntil (!s.c.streamsBusy s.actIdx)
    retire 4

/-- FENCE.A (R220). -/
def execFenceA (l : BitVec 3) (s : State) : Host.Outcome State Fault Refusal :=
  finish s do
    let _ ← issue l.toNat false []
    waitUntil (!s.c.atomicsBusy s.actIdx)
    retire 4

/-! ## Atomics -/

/-- Whether an operation scope covers a release scope (R216). -/
def covers (a b : Scope) : Bool := b.code ≤ a.code

/-- The published signature of the acting actor when an atomic of scope sc carries it (R216). -/
def State.carried (s : State) (sc : Scope) : Option Sig := match s.act.bind (·.pub) with
  | some (g, k) => if covers sc k then some g else none
  | none => none

/-- Posted atomics of context k on their way (R225). -/
def Core.posted (c : Core) (k : Nat) : Nat := (c.m.far.filter fun f => f.ctx == k && match f.kind with
  | .atomic _ _ p _ _ _ _ => p
  | _ => false).length

/-- Whether context k has an earlier access to a granule through an aperture, other than an atomic, that is not performed: atomics follow
one another in issue order at their execution point (R95, R225). -/
def Core.ordered (c : Core) (k : Nat) (hd : Bool) (gr : Nat) : Bool :=
  { c with m := { c.m with far := c.m.far.filter fun f => match f.kind with
      | .atomic .. => false
      | _ => true } }.pendingAt k hd [gr]

/-- An atomic of function fn and width w (R222, R223): the request leaves for its execution point. -/
def atomicOp (fn w : Nat) (b a d : BitVec 5) (p : Bool) (sc : Scope) (s : State) : Host.Outcome State Fault Refusal :=
  finish s do
    let cas := fn = 6
    let r ← issue 0 false ([gR a, gR b] ++ if cas then [gR d] else [])
    let ad ← readG r a
    let v ← readG r b
    let c ← if cas then readG r d else pure 0
    let acc : Acc := { kind := 1, size := sizeCode (w / 8), glob := true }
    orTrap (ad.toNat % (w / 8) == 0) 0x03 ad acc.info
    let x ← xlate ad true acc
    let gr := x.pa / 8
    let t ← get
    let home := t.pointHome sc x
    let n := t.cur
    let here := fun g => g == gr
    holdUntil s (!t.locked gr && !t.c.ordered t.curCtx x.hd gr) [gr]
    waitUntil (!t.cleanHeld n here)
    holdUntil s (if p then t.c.posted t.curCtx < 32 else t.c.misses < 16) [gr]
    modify fun u => (u.cleanCore n here).dropCore n here
    if home && !isEave n then modify fun u => (u.cleanCluster (clusterOf n) here).dropCluster (clusterOf n) here
    let carry := if p then none else t.carried sc
    if carry.isSome then modify fun u => u.upAct fun k => { k with pub := none }
    let id ← issueFar (.atomic fn w p (if p then none else some (gR d)) v c sc) ad x (w / 8) home x.hd []
    modify fun u => u.upM fun m => { m with far := m.far.map fun f => if f.id = id then { f with pub := carry } else f }
    if !p then modify fun u => u.upX fun y => y.wrLate id (gR d) none
    retire 4

/-- AADD.S32 (R224). -/
def execAaddS32 (b a d : BitVec 5) (p : Bool) (c : Scope) (s : State) : Host.Outcome State Fault Refusal := atomicOp 0 32 b a d p c s
/-- AADD.S64 (R224). -/
def execAaddS64 (b a d : BitVec 5) (p : Bool) (c : Scope) (s : State) : Host.Outcome State Fault Refusal := atomicOp 1 64 b a d p c s
/-- AMIN.S32 (R224). -/
def execAminS32 (b a d : BitVec 5) (p : Bool) (c : Scope) (s : State) : Host.Outcome State Fault Refusal := atomicOp 2 32 b a d p c s
/-- AMAX.S32 (R224). -/
def execAmaxS32 (b a d : BitVec 5) (p : Bool) (c : Scope) (s : State) : Host.Outcome State Fault Refusal := atomicOp 3 32 b a d p c s
/-- AMIN.N32 (R224). -/
def execAminN32 (b a d : BitVec 5) (p : Bool) (c : Scope) (s : State) : Host.Outcome State Fault Refusal := atomicOp 4 32 b a d p c s
/-- AXCHG (R224). -/
def execAxchg (b a d : BitVec 5) (p : Bool) (c : Scope) (s : State) : Host.Outcome State Fault Refusal := atomicOp 5 64 b a d p c s
/-- ACAS (R224). -/
def execAcas (b a d : BitVec 5) (p : Bool) (c : Scope) (s : State) : Host.Outcome State Fault Refusal := atomicOp 6 64 b a d p c s
/-- AADD.F32 (R224). -/
def execAaddF32 (b a d : BitVec 5) (p : Bool) (c : Scope) (s : State) : Host.Outcome State Fault Refusal := atomicOp 7 32 b a d p c s
/-- AOR (R224). -/
def execAor (b a d : BitVec 5) (p : Bool) (c : Scope) (s : State) : Host.Outcome State Fault Refusal := atomicOp 8 64 b a d p c s
/-- AAND (R224). -/
def execAand (b a d : BitVec 5) (p : Bool) (c : Scope) (s : State) : Host.Outcome State Fault Refusal := atomicOp 9 64 b a d p c s
/-- AXOR (R224). -/
def execAxor (b a d : BitVec 5) (p : Bool) (c : Scope) (s : State) : Host.Outcome State Fault Refusal := atomicOp 10 64 b a d p c s
/-- AMIN.N64 (R224). -/
def execAminN64 (b a d : BitVec 5) (p : Bool) (c : Scope) (s : State) : Host.Outcome State Fault Refusal := atomicOp 11 64 b a d p c s

/-- What an atomic makes of element x with operand b and compare value c, all of w bits, with its flags (R224). -/
def atomicFn (fn w x b c : Nat) : Nat × Flags :=
  match fn with
  | 0 | 1 => ((x + b) % 2 ^ w, 0)
  | 2 => (if intOf w true b < intOf w true x then b else x, 0)
  | 3 => (if intOf w true x < intOf w true b then b else x, 0)
  | 4 | 11 => (min x b, 0)
  | 5 => (b, 0)
  | 6 => (if x = c then b else x, 0)
  | 7 => addF .f32 x b
  | 8 => (x ||| b, 0)
  | 9 => (x &&& b, 0)
  | _ => (x ^^^ b, 0)

/-- The value that a non-posted atomic returns for old element x (R222). -/
def atomicResult (fn w x : Nat) : Word :=
  if fn = 0 || fn = 2 || fn = 3 then BitVec.ofInt 64 (intOf w true x) else BitVec.ofNat 64 x

/-- An atomic on a granule (R224): the new granule with its seal, the old element, the syndrome and the flags. -/
def atomicGran (fn w : Nat) (g : Word × Byte) (byte : Nat) (b c : Word) : Word × Byte × Nat × Byte × Flags :=
  let p := 8 * byte
  let x := g.1.toNat / 2 ^ p % 2 ^ w
  let n := atomicFn fn w x (b.toNat % 2 ^ w) c.toNat
  let y := syn g.1 g.2
  let v := mergeBytes g.1 (BitVec.ofNat 64 (n.1 * 2 ^ p)) (maskOf byte (w / 8))
  (v, if y = 0 then sealFn v else sealFn v ^^^ 0xA5, x, y, n.2)

/-- ATOMIC_EXECUTE: an atomic service unit runs one request at its execution point (R223 to R225). -/
def execAtomicExecute (core id : Nat) (evicts : List Nat) (s : State) : Host.Outcome State Fault Refusal :=
  runEvent s do
    let c := s.core core
    let f ← needSome (c.farOf id)
    match f.kind with
    | .atomic fn w posted _ b cmp sc =>
      let gr := f.pa / 8
      let k := clusterOf core
      need (f.reply.isNone && !s.locked gr && !c.onLink f && (f.atHome || !s.noRoom k [gr]))
      need (!(c.m.far.any fun g => g.id < id && g.actor == f.actor && g.reply.isNone && g.touches [gr] && match g.kind with
        | .atomic _ _ _ _ _ _ _ => true
        | _ => false))
      let s0 := s.evictHome evicts
      let bad := f.atHome && s.denied f.part f.pa
      let s1 := if f.atHome then s0.visit gr else s0.fillCluster k f.part (lineOf gr)
      let g : Word × Byte := if f.atHome then s1.answer f.part gr
        else match cacheAt (s1.cluster k).cache gr with
          | some e => (e.val, e.sl)
          | none => (0, 0)
      let r := atomicGran fn w g (f.pa % 8) b cmp
      let s2 := if bad then s1
        else if f.atHome then s1.homePut gr r.1 r.2.1
        else s1.clusterPut k gr ⟨r.1, r.2.1, true, 0, f.part⟩
      let s3 := if r.2.2.2.1 = 0 || bad then s2 else s2.sealFault f.part f.addr 2 (if f.atHome then 1024 + s.homeEave f.pa else core) r.2.2.2.1 f.va 0
      let sig := s.lineSig f.atHome k gr
      let s4 := match f.pub with
        | some p => s3.mergeSig f.atHome k gr p
        | none => s3
      let s5 := if sc == .cl then s4.noteWrites core [gr] else s4
      let v := atomicResult fn w r.2.2.1
      set { s5.upCore core fun q => if posted then q.dropFar id
          else q.upFar id fun f => { f with reply := some [(v, sealFn v ^^^ r.2.2.2.1)], flags := if fn = 7 then r.2.2.2.2 else 0, sig := sig } with
        draws := s.draws + 1 }
    | _ => need false

/-- ATOMIC_REPLY: the old value, the flags and the line's signature reach the context (R224); after its firing ended they go nowhere (R76). -/
def execAtomicReply (core id : Nat) (s : State) : Host.Outcome State Fault Refusal :=
  runEvent s do
    let f ← needSome ((s.core core).farOf id)
    match f.kind, f.reply with
    | .atomic _ _ false reg _ _ _, some (v :: _) =>
      set (s.upCore core fun c =>
        let c1 := c.dropFar id
        if reg.isNone then c1 else
          let x := (c1.ctx f.ctx).deliver id (v.1.setWidth 1024, v.2.setWidth 128)
          c1.setCtx f.ctx { x with fpx := x.fpx ||| f.flags, rs := match f.sig with
            | some g => x.rs.union g
            | none => x.rs })
    | _, _ => need false

/-! ## Barriers -/

/-- A BARRIER trap (R236). -/
def barrierTrap {α : Type} (cause tag : Nat) : M α := trapM 0x12 (BitVec.ofNat 64 cause) (BitVec.ofNat 64 tag)

/-- The state of tag t of the acting actor; a tag that its gang does not own traps (R229, R408). -/
def ridgeState (t : Nat) : M TagState := do
  let s ← get
  match s.act.bind (·.ridge[t]?) with
  | some q => pure q
  | none => barrierTrap 1 t

/-- The state with tag t of the acting actor in state q. -/
def State.setRidge (s : State) (t : Nat) (q : TagState) : State := s.upAct fun a => { a with ridge := a.ridge.set t q }

/-- The cycles from the last arrival to the release: 48 within one slate, 144 across the package (R227). -/
def Gang.latency (g : Gang) : Nat :=
  match g.members with
  | [] => 48
  | m :: r => if r.all fun x => slateOf x.1 == slateOf m.1 then 48 else 144

/-- The gang with one arrival more on tag t at time now (R227). -/
def Gang.arrive (now t : Nat) (g : Gang) : Gang :=
  { g with tags := g.tags.mapIdx fun i q =>
      if i = t then { q with arrived := q.arrived + 1
                             due := if q.arrived + 1 = g.members.length then some (now + g.latency) else q.due }
      else q }

/-- Gang n of the device. -/
def State.gangOf (s : State) (n : Nat) : Option Gang := s.dist.gangs.find? fun g => g.id = n
/-- The state with gang n changed. -/
def State.upGang (s : State) (n : Nat) (f : Gang → Gang) : State :=
  { s with dist := { s.dist with gangs := s.dist.gangs.map fun g => if g.id = n then f g else g } }

/-- The state with the arrival of the acting actor on tag t sent (R229). -/
def State.arrive (s : State) (t : Nat) : State :=
  let gid := match s.act with
    | some a => a.gang
    | none => 0
  let s1 := s.setRidge t .arrived
  s1.upGang gid fun g => g.arrive s.time t

/-- BARV on tag t: the checks and the arrival (R229). -/
def barv (t : Nat) : M Unit := do
  let q ← ridgeState t
  if q ≠ .idle then barrierTrap 2 t
  modify fun s => s.arrive t

/-- The end of a barrier wait on tag t (R229). -/
def State.passed (s : State) (t : Nat) : State := (s.setRidge t .idle).upX fun x => { x with bp := true }

/-- BARV (R229). -/
def execBarv (a l : BitVec 3) (s : State) : Host.Outcome State Fault Refusal :=
  finish s do
    let _ ← issue l.toNat false []
    barv a.toNat
    retire 4

/-- BARW (R229). -/
def execBarw (a l : BitVec 3) (s : State) : Host.Outcome State Fault Refusal :=
  finish s do
    let _ ← issue l.toNat false []
    let q ← ridgeState a.toNat
    if q = .idle then barrierTrap 3 a.toNat
    waitUntil (q == .released)
    modify fun u => u.passed a.toNat
    retire 4

/-- The mark of a BARVW that has sent its arrival: its address and its tag, so that it goes on as a BARW (R229). -/
def State.barvMark (s : State) (t : Nat) : Nat := s.x.pc.toNat * 8 + t

/-- BARVW: BARV, then BARW; one that waits after its arrival goes on as a BARW (R229). -/
def execBarvw (a l : BitVec 3) (s : State) : Host.Outcome State Fault Refusal :=
  finish s do
    let _ ← issue l.toNat false []
    let q ← ridgeState a.toNat
    let mark := s.barvMark a.toNat
    if s.x.barvSent = some mark && q ≠ .idle then
      waitUntil (q == .released)
      modify fun u => u.passed a.toNat
      retire 4
    else
      barv a.toNat
      waitWith ((s.arrive a.toNat).upX fun x => { x with barvSent := some mark })

/-- BARQ (R230). -/
def execBarq (a : BitVec 3) (d : BitVec 5) (l : BitVec 3) (s : State) : Host.Outcome State Fault Refusal :=
  finish s do
    let _ ← issue l.toNat false []
    let q ← ridgeState a.toNat
    let g := match s.act with
      | some k => (s.gangOf k.gang).bind fun g => g.tags[a.toNat]?
      | none => none
    let st := match q with
      | .idle => 0
      | .arrived => 1
      | .released => 2
    writeVarG d (BitVec.ofNat 64 (st + match g with
      | some t => t.gen % 2 ^ 14 * 4 + t.arrived * 2 ^ 16
      | none => 0))
    retire 4

/-- Whether a member of a gang stands where the gang's list says. -/
def State.memberHere (s : State) (gang : Nat) (m : Nat × Nat × BitVec 32) : Bool :=
  ((s.core m.1).actor m.2.1).any fun a => a.gang = gang && a.addr = m.2.2

/-- The state with the tag of every resident member of a gang that has arrived released (R227). -/
def State.releaseMembers (s : State) (t : Nat) : List (Nat × Nat × BitVec 32) → State
  | [] => s
  | (n, i, ad) :: r =>
    State.releaseMembers (s.upCore n fun c => match c.actor i with
      | some a => if a.addr = ad && a.ridge[t]? = some .arrived then c.setActor i (some { a with ridge := a.ridge.set t .released }) else c
      | none => c) t r

/-- BARRIER_RELEASE: the generation of a tag of a gang whose members have all arrived is released, the fixed time after the last arrival; a member
that is away in an image is released when it is loaded (R227). -/
def execBarrierRelease (gang tag : Nat) (s : State) : Host.Outcome State Fault Refusal :=
  runEvent s do
    let g ← needSome (s.gangOf gang)
    let t ← needSome (g.tags[tag]?)
    let due ← needSome t.due
    need (due ≤ s.time)
    let away := (g.members.filter fun m => !s.memberHere gang m).map (·.2.2)
    let s1 := s.upGang gang fun h => { h with tags := h.tags.set tag { t with arrived := 0, gen := t.gen + 1, due := none, owed := t.owed ++ away } }
    set (s1.releaseMembers tag g.members)

/-! ## The watch table -/

/-- The watch entry of the context on the granule at va (R231). -/
def State.watchOf (s : State) (va : Word) : Option (Nat × Watch) :=
  s.c.m.watch.find? fun e => e.2.ctx == s.curCtx && e.2.va == va
/-- A granule's virtual address. -/
def granVa (a : Word) : Word := a &&& (BitVec.allOnes 64 <<< 3)
/-- The state with watch entry n of the acting core armed for the context; the home cache then holds the line (R231). -/
def State.arm (s : State) (n : Nat) (gr : Nat) (va : Word) : State :=
  ((s.bring gr).upM fun m => { m with watch := tins (tdel m.watch n) n ⟨s.curCtx, gr, va, false, false⟩ }).upX fun x =>
    { x with lost := x.lost.filter (· != va.toNat) }
/-- The lowest free watch entry of the acting core. -/
def State.freeWatch (s : State) : Option Nat := (List.range 16).find? fun n => (s.c.m.watch.lookup n).isNone

/-- WATCH (R231). -/
def execWatch (a d : BitVec 5) (l : BitVec 3) (s : State) : Host.Outcome State Fault Refusal :=
  finish s do
    let r ← issue l.toNat false [gR a]
    let g ← readG r a
    let x ← xlate g false (syncAcc 0)
    let va := granVa g
    match s.watchOf va, s.freeWatch with
    | some (n, _), _ =>
      modify fun u => u.arm n (x.pa / 8) va
      writeVarG d (BitVec.ofNat 64 n)
    | none, some n =>
      modify fun u => u.arm n (x.pa / 8) va
      writeVarG d (BitVec.ofNat 64 n)
    | none, none => writeVarG d 16
    retire 4

/-- Ends a WAITW on the granule at va with a status: the entry is free, and the line's signature at home joins RS (R232). -/
def wakeUp (d : BitVec 5) (va : Word) (gr status : Nat) : M Unit := do
  modify fun u => (u.upM fun m => { m with watch := m.watch.filter fun e => !(e.2.ctx == u.curCtx && e.2.va == va) }).upX fun x =>
    { x with waitw := none, lost := x.lost.filter (· != va.toNat), rs := match u.lineSig true 0 gr with
      | some g => x.rs.union g
      | none => x.rs }
  writeVarG d (BitVec.ofNat 64 status)
  retire 4

/-- The mark of a waiting WAITW: 1 without a timeout, 2 plus the earliest time of its end with one; 0 stands for expired (R232). -/
def State.waitMark (s : State) (timeout : Nat) : Nat := if timeout = 0 then 1 else 2 + s.time + timeout

/-- WAITW (R232). -/
def execWaitw (b a d : BitVec 5) (l : BitVec 3) (s : State) : Host.Outcome State Fault Refusal :=
  finish s do
    let r ← issue l.toNat false [gR a, gR b]
    let g ← readG r a
    let h ← readG r b
    let x ← xlate g false (syncAcc 0)
    let va := granVa g
    let gr := x.pa / 8
    match s.watchOf va with
    | some (_, w) =>
      if w.hit then wakeUp d va gr 0
      else if w.lost then wakeUp d va gr 2
      else if s.x.waitw = some 0 then wakeUp d va gr 1
      else waitWith (s.upX fun y => { y with waitw := some (y.waitw.getD (s.waitMark h.toNat)) })
    | none =>
      if s.x.lost.contains va.toNat then wakeUp d va gr 2
      else match s.freeWatch with
        | none => wakeUp d va gr 3
        | some n => waitWith ((s.arm n gr va).upX fun y => { y with waitw := some (s.waitMark h.toNat) })

/-- UNWATCH (R233). -/
def execUnwatch (a : BitVec 5) (l : BitVec 3) (s : State) : Host.Outcome State Fault Refusal :=
  finish s do
    let r ← issue l.toNat false [gR a]
    let g ← readG r a
    modify fun u => u.upM fun m => { m with watch := m.watch.filter fun e => !(e.2.ctx == u.curCtx && e.2.va == granVa g) }
    retire 4

/-- WAITW_TIMEOUT: the timeout of a waiting WAITW expires (R232). -/
def execWaitwTimeout (core ctx : Nat) (s : State) : Host.Outcome State Fault Refusal :=
  runEvent s do
    let m ← needSome ((s.core core).ctx ctx).waitw
    need (2 ≤ m && m ≤ s.time + 2)
    set (s.upCore core fun c => c.setCtx ctx { c.ctx ctx with waitw := some 0 })

end Sys2Proof.Machine
end

