-- ==== Sys2Proof/Machine/Messages.lean ====
section
/-!
DEFINITION. Messaging, mailbox and actor instructions: majors 0x1C to 0x1E (R194 to R211), and FENCE.M (R220).
-/

namespace Sys2Proof.Machine

/-! ## Sending -/

/-- A MAILBOX trap (R210). -/
def mailboxTrap {α : Type} (cause : Nat) (info : Word) : M α := trapM 0x15 (BitVec.ofNat 64 cause) info

/-- What a send puts into the header and the outbound entry beyond its payload (R169, R196). -/
structure SendInfo where
  dst : BitVec 32
  typ : Nat
  flags : Nat
  tc : Nat
  xf : Nat
  rank : Nat
  weight : Nat := 0
  tiles : List TileRef := []
  kind : MsgKind := .plain
  multi : Bool := false
  sender : BitVec 32
  len : Nat
  deriving DecidableEq, Repr

/-- The state with a message of actor a in a free outbound entry, carrying the published signature unless it is multi-part (R178, R183, R307);
the signature and SIG are the actor's next send's. -/
def State.post (s : State) (core idx : Nat) (a : Actor) (i : SendInfo) (payload : List (Word × Byte)) : State :=
  let sig := if i.multi then none else a.pub.map (·.1)
  let flags := i.flags + (if sig.isSome then 128 else 0) + if i.multi then 8 else 0
  let m : Msg := ⟨s.dist.next, i.kind, core, a.addr, a.part, i.dst, i.tc,
    mkHeader i.sender.toNat i.typ flags (i.xf + 8 * i.tc) i.len i.rank i.dst.toNat, payload, i.weight, i.tiles, sig, i.multi, 0, .flying⟩
  let s1 := s.upCore core fun c => { c with outbound := c.outbound ++ [m] }
  let s2 := if i.multi then s1 else s1.upActor core idx fun a => { a with pub := none }
  { s2 with dist := { s2.dist with next := s2.dist.next + 1 } }

/-- Whether a core has a free outbound entry (R183). -/
def Core.outFree (c : Core) : Bool := c.outbound.length < 32

/-- What makes the six sends differ (R196), and JADD and REPLY (R197, R207). -/
inductive SendKind where
  | plain
  | request (tag : Word)
  | weighted
  | tiles
  | gang
  | join (rank : Nat)
  | reply (tag : Nat)
  deriving DecidableEq, Repr

/-- Whether an address operand is one that no send accepts (R20, R195). -/
def badDest (t : Word) : Bool := t.toNat / 2 ^ 48 ≠ 0 || 0xFFE0 ≤ t.toNat / 2 ^ 32 || t.getLsbD 3

/-- LM faults of an LDL.64 at each of n granules from address a (R89, R195). -/
def granFaults (a : Word) : Nat → M Unit
  | 0 => pure ()
  | n + 1 => do
    lmFaults a 8 8 { kind := 0, size := 3 }
    granFaults (a + 8) n

/-- The tiles that a SENDT payload lists; none when the list is malformed or a handle invalid (R196). -/
def tileList (a : Actor) (p : List (Word × Byte)) : Option (List TileRef) :=
  let w := fun i => (p.getD i (0, 0)).1.toNat
  let n := w 0
  if n = 0 || 8 < n || 8 * p.length < 8 + 16 * n then none
  else (List.range n).mapM fun j =>
    let x := w (1 + 2 * j)
    let y := w (2 + 2 * j)
    match a.tlrOf (x % 2 ^ 32) with
    | none => none
    | some r =>
      if tileCount r ≤ x / 2 ^ 32 || y / 2 ^ 32 ≠ 0 || y % 128 ≠ 0 then none
      else some ⟨x % 2 ^ 32, r, x / 2 ^ 32, y % 2 ^ 32⟩

/-- The actor address of gang member i, without a mailbox. -/
def State.member (s : State) (a : Actor) (i : Nat) : Option (BitVec 32) :=
  ((s.gangOf a.gang).bind fun g => g.members[i]?).map fun m => m.2.2

/-- The checks that can still fail and the header of a send (R196, R197): the status, or what to send. -/
def sendInfo (k : SendKind) (a : Actor) (t : Word) (tc xf len : Nat) (p : List (Word × Byte)) : M (Except Nat SendInfo) := do
  let s ← get
  let base : SendInfo := { dst := t.setWidth 32, typ := t.toNat / 2 ^ 32 % 2 ^ 16, flags := 0, tc := tc, xf := xf, rank := a.rank
                           sender := a.addr, len := len }
  match k with
  | .plain => pure (.ok base)
  | .request g =>
    let tag := tget .free a.tags (g.toNat % 16)
    if g.toNat / 16 ≠ 0 || tag.bind.isNone || tag.out then pure (.error 2)
    else pure (.ok { base with flags := 64, rank := g.toNat })
  | .weighted =>
    if a.csr.w = 0 then pure (.error 3)
    else if a.csr.w = 1 then trapM 0x0F 1 0
    else pure (.ok { base with flags := 1, weight := a.csr.w / 2 })
  | .tiles => match tileList a p with
    | some l => pure (.ok { base with flags := 4, tiles := l })
    | none => pure (.error 2)
  | .gang =>
    if t.toNat / 2 ^ 24 % 256 ≠ 0 then pure (.error 2)
    else match s.member a (t.toNat / 16 % 2 ^ 20) with
      | some m => pure (.ok { base with dst := BitVec.ofNat 32 (s.devNum.toNat * 2 ^ 24 + m.toNat % 2 ^ 24 / 16 * 16 + t.toNat % 8) })
      | none => pure (.error 2)
  | .join r => pure (.ok { base with rank := r })
  | .reply g => pure (.ok { base with flags := 2, rank := g, kind := .reply })

/-- Queues a message of the acting actor, or status 1 where no outbound entry is free (R183, R195, R196). -/
def commitSend (k : SendKind) (a : Actor) (i : SendInfo) (p : List (Word × Byte)) : M Nat := do
  let s ← get
  if !s.c.outFree then pure 1
  else
    modify fun u =>
      let u1 := u.post u.cur u.actIdx a i p
      match k with
      | .request g => u1.upAct fun b => { b with tags := tset .free b.tags g.toNat { tget .free b.tags g.toNat with out := true, landed := none, sig := none } }
      | .weighted => u1.upAct fun b => { b with csr := { b.csr with w := a.csr.w - a.csr.w / 2 } }
      | _ => u1
    pure 0

/-- The status of a send whose payload lies in LM (R195): size class z, destination operand t, payload operand g. -/
def sendLm (k : SendKind) (z tc : Nat) (t g : Word) : M Nat := do
  let s ← get
  match s.act with
  | none => pure 2
  | some a =>
    if badDest t || g.getLsbD 3 || 6 ≤ g.toNat % 8 then pure 2
    else
      let ad := g &&& (BitVec.allOnes 64 <<< 4)
      let n := 16 * 4 ^ z
      granFaults ad (n / 8)
      let p := s.c.m.lm.grans (ad.toNat / 8) (n / 8)
      match ← sendInfo k a t tc (g.toNat % 8) n p with
      | .error e => pure e
      | .ok i => commitSend k a i p

/-- A send from LM: its registers, then the status to g[D] (R195). -/
def sendWith (readD : Bool) (k : Word → SendKind) (z : BitVec 3) (b a d : BitVec 5) (tc : Nat) (s : State) :
    Host.Outcome State Fault Refusal :=
  finish s do
    let r ← issue 0 false ((if readD then [gR d] else []) ++ [gR a, gR b])
    let x ← if readD then readG r d else pure 0
    let t ← readG r a
    let g ← readG r b
    let st ← sendLm (k x) z.toNat tc t g
    writeVarG d (BitVec.ofNat 64 st)
    retire 4

/-- SEND (R195). -/
def execSend (z : BitVec 3) (b a d : BitVec 5) (t : BitVec 2) (s : State) : Host.Outcome State Fault Refusal :=
  sendWith false (fun _ => .plain) z b a d t.toNat s
/-- SENDR (R196). -/
def execSendr (z : BitVec 3) (b a d : BitVec 5) (t : BitVec 2) (s : State) : Host.Outcome State Fault Refusal :=
  sendWith true .request z b a d t.toNat s
/-- SENDW (R188, R196). -/
def execSendw (z : BitVec 3) (b a d : BitVec 5) (t : BitVec 2) (s : State) : Host.Outcome State Fault Refusal :=
  sendWith false (fun _ => .weighted) z b a d t.toNat s
/-- SENDT (R196). -/
def execSendt (z : BitVec 3) (b a d : BitVec 5) (t : BitVec 2) (s : State) : Host.Outcome State Fault Refusal :=
  sendWith false (fun _ => .tiles) z b a d t.toNat s
/-- SENDG (R196). -/
def execSendg (z : BitVec 3) (b a d : BitVec 5) (t : BitVec 2) (s : State) : Host.Outcome State Fault Refusal :=
  sendWith false (fun _ => .gang) z b a d t.toNat s

/-- SENDV: the payload is v[B] with its seals (R196). -/
def execSendv (b a d : BitVec 5) (t : BitVec 2) (s : State) : Host.Outcome State Fault Refusal :=
  finish s do
    let r ← issue 0 false [gR a, vR b]
    let g ← readG r a
    let u ← get
    let p := (List.range 16).map fun j => (pair (r.vv b.toNat) j, pairSeal (r.vsl b.toNat) j)
    let st ← match u.act with
      | none => pure 2
      | some k =>
        if badDest g then pure 2
        else match ← sendInfo .plain k g t.toNat 0 128 p with
          | .error e => pure e
          | .ok i => commitSend .plain k i p
    writeVarG d (BitVec.ofNat 64 st)
    retire 4

/-- REPLY (R197). -/
def execReply (z : BitVec 3) (b a d : BitVec 5) (s : State) : Host.Outcome State Fault Refusal :=
  finish s do
    let r ← issue 0 false [gR a, gR b]
    let t ← readG r a
    let g ← readG r b
    let st ← if t.toNat / 2 ^ 36 ≠ 0 then pure 2 else sendLm (.reply (t.toNat / 2 ^ 32 % 16)) z.toNat 0 t g
    writeVarG d (BitVec.ofNat 64 st)
    retire 4

/-- JADD (R207). -/
def execJadd (b a d : BitVec 5) (l : BitVec 3) (s : State) : Host.Outcome State Fault Refusal :=
  finish s do
    let r ← issue l.toNat false [gR d, gR a, gR b]
    let x ← readG r d
    let t ← readG r a
    let g ← readG r b
    let z := x.toNat / 2 ^ 16
    let st ← if 4 < z then pure 2 else sendLm (.join (x.toNat % 2 ^ 16)) z 1 t g
    writeVarG d (BitVec.ofNat 64 st)
    retire 4

/-- FWD (R198): the firing's message again, as it landed.  In a context that holds no firing it traps MAILBOX with cause 0x03, at either level (R408, log 78). -/
def execFwd (a d : BitVec 5) (t : BitVec 2) (s : State) : Host.Outcome State Fault Refusal :=
  finish s do
    let r ← issue 0 false [gR a]
    let g ← readG r a
    let u ← get
    let st ← if badDest g then pure 2
      else match u.x.firing with
        | none => mailboxTrap 3 0
        | some f =>
          if f.join || f.forwarded then mailboxTrap 3 (BitVec.ofNat 64 f.mb)
          else match u.c.actor f.actor with
            | none => pure 2
            | some k =>
              if !u.c.outFree then pure 1
              else
                let h := f.header.toNat
                let len := h / 2 ^ 64 % 2 ^ 13
                let p := u.c.m.lm.grans ((k.mb f.mb).payAt (f.slots.headD 0) / 8) ((len + 7) / 8)
                let i : SendInfo := { dst := g.setWidth 32, typ := g.toNat / 2 ^ 32 % 2 ^ 16, flags := h / 2 ^ 54 % 2 * 64 + 16, tc := t.toNat, xf := 0
                                      rank := h / 2 ^ 80 % 2 ^ 16, sender := BitVec.ofNat 32 h, len := len, multi := 1 < f.slots.length }
                modify fun v => (v.post v.cur f.actor k i p).upX fun x => { x with firing := some { f with forwarded := true } }
                pure 0
    writeVarG d (BitVec.ofNat 64 st)
    retire 4

/-! ## Mailboxes and tags -/

/-- Whether n bytes at a lie in an actor's window, in LM and at or above XB (R172, R203). -/
def Core.windowAt (c : Core) (k : Actor) (a n : Nat) : Bool := c.inLm a n && k.inWindow a n

/-- Whether configuration word g with ring base b is valid for an actor of a core (R174, R199). -/
def cfgOk (c : Core) (k : Actor) (g : Word) (b : Nat) : Bool :=
  let m : Mailbox := ⟨g, b, [], [], [], none⟩
  let n := g.toNat % 8
  m.f 3 6 == 0 && m.typ < 0xFFE2 && m.f 14 3 ≤ 4 && m.rsv < m.k && !(m.ord && m.kind == 0) && b % 128 == 0
    && c.windowAt k b (ringEnd b m.k m.z - b)
    && (if m.kind == 0 || m.kind == 2 then m.entry % 2 == 0 && m.entry < c.xbAddr else m.entry == 0)
    && (n ≠ 7 || (m.kind == 0 && 1 ≤ m.f 14 3 && 1 ≤ m.rsv))

/-- Whether a mailbox is in use, so that it cannot be configured (R199). -/
def Actor.mbBusy (k : Actor) (n : Nat) : Bool :=
  let m := k.mb n
  m.kind ≠ 3 && (!m.slots.isEmpty || !m.waiting.isEmpty || k.awaited n ≠ 0 || m.join.isSome)

/-- MBCFG (R199). -/
def execMbcfg (b a d : BitVec 5) (l : BitVec 3) (s : State) : Host.Outcome State Fault Refusal :=
  finish s do
    let r ← issue l.toNat false [gR a, gR b]
    let g ← readG r a
    let h ← readG r b
    let u ← get
    match u.act with
    | none => writeVarG d 2
    | some k =>
      if k.mbBusy (g.toNat % 8) then writeVarG d 1
      else if !cfgOk u.c k g h.toNat then writeVarG d 2
      else
        modify fun v => v.upAct fun k => k.setMb (g.toNat % 8) ⟨g, h.toNat, [], [], [], none⟩
        writeVarG d 0
    retire 4

/-- The messages that a mailbox holds, as MBCNT counts them (R200): slot numbers in the order of R173 for a deposit mailbox. -/
def Mailbox.heldSlots (m : Mailbox) : List Nat :=
  let l := m.slots.filter fun e => e.2.st == .ready
  (if m.ord then l else l.mergeSort fun x y => x.2.seqNo ≤ y.2.seqNo).map (·.1)

/-- The count of MBCNT (R200). -/
def Mailbox.count (m : Mailbox) : Nat := if m.kind = 2 then (match m.join with
    | some j => j.landed
    | none => 0) else m.heldSlots.length

/-- The signatures that a deposit mailbox's messages carried in (R213, log 35). -/
def Mailbox.sigs (m : Mailbox) : Sig := m.slots.foldl (fun g e => match e.2.sig with
  | some h => if e.2.st == .ready then g.union h else g
  | none => g) .empty

/-- MBCNT (R200). -/
def execMbcnt (b a d : BitVec 5) (l : BitVec 3) (s : State) : Host.Outcome State Fault Refusal :=
  finish s do
    let r ← issue l.toNat false [gR a, gR b]
    let g ← readG r a
    let h ← readG r b
    let u ← get
    match u.act with
    | none => writeVarG d 0
    | some k =>
      if 8 ≤ g.toNat then mailboxTrap 2 g
      let m := k.mb g.toNat
      if h ≠ 0 && m.kind ≠ 1 then mailboxTrap 2 g
      let n := m.count
      modify fun v => (v.upAct fun k => k.setMb g.toNat (m.freeSlots v.time k.fence (m.heldSlots.take (if m.kind = 1 then min h.toNat n else 0)))).upX fun x =>
        if m.kind = 1 then { x with rs := x.rs.union m.sigs } else x
      writeVarG d (BitVec.ofNat 64 n)
    retire 4

/-- MBMASK (R201). -/
def execMbmask (a d : BitVec 5) (l : BitVec 3) (s : State) : Host.Outcome State Fault Refusal :=
  finish s do
    let r ← issue l.toNat false [gR a]
    let g ← readG r a
    let u ← get
    let old : Word := match u.act with
      | some k => k.csr.mask.setWidth 64
      | none => 0
    modify fun v => v.upAct fun k => { k with csr := { k.csr with mask := g.setWidth 7 } }
    writeVarG d old
    retire 4

/-- The item of the current message that MSGF reads (R202); a join firing has no header (log 36). -/
def Firing.item (f : Firing) (draw n : Nat) : Word :=
  match n with
  | 0 => if f.join then Config.freeWord draw else f.header.extractLsb' 0 64
  | 1 => if f.join then Config.freeWord draw else f.header.extractLsb' 64 64
  | 2 => BitVec.ofNat 64 f.weight
  | 3 => BitVec.ofNat 64 f.accepted
  | _ => 0

/-- MSGF (R202, R408). -/
def execMsgf (a d : BitVec 5) (l : BitVec 3) (s : State) : Host.Outcome State Fault Refusal :=
  finish s do
    let r ← issue l.toNat false [gR a]
    let g ← readG r a
    let n ← drawM
    writeVarG d (match s.x.firing with
      | some f => f.item n g.toNat
      | none => 0)
    retire 4

/-- A binding operand: its form, when it is valid for an actor (R203). -/
def bindingOf (c : Core) (k : Actor) (g : Word) : Option Binding :=
  let n := g.toNat
  if g.getLsbD 63 then
    if n % 2 ^ 63 < 8 && (k.mb (n % 8)).kind == 0 then some (.mailbox (n % 8)) else none
  else
    let ad := n % 2 ^ 19
    let lim := n / 2 ^ 32 % 2 ^ 13
    if n / 2 ^ 45 == 0 && n / 2 ^ 19 % 2 ^ 13 == 0 && ad % 16 == 0 && lim % 16 == 0 && 16 ≤ lim && lim ≤ 4096 && c.windowAt k ad lim
    then some (.range ad lim) else none

/-- The reply to a FREQ as a message; its sender and type are not stated (log 37). -/
def freqReply (id core part : Nat) (addr : BitVec 32) (t draw : Nat) (p : List (Word × Byte)) : Msg :=
  let w := (Config.freeWord draw).toNat
  ⟨id, .reply, core, addr, part, addr, 0, mkHeader (w % 2 ^ 32) (w / 2 ^ 32 % 2 ^ 16) 2 0 128 t addr.toNat, p, 0, [], none, false, 0, .flying⟩

/-- TAGBIND (R203). -/
def execTagbind (b a d : BitVec 5) (l : BitVec 3) (s : State) : Host.Outcome State Fault Refusal :=
  finish s do
    let r ← issue l.toNat false [gR a, gR b]
    let g ← readG r a
    let h ← readG r b
    let u ← get
    match u.act with
    | none => writeVarG d 17
    | some k =>
      let q := tget .free k.tags h.toNat
      match bindingOf u.c k g with
      | none => writeVarG d 17
      | some bi =>
        if 16 < h.toNat || (h.toNat < 16 && !(q.used && q.far && q.bind.isNone)) then writeVarG d 17
        else match (if h.toNat = 16 then k.freeTag else some h.toNat) with
          | none => writeVarG d 16
          | some t =>
            let full : Bool := match bi with
              | .mailbox m => decide ((k.mb m).rsv ≤ k.claimed m)
              | .range _ _ => false
            if full then writeVarG d 18
            else
              let q := tget .free k.tags t
              modify fun v => v.upAct fun k => k.setTag t { q with used := true, bind := some bi, early := none }
              match q.early with
              | none => pure ()
              | some p => modify fun v =>
                let m := freqReply v.dist.next v.cur k.part k.addr t v.draws p
                match v.landReply v.cur v.actIdx t m with
                  | .ok w => w
                  | .error _ => v
              modify fun v => { v with draws := v.draws + 1 }
              writeVarG d (BitVec.ofNat 64 t)
    retire 4

/-- TAGWAIT (R204). -/
def execTagwait (a d : BitVec 5) (l : BitVec 3) (s : State) : Host.Outcome State Fault Refusal :=
  finish s do
    let r ← issue l.toNat false [gR a]
    let g ← readG r a
    let u ← get
    match u.act with
    | none => mailboxTrap 1 g
    | some k =>
      let q := tget .free k.tags g.toNat
      let ranged := match q.bind with
        | some (.range _ _) => true
        | _ => false
      if 16 ≤ g.toNat || !ranged || (!q.out && q.landed.isNone) then mailboxTrap 1 g
      else match q.landed with
        | none => waitM
        | some n =>
          modify fun v => (v.upAct fun k => k.setTag g.toNat .free).upX fun x => { x with rs := match q.sig with
            | some h => x.rs.union h
            | none => x.rs }
          writeVarG d (BitVec.ofNat 64 n)
    retire 4

/-! ## Actors -/

/-- W of the acting actor (R188). -/
def State.weight (s : State) : Nat := match s.act with
  | some k => k.csr.w
  | none => 0

/-- WRET (R205): it waits as REL.DV waits and performs that release (R216, R237, log 34), then the weight goes to the distributor.  For no actor it
only waits, and writes back (R408). -/
def execWret (d : BitVec 5) (l : BitVec 3) (s : State) : Host.Outcome State Fault Refusal :=
  finish s do
    let _ ← issue l.toNat false []
    waitUntil (!s.relWaits .dv true)
    modify fun u => if u.act.isNone then u.relWrites .dv else
      let r := u.released .dv
      r.2.upAct fun a => { a with pub := some (r.1, .dv) }
    let w := s.weight
    if w ≠ 0 then
      let id ← freshId
      let st := match s.act with
        | some k => k.stage
        | none => 0
      modify fun u => { u.upAct (fun k => { k with csr := { k.csr with w := 0 } }) with
        dist := { u.dist with returns := u.dist.returns ++ [(id, st, w)] } }
    writeVarG d (BitVec.ofNat 64 w)
    retire 4

/-- WQ (R205). -/
def execWq (d : BitVec 5) (l : BitVec 3) (s : State) : Host.Outcome State Fault Refusal :=
  finish s do
    let _ ← issue l.toNat false []
    writeVarG d (BitVec.ofNat 64 s.weight)
    retire 4

/-- JCFG (R206). -/
def execJcfg (b a d : BitVec 5) (l : BitVec 3) (s : State) : Host.Outcome State Fault Refusal :=
  finish s do
    let r ← issue l.toNat false [gR a, gR b]
    let g ← readG r a
    let h ← readG r b
    let u ← get
    match u.act with
    | none => writeVarG d 2
    | some k =>
      let n := g.toNat
      let m := k.mb (n % 8)
      let op := n / 16 % 16
      let c := n / 256 % 2 ^ 11 + 1
      let ok := n / 2 ^ 19 == 0 && op < 7 && m.kind == 2 && !(op == 0 && m.ord && m.k < c)
        && h.toNat % 128 == 0 && u.c.windowAt k h.toNat m.z
      let held : Bool := match m.join with
        | some j => j.landed != 0
        | none => false
      if !ok then writeVarG d 2
      else if held then writeVarG d 1
      else
        modify fun v => v.upAct fun k => k.setMb (n % 8) ({ m with join := some ⟨op, c, h.toNat, [], 0, 0, 0, 0, 0, 0, 0, 0, 0, none, false⟩ }.opened v.time k.fence)
        writeVarG d 0
    retire 4

/-- LAUNCH (R208).  Where its operands are invalid and the queue is full, status 2 goes before 1 (DESIGN CHOICE, log 33). -/
def execLaunch (b a d : BitVec 5) (l : BitVec 3) (s : State) : Host.Outcome State Fault Refusal :=
  finish s do
    let r ← issue l.toNat false [gR a, gR b]
    let g ← readG r a
    let h ← readG r b
    let u ← get
    match u.act with
    | none => writeVarG d 2
    | some k =>
      waitUntil !(decide (g.toNat < 16) && (u.vaBusy k.part h.toNat 8 || u.queueBusy k.part g.toNat (u.qReserve k.part g.toNat)))
      let sig ← releaseM .dv true
      modify fun v => v.upAct fun k => { k with pub := some (sig, .dv) }
      let v ← get
      if 16 ≤ g.toNat || !(v.queue k.part g.toNat).enabled || h.toNat % 64 ≠ 0 then writeVarG d 2
      else match v.distReads k.part h.toNat 8 with
        | none => writeVarG d 2
        | some rec => match v.qAppend k.part g.toNat rec with
          | none => writeVarG d 1
          | some w =>
            set w
            writeVarG d 0
    retire 4

/-- The stage id of an actor's stage: the first eight bytes of its record (R189). -/
def State.stageId (s : State) (k : Actor) : Nat := match s.dist.stages.find? fun t => t.key = k.stage with
  | some t => t.record.toNat % 2 ^ 64
  | none => 0

/-- SELFQ (R209). -/
def execSelfq (a d : BitVec 5) (l : BitVec 3) (s : State) : Host.Outcome State Fault Refusal :=
  finish s do
    let r ← issue l.toNat false [gR a]
    let g ← readG r a
    let v := match s.act with
      | none => 0
      | some k => match g.toNat with
        | 0 => k.addr.toNat
        | 1 => coreNumber s.cur
        | 2 => s.actIdx
        | 3 => k.rank
        | 4 => match s.gangOf k.gang with
          | some q => q.members.length
          | none => 0
        | 5 => k.gang
        | 6 => s.stageId k
        | 7 => k.part
        | _ => 0
    writeVarG d (BitVec.ofNat 64 v)
    retire 4

/-- GANGQ (R209). -/
def execGangq (a d : BitVec 5) (l : BitVec 3) (s : State) : Host.Outcome State Fault Refusal :=
  finish s do
    let r ← issue l.toNat false [gR a]
    let g ← readG r a
    writeVarG d (match s.act.bind fun k => s.member k g.toNat with
      | some m => m.setWidth 64
      | none => BitVec.allOnes 64)
    retire 4

/-! ## FENCE.M -/

/-- Whether a message that an actor sent is neither ready at its destination nor rejected (R220). -/
def State.sendsOut (s : State) (k : Actor) : Bool :=
  (s.cores.any fun e => e.2.outbound.any fun m => m.src == k.addr && m.part == k.part)
    || (s.dist.parked.any fun e => e.2.src == k.addr && e.2.part == k.part && !e.2.hw)
    || (s.dist.copies.any fun c => c.tile.isSome && c.addr == k.addr && c.part == k.part)

/-- FENCE.M (R220). -/
def execFenceM (l : BitVec 3) (s : State) : Host.Outcome State Fault Refusal :=
  finish s do
    let _ ← issue l.toNat false []
    waitUntil (match s.act with
      | some k => !s.sendsOut k
      | none => true)
    retire 4

end Sys2Proof.Machine
end

