-- ==== Sys2Proof/Machine/Gangs.lean ====
section
/-!
DEFINITION. The actor map (R363), park buffers (R364), the steps by which a member of a gang stops and is freed (R365, R373), the actor at the other
end of an address (R168), and the end of a stage (R189).
-/

namespace Sys2Proof.Machine

/-! ## The actor map -/

/-- STATE of a map entry: 0 absent, 1 resident, 2 parked (R363). -/
def amState (e : Word) : Nat := e.toNat / 2 ^ 62
/-- CORE of a map entry. -/
def amCore (e : Word) : Nat := e.toNat / 2 ^ 52 % 2 ^ 10
/-- The physical address of the park buffer. -/
def amPark (e : Word) : Nat := e.toNat / 2 ^ 13 % 2 ^ 39 * 2 ^ 13
/-- IDX of a map entry. -/
def amIdx (e : Word) : Nat := e.toNat / 2 ^ 9 % 16
/-- The bytes of the park buffer. -/
def amSize (e : Word) : Nat := (e.toNat / 2 ^ 3 % 2 ^ 6 + 1) * 8192
/-- An entry with STATE, CORE and IDX replaced. -/
def amMake (e : Word) (st core idx : Nat) : Word :=
  BitVec.ofNat 64 (st * 2 ^ 62 + coreNumber core * 2 ^ 52 + amPark e + idx * 2 ^ 9 + e.toNat / 2 ^ 3 % 2 ^ 6 * 2 ^ 3)
/-- The id of an actor address (R167). -/
def idOf (addr : BitVec 32) : Nat := addr.toNat / 16 % 2 ^ 20
/-- The map entry of an actor of a partition. -/
def State.amap (s : State) (part : Nat) (addr : BitVec 32) : Word := tget 0 (s.part part).amap (idOf addr)
/-- The state with the map entry of an actor replaced. -/
def State.setAmap (s : State) (part : Nat) (addr : BitVec 32) (e : Word) : State :=
  s.upPart part fun p => { p with amap := tset 0 p.amap (idOf addr) e }
/-- The actors that a resident entry can name: at its IDX of core n, and of eave core n (log 28). -/
def State.atEntry (s : State) (e : Word) : List (Nat × Nat × Actor) :=
  [amCore e, 1024 + amCore e].filterMap fun n => ((s.core n).actor (amIdx e)).map fun a => (n, amIdx e, a)
/-- The place that a resident entry gives (R168): where an actor of the partition stands, the one with the address's own id before another. -/
def State.placeOf (s : State) (part : Nat) (addr : BitVec 32) (e : Word) : Option (Nat × Nat) :=
  let l := (s.atEntry e).filter fun p => p.2.2.part = part
  match l.find? fun p => idOf p.2.2.addr = idOf addr with
  | some p => some (p.1, p.2.1)
  | none => l.head?.map fun p => (p.1, p.2.1)
/-- The place to which the actor map sends what goes to an address (R168). -/
def State.actorAt (s : State) (part : Nat) (addr : BitVec 32) : Option (Nat × Nat) :=
  let e := s.amap part addr
  if amState e = 1 then s.placeOf part addr e else none
/-- Where a member of a gang stands, unless it is away in an image. -/
def State.memberAt (s : State) (g : Gang) (m : Nat × Nat × BitVec 32) : Option (Nat × Nat) :=
  if s.memberHere g.id m then some (m.1, m.2.1) else none

/-! ## Park buffers (R364) -/

/-- The head offset of a park buffer. -/
def State.parkHead (s : State) (e : Word) : Nat := (s.homeGran (amPark e / 8)).1.toNat
/-- The tail offset of a park buffer. -/
def State.parkTail (s : State) (e : Word) : Nat := (s.homeGran (amPark e / 8 + 1)).1.toNat
/-- The bytes of a park buffer that records use (log 32). -/
def amRing (e : Word) : Nat := amSize e - 64
/-- The granule at an offset of a park buffer, past its end from byte 64 on again. -/
def parkGran (e : Word) (o : Nat) : Nat := amPark e / 8 + 8 + (o - 64) % amRing e / 8
/-- The offset n bytes on. -/
def parkNext (e : Word) (o n : Nat) : Nat := 64 + (o - 64 + n) % amRing e
/-- The bytes that a park buffer holds. -/
def State.parkUsed (s : State) (e : Word) : Nat := (s.parkTail e + amRing e - s.parkHead e) % amRing e
/-- The length of the record of a message. -/
def Msg.recordLen (m : Msg) : Nat := 32 + (8 * m.payload.length + 15) / 16 * 16
/-- A header with flag i set (R169). -/
def setFlag (h : BitVec 128) (i : Nat) : BitVec 128 := h ||| BitVec.ofNat 128 (2 ^ (48 + i))

/-- The granules of a record: park header, header and payload, padded to 16 bytes. -/
def Msg.parkRecord (m : Msg) : List (Word × Byte) :=
  sealed [BitVec.ofNat 64 (m.recordLen + m.mb * 2 ^ 16), BitVec.ofNat 64 m.weight] ++ headerGrans m.header ++ m.payload
    ++ (if m.payload.length % 2 = 1 then sealed [0] else [])

/-- The state with granules written round a park buffer from an offset. -/
def State.parkWrite (s : State) (e : Word) (o : Nat) : List (Word × Byte) → State
  | [] => s
  | g :: r => State.parkWrite (s.homePut (parkGran e o) g.1 g.2) e (o + 8) r
/-- Whether an access to the first 64 bytes of a park buffer, or to n bytes from an offset, waits for a locked line (R249). -/
def State.parkLocked (s : State) (e : Word) (o n : Nat) : Bool :=
  s.locked (amPark e / 8) || (List.range ((n + 7) / 8)).any fun i => s.locked (parkGran e (o + 8 * i))
/-- The state with a field of a park buffer's first 64 bytes written. -/
def State.parkSet (s : State) (e : Word) (field v : Nat) : State :=
  s.homePut (amPark e / 8 + field) (BitVec.ofNat 64 v) (sealFn (BitVec.ofNat 64 v))

/-- The state with a message appended to a park buffer; none when it is full (R364). -/
def State.parkAppend (s : State) (e : Word) (m : Msg) : Option State :=
  let n := m.recordLen
  if amRing e ≤ s.parkUsed e + n then none
  else
    let o := s.parkTail e
    let s1 := (s.parkWrite e o m.parkRecord).parkSet e 1 (parkNext e o n)
    some { s1 with dist := { s1.dist with parked := (8 * parkGran e o, m) :: s1.dist.parked.filter fun q => q.1 != 8 * parkGran e o } }

/-- The message of the record at the head of a park buffer, flagged as replayed, for an actor; none when the buffer is empty.  What R364 keeps no
place for is taken from the model's side table (log 32). -/
def State.parkFirst (s : State) (e : Word) (a : Actor) : Option Msg :=
  let o := s.parkHead e
  if s.parkUsed e = 0 then none
  else
    let g := fun i => s.homeGran (parkGran e (o + 8 * i))
    let h : BitVec 128 := (g 3).1 ++ (g 2).1
    let len := h.toNat / 2 ^ 64 % 2 ^ 13
    let mb := (g 0).1.toNat / 2 ^ 16 % 8
    let m : Msg := ⟨0, .plain, 0, h.setWidth 32, a.part, a.addr ||| BitVec.ofNat 32 mb, h.toNat / 2 ^ 59 % 4, setFlag h 5,
      (List.range ((len + 7) / 8)).map fun i => g (4 + i), (g 1).1.toNat, [], none, h.getLsbD 51, 0, .flying⟩
    some (match s.dist.parked.lookup (8 * parkGran e o) with
      | some k => { m with id := k.id, kind := k.kind, core := k.core, src := k.src, tiles := k.tiles, sig := k.sig, multi := k.multi }
      | none => m)

/-- The state with the record at the head of a park buffer taken. -/
def State.parkTake (s : State) (e : Word) : State :=
  let o := s.parkHead e
  let len := (s.homeGran (parkGran e o)).1.toNat % 2 ^ 16
  let s1 := s.parkSet e 0 (parkNext e o len)
  { s1 with dist := { s1.dist with parked := s1.dist.parked.filter fun q => q.1 != 8 * parkGran e o } }

/-- The actor after the end of a replay: no fence, and each mailbox signals (R187). -/
def Actor.unfenced (now : Nat) (a : Actor) : Actor :=
  (List.range 8).foldl (fun a i => a.setMb i ((a.mb i).opened now false)) { a with fence := false, parking := false }

/-- The state with the fence of an actor lifted when no record is left to replay (R187). -/
def State.endReplay (s : State) (core idx : Nat) : State :=
  match (s.core core).actor idx with
  | none => s
  | some a =>
    let e := s.amap a.part a.addr
    if a.fence && s.parkUsed e = 0 then s.upActor core idx (·.unfenced s.time) else s

/-! ## Stopping and freeing -/

/-- The contexts of a core that hold a firing of the actor at an index. -/
def Core.ctxsOf (c : Core) (idx : Nat) : List Nat := (List.range 4).filter fun k => match (c.ctx k).firing with
  | some f => f.actor == idx
  | none => false

/-- A context halted at a time: the cycles of its firing's budget stand still (R180, R365, log 16). -/
def Ctx.halt (now : Nat) (x : Ctx) : Ctx := { x with halted := true, firing := x.firing.map (·.pause now) }
/-- A context that goes on at a time, at the level at which it halted (R366). -/
def Ctx.goOn (now : Nat) (x : Ctx) : Ctx :=
  { x with halted := false, firing := if x.trap.pl then x.firing else x.firing.map (·.resume now) }

/-- The state with a member stopped: its contexts but the one named halt, and no firing of it starts (R365). -/
def State.haltMember (s : State) (core idx : Nat) (but : Option (Nat × Nat)) : State :=
  (s.upActor core idx fun a => { a with stopped := true }).upCore core fun c =>
    (c.ctxsOf idx).foldl (fun c k => if but == some (core, k) then c else c.setCtx k ((c.ctx k).halt s.time)) c

/-- The operations of an array that a stop holds: MMA, MMAS and MOUTL, at a row boundary, and what waits behind one of them (R295, R314). -/
def heldOps (l : List ArrOp) : List ArrOp :=
  l.foldl (fun h p => if p.fn == 3 || p.fn == 4 || h.any (·.before p) then h ++ [p] else h) []
/-- Whether the array has an operation that completes before a stop does (R314). -/
def Cim.settling (a : Cim) : Bool := a.ops.any fun o => !(heldOps a.ops).any fun h => h.id == o.id
/-- Whether a quad member has rows to do that its lead has done: all four stop at one row (R314). -/
def State.quadBehind (s : State) (core : Nat) : Bool :=
  (s.core core).arr.quadOps.any fun q => (s.core (core / 4 * 4)).arr.ops.any fun o => o.id == q.id && q.next < o.next

/-- Whether a message to the actor at idx of a core is still to land or to be parked (R365): refused ones too, unless the park buffer is full and refuses
them (R364). -/
def State.inFlightTo (s : State) (core idx : Nat) : Bool :=
  let q := fun (m : Msg) => m.st != .draining && m.kind != .reply && m.dst.toNat / 2 ^ 24 == s.devNum.toNat && s.actorAt m.part m.dst == some (core, idx)
    && !((match m.st with
      | .backoff _ => true
      | _ => false) && (s.parkAppend (s.amap m.part m.dst) m).isNone)
  (s.cores.any fun e => e.2.outbound.any q) || s.dist.hw.any q

/-- The slots assigned to an actor (R128). -/
def Actor.ownSlots (a : Actor) : List Nat := (List.range 16).filter fun k => a.csr.asgSlots.getLsbD k

/-- Whether a member still has results, stream elements read and not written, patches of its streams (R162) or array work to come before it can be
saved (R314, R365, R368).  A message that awaits tiles is saved as it is, and its tiles land where the actor then is (R187, R338). -/
def State.memberWork (s : State) (core idx : Nat) : Bool :=
  match (s.core core).actor idx with
  | none => false
  | some a =>
    let c := s.core core
    ((c.ctxsOf idx).any fun k => (c.ctx k).varp.any fun v => !(heldOps c.arr.ops).any fun o => o.fn == 5 && o.ref == v.id)
      || (a.csr.asgArr && (c.arr.settling || s.quadBehind core))
      || a.ownSlots.any (fun k => c.patched k || (c.stream k).half.isSome)
      || ({ s with cur := core }).relWaitsOf idx .dv false
/-- Whether something is to come before a member's stop is complete: work of its own, or messages in flight to it (R365). -/
def State.memberBusy (s : State) (core idx : Nat) : Bool :=
  s.memberWork core idx || ((s.core core).actor idx).isSome && s.inFlightTo core idx

/-- The state after a member's streams have come back to its core, without what they read ahead, and it has performed a release (R162, R221, R365). -/
def State.settleTo (s : State) (core idx : Nat) (sc : Scope) : State :=
  match (s.core core).actor idx with
  | none => s
  | some a =>
    let s1 := a.ownSlots.foldl (fun u k => (u.recall core k).discardAhead core k) s
    let r := ({ s1 with cur := core }).released sc
    { r.2.upActor core idx fun a => { a with pub := some (r.1, sc) } with cur := s.cur }
/-- A member that stops performs REL.DV (R221, R365). -/
def State.settle (s : State) (core idx : Nat) : State := s.settleTo core idx .dv

/-- The core after the actor at an index has left it: contexts, slots, array, index and watch entries (R369, R373). -/
def Core.vacated (c : Core) (idx : Nat) (a : Actor) : Core :=
  let ks := c.ctxsOf idx
  let c1 := ks.foldl (fun c k => c.setCtx k (c.ctx k).emptied) c
  let c2 := a.ownSlots.foldl (fun c k => c.setStream k (c.stream k).shut) c1
  let c3 := if a.csr.asgArr then { c2 with arr := .reset } else c2
  { c3.setActor idx none with
    outbound := c3.outbound.filter fun q => !(q.st == .draining && q.src == a.addr && q.part == a.part)
    overflow := c3.overflow.filter fun o => o.actor != idx
    m := { c3.m with
      watch := c3.m.watch.filter fun w => !ks.contains w.2.ctx
      far := c3.m.far.filter fun f => !(ks.contains f.ctx && match f.kind with
        | .load _ => true
        | _ => false) } }

/-- The state with an actor's map entry absent and its park buffer back in the park area (R373). -/
def State.unmap (s : State) (part : Nat) (addr : BitVec 32) : State :=
  let e := s.amap part addr
  if amState e = 0 then s
  else
    let s1 := s.setAmap part addr 0
    let s2 := s1.upPart part fun p => { p with park := p.park ++ (List.range (amSize e / 8192)).map fun i => amPark e + 8192 * i }
    { s2 with dist := { s2.dist with parked := s2.dist.parked.filter fun q => q.1 < amPark e || amPark e + amSize e ≤ q.1 } }

/-- The state in which the images that copies land at core n land at core m, or at none, from an address (R330, R338). -/
def State.reland (s : State) (part : Nat) (addr : BitVec 32) (at' : Option (Nat × Nat)) : State :=
  { s with dist := { s.dist with copies := s.dist.copies.map fun c =>
      if c.part = part && c.block.toNat / 2 ^ 128 / 16 % 2 ^ 20 = idOf addr then { c with land := match c.land, at' with
        | some (_, _, k), some (m, b) => some (m, b + c.block.toNat / 2 ^ 160 % 2 ^ 32, k)
        | some (_, b, k), none => some (2 ^ 16, b, k)
        | none, _ => none } else c } }

/-- The state with a member of a gang freed, its pending messages discarded (R189, R373). -/
def State.freeMember (s : State) (g : Gang) (m : Nat × Nat × BitVec 32) : State :=
  let s1 := match (if s.memberHere g.id m then (s.core m.1).actor m.2.1 else none) with
    | some a => s.upCore m.1 fun c => c.vacated m.2.1 a
    | none => s
  (s1.reland g.part m.2.2 none).unmap g.part m.2.2

/-- The state with a gang freed. -/
def State.freeGang (s : State) (g : Gang) : State :=
  let s1 := g.members.foldl (State.freeMember · g) s
  { s1 with dist := { s1.dist with gangs := s1.dist.gangs.filter fun h => h.id != g.id } }

/-- The gangs of a stage. -/
def State.gangsOf (s : State) (key : Nat) : List Gang := s.dist.gangs.filter fun g => g.stage == key
/-- Where the members of a stage stand. -/
def State.stageMembers (s : State) (key : Nat) : List (Nat × Nat) := (s.gangsOf key).flatMap fun g => g.members.filterMap (s.memberAt g)

/-- Whether a stage cannot end yet: a member still has stores, atomics or patches on their way, for a release of system scope (R189, R221), or a line
of its launch queue is locked (R249). -/
def State.stageBusy (s : State) (key : Nat) : Bool :=
  ((s.stageMembers key).any fun p => ({ s with cur := p.1 }).relWaitsOf p.2 .sy false)
    || (s.dist.stages.find? fun t => t.key = key).any fun t => s.queueBusy t.part t.queue t.index

/-! ## The end of a stage -/

/-- FREE moved over every completed index (R395): the new FREE and the completed indices above it. -/
def advanceFree (done : List Nat) (free : Nat) : Nat → Nat × List Nat
  | 0 => (free, done)
  | n + 1 => if done.contains free then advanceFree (done.filter (· != free)) (free + 1) n else (free, done)

/-- The state with the launch queue updated for a stage that has ended (R395): byte 19 of its slot, merged by a lane (R44, log 70), DONE and FREE. -/
def State.queueDone (s : State) (part q i status : Nat) : State :=
  let at' := s.qSlot part q i + 16
  let s1 := match s.distRead part at' with
    | some g =>
      let d := BitVec.ofNat 64 ((128 + status) * 2 ^ 24)
      let w := laneMerge g (d, sealFn d) (maskOf 3 1)
      s.distWrite part at' w.1 w.2.1
    | none => s
  let s2 := s1.setCtl part q 40 (s1.ctl part q 40 + 1)
  let done := i :: (s2.queue part q).completed
  let r := advanceFree done (s2.qFree part q) done.length
  (s2.setCtl part q 32 r.1).upQueue part q fun u => { u with completed := r.2 }

/-- A field of a stage record or of a gang entry. -/
def bytesAt {n : Nat} (r : BitVec n) (byte len : Nat) : Nat := r.toNat / 2 ^ (8 * byte) % 2 ^ (8 * len)

/-- The state after a stage has ended with a status (R189, R395), in the order that R189 gives: a system-scope release by its members, the completion
message, the launch queue, and its gangs freed. -/
def State.endStage (s : State) (key status : Nat) : State :=
  match s.dist.stages.find? fun t => t.key = key with
  | none => s
  | some t =>
    let dst := bytesAt t.record 20 4
    let s1 := (s.stageMembers key).foldl (fun u p => u.settleTo p.1 p.2 .sy) s
    let s2 := if dst = 0 then s1 else
      s1.sendHw .done t.part (BitVec.ofNat 32 dst) 0xFFE1 0 1 (sealed [BitVec.ofNat 64 (bytesAt t.record 0 8), BitVec.ofNat 64 status]) 0
    let s3 := s2.queueDone t.part t.queue t.index status
    let s4 := (s3.gangsOf key).foldl State.freeGang s3
    { s4 with dist := { s4.dist with
        stages := s4.dist.stages.filter fun u => u.key != key
        hw := s4.dist.hw.filter fun m => m.kind != .first key } }

end Sys2Proof.Machine
end

