-- ==== Sys2Proof/Machine/Arrivals.lean ====
section
/-!
DEFINITION. The events of messages: landing, replies, hardware fault messages, retries, parking and replay (R168, R173 to R187), and the choice and entry
of a firing (R176, R179, R180).
-/

namespace Sys2Proof.Machine

/-! ## Messages on their way -/

/-- The message that an event concerns, while it is not accepted. -/
def State.msgOf (s : State) : MsgRef → Option Msg
  | .out core id => (s.core core).outbound.find? fun m => m.id = id
  | .hw id => s.dist.hw.find? fun m => m.id = id
  | .freq _ _ => none

/-- A list of messages with message id changed, or gone where f gives none. -/
def changeMsg (f : Msg → Option Msg) (id : Nat) (l : List Msg) : List Msg := l.filterMap fun m => if m.id = id then f m else some m

/-- The state with a message on its way changed, or gone where f gives none. -/
def State.upMsg (s : State) (r : MsgRef) (f : Msg → Option Msg) : State := match r with
  | .out core id => s.upCore core fun c => { c with outbound := changeMsg f id c.outbound }
  | .hw id => { s with dist := { s.dist with hw := changeMsg f id s.dist.hw } }
  | .freq _ _ => s

/-- The state without a message that has been accepted, parked or rejected (R183). -/
def State.dropMsg (s : State) (r : MsgRef) : State := s.upMsg r fun _ => none

/-- Whether message k stands before message m: sent earlier by the same actor to the same mailbox in the same class (R177, R182). -/
def Msg.before (k m : Msg) : Bool :=
  k.id < m.id && k.kind != .reply && m.kind != .reply && k.kind != .fault && m.kind != .fault && k.src == m.src && k.part == m.part && k.dst == m.dst && k.tc == m.tc

/-- Whether a message must wait for an earlier one (R177, R182). -/
def State.heldBack (s : State) (m : Msg) : Bool :=
  (s.cores.any fun e => e.2.outbound.any fun k => k.before m) || s.dist.hw.any fun k => k.before m

/-- Whether a message goes to an actor of this device. -/
def State.localTo (s : State) (m : Msg) : Bool := m.dst.toNat / 2 ^ 24 == s.devNum.toNat

/-- The reason for which a message to no actor of its partition is rejected (R168): its entry leads to another partition's actor, or to none. -/
def State.whyAbsent (s : State) (m : Msg) : Nat :=
  let e := s.amap m.part m.dst
  if amState e = 1 && !(s.atEntry e).isEmpty then 6 else 4

/-- Whether a message may be rejected now: the rejection of a first message ends its stage, once the stage may end (R185, R189). -/
def State.mayReject (s : State) (m : Msg) : Bool := match m.kind with
  | .first key => !s.stageBusy key
  | _ => true

/-- The state after a message has been rejected (R184, R185). -/
def State.reject (s : State) (r : MsgRef) (m : Msg) (reason : Nat) : State :=
  let s1 := s.dropMsg r
  match m.kind with
  | .plain | .reply => s1.typeReject m reason
  | .first key => s1.endStage key 3
  | _ => s1

/-- The state after a message has been refused at mailbox mb of the actor at idx of a core (R181, R182). -/
def State.refuse (s : State) (r : MsgRef) (m : Msg) (core idx : Nat) : State :=
  let listed : Bool := match (s.core core).actor idx with
    | some a => ((a.mb m.mb).enlist m.sender).2
    | none => false
  let s1 := s.upMb core idx m.mb fun b => (b.enlist m.sender).1
  let s2 := s1.upMsg r fun k => some (k.refused s.time listed)
  if m.hw then s2 else s2.upCore m.core (·.count 5 1)

/-- Whether a tile of a message lies outside the receiver's window (R175, R184, R196). -/
def tilesOut (c : Core) (a : Actor) (m : Msg) : Bool :=
  m.tiles.any fun t => !c.windowAt a (a.csr.lo.toNat * 8192 + t.ofs) (imageBytes t.record)

/-- Where a message fits at an actor: rejected for its tiles (R184), else as its mailbox says. -/
def Actor.fitOf (c : Core) (a : Actor) (m : Msg) : Fit :=
  match (a.mb m.mb).fit m.sender m with
  | .reject k => .reject k
  | f => if tilesOut c a m then .reject 8 else f

/-- MESSAGE_LANDING (R175): a message at its destination is accepted and landed, refused or rejected. -/
def execMessageLanding (m : MsgRef) (s : State) : Host.Outcome State Fault Refusal :=
  runEvent s do
    let k ← needSome (s.msgOf m)
    need (k.st == .flying && k.kind != .reply && k.kind != .fault && !s.heldBack k)
    if !s.localTo k then set (if s.linkUp (k.dst.toNat / 2 ^ 24) then s.dropMsg m else s.reject m k 4)
    else
      let e := s.amap k.part k.dst
      match amState e with
      | 0 =>
        need (s.mayReject k)
        set (s.reject m k 4)
      | 1 => match s.placeOf k.part k.dst e with
        | none =>
          need (s.mayReject k)
          set (s.reject m k (s.whyAbsent k))
        | some (core, idx) =>
          let a ← needSome ((s.core core).actor idx)
          if a.fence then set (s.refuse m k core idx)
          else
            need !a.parking
            match a.fitOf (s.core core) k with
            | .reject r =>
              need (s.mayReject k)
              set (s.reject m k r)
            | .refuse =>
              need !a.stopped
              set (s.refuse m k core idx)
            | f => set ((s.dropMsg m).accept core idx k.mb k f)
      | _ => need false

/-- TAG_REPLY_LANDING (R186, R197, R203): a reply lands by the binding of its tag. -/
def execTagReplyLanding (m : MsgRef) (s : State) : Host.Outcome State Fault Refusal :=
  runEvent s do
    match m with
    | .freq core id =>
      let f ← needSome ((s.core core).farOf id)
      match f.kind, f.reply with
      | .freq t, some p =>
        let done := s.upCore core fun c => c.dropFar id
        match amState (s.amap f.part f.addr), s.actorAt f.part f.addr with
        | 1, some (n, i) =>
          let a ← needSome ((s.core n).actor i)
          if (tget .free a.tags t).bind.isNone then
            set (done.upActor n i fun a => { a with tags := tset .free a.tags t { tget .free a.tags t with early := some p } })
          else
            let r := freqReply s.dist.next n a.part a.addr t s.draws p
            set { (match done.landReply n i t r with
              | .ok u => u
              | .error _ => done) with draws := s.draws + 1 }
        | 2, _ => need false
        | _, _ => set done
      | _, _ => need false
    | _ =>
      let k ← needSome (s.msgOf m)
      need (k.st == .flying && k.kind == .reply)
      if !s.localTo k then set (if s.linkUp (k.dst.toNat / 2 ^ 24) then s.dropMsg m else s.reject m k 4)
      else
        let e := s.amap k.part k.dst
        match amState e, s.actorAt k.part k.dst with
        | 1, some (n, i) =>
          let a ← needSome ((s.core n).actor i)
          need !a.parking
          match (s.dropMsg m).landReply n i (k.rank % 16) k with
          | .ok t => set t
          | .error r => set (s.reject m k r)
        | 2, _ => need false
        | _, _ => set (s.reject m k (s.whyAbsent k))

/-- HW_FAULT_MESSAGE_LANDING (R174): a hardware fault message lands in mb7, or finds no slot and raises MAILBOX at the actor's core. -/
def execHwFaultMessageLanding (id : Nat) (s : State) : Host.Outcome State Fault Refusal :=
  runEvent s do
    let k ← needSome (s.msgOf (.hw id))
    need (k.kind == .fault)
    if !s.localTo k then set (s.dropMsg (.hw id))
    else match amState (s.amap k.part k.dst), s.actorAt k.part k.dst with
      | 1, some (core, idx) =>
        let a ← needSome ((s.core core).actor idx)
        need !a.parking
        match a.faultFit with
        | .place i _ => set ((s.dropMsg (.hw id)).landAt core idx 7 k i 1 none)
        | _ =>
          need (!a.stopped && !(s.core core).overflow.any fun o => o.actor == idx && o.msg == id)
          set (s.upCore core fun c => { c with overflow := c.overflow ++ [⟨idx, id, k.typ, false⟩] })
      | 2, _ => need false
      | _, _ => set (s.dropMsg (.hw id))

/-- Whether a context is free for a firing or for a MAILBOX trap (R179, R353). -/
def Ctx.free (x : Ctx) : Bool := x.firing.isNone && !x.mbTrap && !x.halted && !x.dead
/-- The lowest free context of a core. -/
def Core.freeCtx (c : Core) : Option Nat := (List.range 4).find? fun k => (c.ctx k).free

/-- MAILBOX_OVERFLOW_TRAP (R174, R353): the lowest free context of the core takes MAILBOX, cause 0x04, for the first fault message that found no slot.
An overflow whose trap has been taken stays recorded, so that its message raises it once. -/
def execMailboxOverflowTrap (core : Nat) (s : State) : Host.Outcome State Fault Refusal :=
  runEvent s do
    let c := s.core core
    let o ← needSome (c.overflow.find? fun o => !o.taken)
    let k ← needSome c.freeCtx
    let s1 := s.upCore core fun c => { c with overflow := c.overflow.map fun q => if q == o then { q with taken := true } else q }
    let s2 := takeTrap { s1 with cur := core, curCtx := k } 0x15 4 (BitVec.ofNat 64 o.typ) (BitVec.allOnes 64)
    let s3 := s2.upX fun x => { x with mbTrap := true, trap := { x.trap with actsel := BitVec.ofNat 4 o.actor } }
    set { s3 with cur := s.cur, curCtx := s.curCtx }

/-! ## Refused messages -/

/-- Whether the actor that a message goes to is stopped, so that the message is drained without waiting (R365). -/
def State.drains (s : State) (k : Msg) : Bool := match s.actorAt k.part k.dst with
  | some (core, idx) => ((s.core core).actor idx).any (·.stopped)
  | none => false

/-- RETRY_SIGNAL (R181, R182): a sender that was listed and has been signalled retries, or drains the message to an actor that stops (R365). -/
def execRetrySignal (m : MsgRef) (s : State) : Host.Outcome State Fault Refusal :=
  runEvent s do
    let k ← needSome (s.msgOf m)
    let waits : Bool := match s.actorAt k.part k.dst with
      | some (core, idx) => match (s.core core).actor idx with
        | some a => (a.mb k.mb).waiting.contains k.core && !a.stopped
        | none => false
      | none => amState (s.amap k.part k.dst) == 2
    need (k.st == .listed && !waits)
    set (s.upMsg m fun k => some { k with st := .flying })

/-- RETRY_BACKOFF_EXPIRY (R182): the backoff of a refused message ends, or the message drains to an actor that stops (R365). -/
def execRetryBackoffExpiry (m : MsgRef) (s : State) : Host.Outcome State Fault Refusal :=
  runEvent s do
    let k ← needSome (s.msgOf m)
    match k.st with
    | .backoff due =>
      need (due ≤ s.time || s.drains k)
      set (s.upMsg m fun k => some { k with st := .flying })
    | _ => need false

/-- SLOT_HOLD_EXPIRY (R181): no retry came in 512 cycles, and the slot is released; the next listed core is signalled for it. -/
def execSlotHoldExpiry (core idx mb holder : Nat) (s : State) : Host.Outcome State Fault Refusal :=
  runEvent s do
    let a ← needSome ((s.core core).actor idx)
    let h ← needSome ((a.mb mb).holds.find? fun h => h.2.1 = holder && h.2.2 ≤ s.time)
    set (s.upMb core idx mb fun b =>
      let b1 := { b with holds := b.holds.erase h }
      if a.fence then b1 else b1.signal s.time h.1)

/-! ## Parking and replay (R187, R364, R365) -/

/-- Whether a message that stands at a resident actor is parked there: the actor is stopped, and one has been parked already or it does not
fit (R365). -/
def Actor.parks (c : Core) (a : Actor) (m : Msg) : Bool :=
  a.stopped && !a.fence && (a.parking || match m.kind with
    | .reply => false
    | .fault => a.faultFit == .refuse
    | _ => a.fitOf c m == .refuse)

/-- PARK_APPEND: a message is appended to its destination's park buffer, a refused one too while its destination stops
(R365); one that finds the buffer full is refused (R364). -/
def execParkAppend (m : MsgRef) (s : State) : Host.Outcome State Fault Refusal :=
  runEvent s do
    let k ← needSome (s.msgOf m)
    need ((k.st == .flying || (k.st == .listed && s.drains k)) && s.localTo k && !s.heldBack k)
    let e := s.amap k.part k.dst
    let at' := s.actorAt k.part k.dst
    let here : Bool := match at' with
      | some (core, idx) => match (s.core core).actor idx with
        | some a => a.parks (s.core core) k
        | none => false
      | none => amState e == 2
    need (here && !s.parkLocked e (s.parkTail e) k.recordLen)
    match s.parkAppend e k with
    | none => set (s.upMsg m fun k => some (k.refused s.time false))
    | some t => set (match at' with
      | some (core, idx) => (t.dropMsg m).upActor core idx fun a => { a with parking := true }
      | none => t.dropMsg m)

/-- The state after the record at the head of an actor's park buffer has been replayed; none while it does not fit (R187, R370). -/
def State.replayOne (s : State) (core idx : Nat) : Option State :=
  match (s.core core).actor idx with
  | none => none
  | some a =>
    let e := s.amap a.part a.addr
    match (if a.fence && !s.parkLocked e (s.parkHead e) 4096 then s.parkFirst e a else none) with
    | none => none
    | some m =>
      let t := s.parkTake e
      let r : MsgRef := .hw m.id
      match m.kind with
      | .reply => match t.landReply core idx (m.rank % 16) m with
        | .ok u => some (u.endReplay core idx)
        | .error n => some ((t.reject r m n).endReplay core idx)
      | .fault => match a.faultFit with
        | .place i _ => some ((t.landAt core idx 7 m i 1 none).endReplay core idx)
        | _ => none
      | _ => match a.fitOf (s.core core) { m with core := 2 ^ 16 } with
        | .refuse => none
        | .reject k => if s.mayReject m then some ((t.reject r m k).endReplay core idx) else none
        | f => some ((t.accept core idx m.mb { m with core := 2 ^ 16 } f).endReplay core idx)

/-- PARK_REPLAY_RECORD (R187, R366, R370): the oldest parked message lands, with PRK = 1, once it fits. -/
def execParkReplayRecord (core idx : Nat) (s : State) : Host.Outcome State Fault Refusal :=
  runEvent s do
    let t ← needSome (s.replayOne core idx)
    set t

/-! ## Firings -/

/-- A ready candidate: priority, time, actor index, mailbox, and its oldest ready slot, none for a join (R179). -/
structure Cand where
  prio : Nat
  time : Nat
  idx : Nat
  mb : Nat
  slot : Option Nat
  deriving DecidableEq, Repr

/-- The traffic class of the message in a slot (R169). -/
def Slot.tc (x : Slot) : Nat := x.header.toNat / 2 ^ 59 % 4
/-- Whether a slot may fire (R175, R177): it is ready, and no earlier message of the same actor in the same class is still landing. -/
def Mailbox.eligible (b : Mailbox) (x : Slot) : Bool :=
  x.st == .ready && !b.slots.any fun e => e.2.st == .landing && e.2.seqNo < x.seqNo && e.2.src == x.src && e.2.tc == x.tc
/-- The oldest slot of a mailbox that may fire (R179). -/
def Mailbox.oldest (b : Mailbox) : Option (Nat × Slot) :=
  (b.slots.filter fun e => b.eligible e.2).foldl (fun o e => match o with
    | some p => if e.2.seqNo < p.2.seqNo then some e else some p
    | none => some e) none

/-- Whether a message that was accepted at a time has waited longer than AGE; an AGE of 0 disables the raise (R179). -/
def ageOver (now age acc : Nat) : Bool := age ≠ 0 && age < now - acc
/-- PRIO raised by one, up to 3, while the oldest message of its mailbox has waited longer than AGE (R179). -/
def effPrio (now age prio acc : Nat) : Nat := if ageOver now age acc then min 3 (prio + 1) else prio

/-- Whether a join is complete: every contribution landed, combined or ready, with its tiles (R192, R196). -/
def Mailbox.joinFull (b : Mailbox) : Bool := match b.join with
  | some j => !j.running && j.count ≤ j.landed && j.tiles == 0 && (if j.op = 0 then b.slots.all fun e => e.2.st == .ready else j.combined == j.count)
  | none => false

/-- Whether a slot of mb7 holds a message of a hardware sender: one that no tag awaited, from actor id 0xF_FFFF (R167, R174). -/
def Slot.hardware (x : Slot) : Bool := x.claim.isNone && x.header.toNat / 16 % 2 ^ 20 == 0xFFFFF

/-- The candidate that mailbox m of an actor at index i gives (R179). -/
def Actor.candidate (now : Nat) (a : Actor) (i m : Nat) : Option Cand :=
  let b := a.mb m
  let age := a.csr.age.toNat
  if m < 7 && a.csr.mask.getLsbD m then none
  else if b.kind = 0 then match b.oldest with
    | some (k, x) => some ⟨if m = 7 && x.hardware then 3 else effPrio now age b.prio x.accepted, x.accepted, i, m, some k⟩
    | none => none
  else if b.kind = 2 && b.joinFull then match b.join with
    | some j => some ⟨effPrio now age b.prio j.first, j.last, i, m, none⟩
    | none => none
  else none

/-- Whether candidate a goes before candidate b (R179). -/
def Cand.first (a b : Cand) : Bool :=
  if a.prio ≠ b.prio then b.prio < a.prio
  else if a.time ≠ b.time then a.time < b.time
  else if a.idx ≠ b.idx then a.idx < b.idx
  else a.mb < b.mb

/-- The candidate that a core's scheduler picks (R179, R180). -/
def Core.pick (now : Nat) (c : Core) : Option Cand :=
  let all := (List.range 16).flatMap fun i => match c.actor i with
    | some a => if a.stopped || !(c.ctxsOf i).isEmpty then [] else (List.range 8).filterMap (a.candidate now i)
    | none => []
  all.foldl (fun o x => match o with
    | some y => if x.first y then some x else some y
    | none => some x) none

/-- The registers at the entry of a firing: g1 to g5 with fresh seals, all else zero (R176). -/
def entryRegs (g1 g2 g3 g4 g5 : Word) : Regs :=
  (((((Regs.zero.setG 1 g1 (sealFn g1)).setG 2 g2 (sealFn g2)).setG 3 g3 (sealFn g3)).setG 4 g4 (sealFn g4)).setG 5 g5 (sealFn g5))

/-- A context at the entry of a firing (R176); its trap and scratch registers are the context's own. -/
def Ctx.entered (x : Ctx) (regs : Regs) (fpx : BitVec 6) (entry : Nat) (top : BitVec 16) (f : Firing) : Ctx :=
  { x.emptied with regs := regs, fpx := fpx, pc := BitVec.ofNat 64 entry, rspTop := top, rs := f.sig.getD .empty, firing := some f }

/-- The state after a firing of a handler mailbox has started (R176). -/
def State.enter (s : State) (core k : Nat) (a : Actor) (x : Cand) (i : Nat) : State :=
  let b := a.mb x.mb
  let m := b.slot i
  let h := m.header
  let f : Firing := { actor := x.idx, mb := x.mb, slots := (List.range (max 1 m.span)).map (i + ·), join := false, header := h, weight := m.weight
                      accepted := m.accepted, sig := m.sig, forwarded := false, entry := s.time, away := 0, awaySince := none }
  let regs := entryRegs (BitVec.ofNat 64 (b.payAt i)) (BitVec.ofNat 64 (h.toNat / 2 ^ 64 % 2 ^ 13)) (BitVec.ofNat 64 (h.toNat % 2 ^ 32))
    (BitVec.ofNat 64 (x.mb + i * 256)) (h.extractLsb' 32 64)
  s.upCore core fun c =>
    (c.setActor x.idx (some { a.setMb x.mb (b.setSlot i { m with st := .firing }) with csr := { a.csr with w := (a.csr.w + m.weight) % 2 ^ 64 } })).setCtx k
      ((c.ctx k).entered regs 0 b.entry a.csr.rspBase f)

/-- The state after a firing of a join has started (R176, R192); g5 and the header are not stated (log 36). -/
def State.enterJoin (s : State) (core k : Nat) (a : Actor) (x : Cand) (j : Join) : State :=
  let b := a.mb x.mb
  let used := if j.op = 0 then b.slots.map (·.1) else []
  let f : Firing := { actor := x.idx, mb := x.mb, slots := used, join := true, header := 0, weight := j.weight, accepted := j.last, sig := j.sig
                      forwarded := false, entry := s.time, away := 0, awaySince := none }
  let g1 := if j.op = 0 then b.payAt 0 else j.acc
  let g2 := if j.op = 0 then j.count * b.z else j.maxLen
  let regs := entryRegs (BitVec.ofNat 64 g1) (BitVec.ofNat 64 g2) 0 (BitVec.ofNat 64 x.mb) (Config.freeWord s.draws)
  let b1 := { b with slots := b.slots.map fun e => (e.1, if j.op = 0 then { e.2 with st := SlotState.firing } else e.2), join := some { j with running := true } }
  { s.upCore core fun c =>
      (c.setActor x.idx (some { a.setMb x.mb b1 with csr := { a.csr with w := (a.csr.w + j.weight) % 2 ^ 64 } })).setCtx k
        ((c.ctx k).entered regs j.flags b.entry a.csr.rspBase f) with draws := s.draws + 1 }

/-- FIRING_SELECTION (R176, R179): a free context starts the firing that the scheduler picks. -/
def execFiringSelection (core : Nat) (s : State) : Host.Outcome State Fault Refusal :=
  runEvent s do
    let c := s.core core
    let k ← needSome c.freeCtx
    let x ← needSome (c.pick s.time)
    let a ← needSome (c.actor x.idx)
    match x.slot with
    | some i => set (s.enter core k a x i)
    | none =>
      let j ← needSome (a.mb x.mb).join
      set (s.enterJoin core k a x j)

/-- AGE_EXPIRY (R179): the oldest ready message of a mailbox has waited longer than AGE.  The raise lasts while that is so, and the scheduler reads it
from the time of acceptance; the event marks the slot, where the message has one. -/
def execAgeExpiry (core idx mb : Nat) (s : State) : Host.Outcome State Fault Refusal :=
  runEvent s do
    let a ← needSome ((s.core core).actor idx)
    let b := a.mb mb
    match b.oldest with
    | some e =>
      need (!e.2.raised && ageOver s.time a.csr.age.toNat e.2.accepted)
      set (s.upMb core idx mb fun b => b.setSlot e.1 { e.2 with raised := true })
    | none =>
      let j ← needSome b.join
      need (j.landed ≠ 0 && ageOver s.time a.csr.age.toNat j.first)

/-- The cycles that a firing has used at level U (R180, R345). -/
def Firing.used (now : Nat) (f : Firing) : Nat := now - f.entry - f.away

/-- BUDGET_EXPIRY (R77, R180): a firing that has run longer than HBUDGET traps at its next instruction boundary. -/
def execBudgetExpiry (core ctx : Nat) (s : State) : Host.Outcome State Fault Refusal :=
  runEvent s do
    let x := (s.core core).ctx ctx
    let f ← needSome x.firing
    let a ← needSome ((s.core core).actor f.actor)
    need (!x.trap.pl && !x.halted && !x.dead && a.csr.hbudget ≠ 0 && a.csr.hbudget.toNat < f.used s.time)
    let t := takeTrap { s with cur := core, curCtx := ctx } 0x0E (a.csr.hbudget.setWidth 64) (BitVec.ofNat 64 (f.used s.time)) x.pc
    set { t with cur := s.cur, curCtx := s.curCtx }

end Sys2Proof.Machine
end

