-- ==== Sys2Proof/Machine/Bits.lean ====
section
/-!
DEFINITION. Bit-stream instructions, major 0x27 (R274 to R280), and seal instructions, major 0x28 (R282, R283).
-/

namespace Sys2Proof.Machine

/-- The eight bytes of a granule as the bit buffer holds them: the lowest address in the highest byte (R275). -/
def swap8 (w : Word) : Word :=
  byteOf w 0 ++ byteOf w 1 ++ byteOf w 2 ++ byteOf w 3 ++ byteOf w 4 ++ byteOf w 5 ++ byteOf w 6 ++ byteOf w 7

/-- The width that a register names (R277). -/
def widthOf (g : Word) : Nat := min (g.toNat % 128) 64

/-- The n bits of bb from POS downward (R278). -/
def Ctx.field (x : Ctx) (n : Nat) : Word := BitVec.ofNat 64 (x.bbData.toNat / 2 ^ (128 - x.bbPos.toNat - n) % 2 ^ n)

/-- Sets the bit buffer. -/
def setBb (d : BitVec 128) (p : Nat) : M Unit := modify fun s => s.upX fun x => { x with bbData := d, bbPos := BitVec.ofNat 7 p }

/-- What LM accesses of major 0x27 record (R289). -/
def bbAcc (kind : Nat) : Acc := { kind := kind, size := 3 }

/-- The granule at p for a reader, checked: its bytes in stream order (R278). -/
def refillWord (p : Word) : M Word := do
  lmFaults p 8 8 (bbAcc 0)
  landedFirst p.toNat 8
  checkLm (p.toNat / 8)
  let s ← get
  pure (swap8 (s.lmGran (p.toNat / 8)).1)

/-- Moves POS to pos and refills when it is 64 or more; the pointer g[A] moves on by 8 (R278). -/
def refill (a : BitVec 5) (p : Word) (pos : Nat) : M Unit := do
  let s ← get
  if 64 ≤ pos then
    let w ← refillWord p
    setBb (s.x.bbData <<< 64 ||| w.setWidth 128) (pos - 64)
    writeVarG a (p + 8)
  else setBb s.x.bbData pos

/-- BBINIT (R278). -/
def execBbinit (b a d : BitVec 5) (l : BitVec 3) (s : State) : Host.Outcome State Fault Refusal :=
  finish s do
    let r ← issue l.toNat false [gR a, gR b]
    let p ← readG r a
    let c ← readG r b
    if c.getLsbD 8 then
      orTrap (p.toNat % 8 == 0) 0x03 p (bbAcc 1).info
      setBb 0 0
      writeVarG d p
    else
      lmFaults p 8 8 (bbAcc 0)
      lmFaults (p + 8) 8 8 (bbAcc 0)
      let w ← refillWord p
      let v ← refillWord (p + 8)
      setBb (w ++ v) (c.toNat % 64)
      writeVarG d (p + 16)
    retire 4

/-- BGET (R278). -/
def execBget (b a d : BitVec 5) (l : BitVec 3) (s : State) : Host.Outcome State Fault Refusal :=
  finish s do
    let r ← issue l.toNat false [gR a, gR b]
    let p ← readG r a
    let g ← readG r b
    refill a p (s.x.bbPos.toNat + widthOf g)
    writeVarG d (s.x.field (widthOf g))
    retire 4

/-- BPEEK (R278). -/
def execBpeek (b d : BitVec 5) (l : BitVec 3) (s : State) : Host.Outcome State Fault Refusal :=
  finish s do
    let r ← issue l.toNat false [gR b]
    let g ← readG r b
    writeVarG d (s.x.field (widthOf g))
    retire 4

/-- BSKIP (R278). -/
def execBskip (b a : BitVec 5) (l : BitVec 3) (s : State) : Host.Outcome State Fault Refusal :=
  finish s do
    let r ← issue l.toNat false [gR a, gR b]
    let p ← readG r a
    let g ← readG r b
    refill a p (s.x.bbPos.toNat + widthOf g)
    retire 4

/-- BPUT: the low w bits of g[D] enter bb below POS, and 64 filled bits are spilled (R278). -/
def execBput (b a d : BitVec 5) (l : BitVec 3) (s : State) : Host.Outcome State Fault Refusal :=
  finish s do
    let r ← issue l.toNat false [gR a, gR b, gR d]
    let p ← readG r a
    let g ← readG r b
    let v ← readG r d
    let w := widthOf g
    let pos := s.x.bbPos.toNat + w
    let data := s.x.bbData ||| BitVec.ofNat 128 (v.toNat % 2 ^ w * 2 ^ (128 - pos))
    if 64 ≤ pos then
      lmFaults p 8 8 (bbAcc 1)
      let x := swap8 (data.extractLsb' 64 64)
      modify fun u => u.setLm (p.toNat / 8) x (sealFn x)
      setBb (data <<< 64) (pos - 64)
      writeVarG a (p + 8)
    else setBb data pos
    retire 4

/-- BFLUSH: the filled bytes go to g[A], a narrow store when they are fewer than 8 (R278). -/
def execBflush (a d : BitVec 5) (l : BitVec 3) (s : State) : Host.Outcome State Fault Refusal :=
  finish s do
    let r ← issue l.toNat false [gR a]
    let p ← readG r a
    let pos := s.x.bbPos.toNat
    let n := (pos + 7) / 8
    if n ≠ 0 then
      lmFaults p n 8 (bbAcc 1)
      let gr := p.toNat / 8
      if n < 8 then checkLm gr
      let x := mergeBytes (s.lmGran gr).1 (swap8 (s.x.bbData.extractLsb' 64 64)) (maskOf 0 n)
      modify fun u => u.setLm gr x (sealFn x)
      writeVarG a (p + BitVec.ofNat 64 n)
    setBb 0 0
    writeVarG d (BitVec.ofNat 64 (8 * n - pos))
    retire 4

/-- How many of the n bits of w from the top down are zero before the first one. -/
def zerosFrom (w : BitVec 128) : Nat → Nat
  | 0 => 0
  | n + 1 => if w.getLsbD n then 0 else 1 + zerosFrom w n

/-- BGETX: one order-k Exp-Golomb code (R279). -/
def execBgetx (b a d : BitVec 5) (l : BitVec 3) (s : State) : Host.Outcome State Fault Refusal :=
  finish s do
    let r ← issue l.toNat false [gR a, gR b]
    let p ← readG r a
    let g ← readG r b
    let k := g.toNat % 64
    let len := 2 * zerosFrom s.x.bbData (128 - s.x.bbPos.toNat) + 1 + k
    if 64 < len then writeVarG d (BitVec.allOnes 64)
    else
      refill a p (s.x.bbPos.toNat + len)
      writeVarG d (s.x.field len - BitVec.ofNat 64 (2 ^ k))
    retire 4

/-- BBPOS (R278). -/
def execBbpos (d : BitVec 5) (l : BitVec 3) (s : State) : Host.Outcome State Fault Refusal :=
  finish s do
    let _ ← issue l.toNat false []
    writeVarG d (s.x.bbPos.setWidth 64)
    retire 4

/-! ## Seal instructions (R282) -/

/-- SEALG: the seal of g[A] as data. -/
def execSealg (a d : BitVec 5) (l : BitVec 3) (s : State) : Host.Outcome State Fault Refusal :=
  finish s do
    let r ← issue l.toNat false [gR a]
    writeG 1 d ((r.gsl a.toNat).setWidth 64)
    retire 4

/-- SEALSET: the seal of g[D] is the low byte of g[B]. -/
def execSealset (b d : BitVec 5) (l : BitVec 3) (s : State) : Host.Outcome State Fault Refusal :=
  finish s do
    let r ← issue l.toNat false [gR b, gR d]
    let g ← readG r b
    writeGs 1 d (r.gv d.toNat) (g.setWidth 8)
    retire 4

/-- SEALCHK: the syndrome of g[A]; it never traps and never records. -/
def execSealchk (a d : BitVec 5) (l : BitVec 3) (s : State) : Host.Outcome State Fault Refusal :=
  finish s do
    let r ← issue l.toNat false [gR a]
    writeG 1 d ((syn (r.gv a.toNat) (r.gsl a.toNat)).setWidth 64)
    retire 4

/-- POISON: g[D] carries the poison mark. -/
def execPoison (d : BitVec 5) (l : BitVec 3) (s : State) : Host.Outcome State Fault Refusal :=
  finish s do
    let r ← issue l.toNat false [gR d]
    writeGs 1 d (r.gv d.toNat) (sealFn (r.gv d.toNat) ^^^ 0xA5)
    retire 4

/-- SEALCTL of the acting actor; 0 where none acts (R283, R408). -/
def State.sealctl (s : State) : Word := match s.act with
  | some a => a.csr.sealctl.setWidth 64
  | none => 0

/-- SEALMODE (R282). -/
def execSealmode (a d : BitVec 5) (l : BitVec 3) (s : State) : Host.Outcome State Fault Refusal :=
  finish s do
    let r ← issue l.toNat false [gR a]
    let g ← readG r a
    let t ← get
    let m := g.setWidth 16 &&& 3
    if !t.sealctl.getLsbD 2 && m ≠ 3 then
      modify fun u => u.upAct fun k => { k with csr := { k.csr with sealctl := (k.csr.sealctl &&& 0xFFFC) ||| m } }
    writeVarG d t.sealctl
    retire 4

end Sys2Proof.Machine
end

