-- ==== Sys2Proof/Machine/Control.lean ====
section
/-!
DEFINITION. Branches, jumps, calls, hardware loops, the return stack, ending a firing, TRAP and BRK: majors 0x08 to 0x0B (R67 to R78).
-/

namespace Sys2Proof.Machine

/-! ## Shapes -/

/-- Goes to target when take holds, else on in sequential flow (R67, R70, R71). -/
def branchTo (take : Bool) (target : Word) (len : Nat) : M Unit :=
  modify fun s => if take then s.jumped target else s.retired len

/-- A branch on two g registers (R67). -/
def branch2 (p : Word → Word → Bool) (o : BitVec 11) (b a : BitVec 5) (s : State) : Host.Outcome State Fault Refusal :=
  finish s do
    let r ← issue 0 false [gR a, gR b]
    let x ← readG r a
    let y ← readG r b
    branchTo (p x y) (s.x.pc + 2 * o.signExtend 64) 4

/-- A branch on a k register, which has no seal (R67). -/
def branchK (p : Mask → Bool) (o : BitVec 11) (a : BitVec 3) (s : State) : Host.Outcome State Fault Refusal :=
  finish s do
    let r ← issue 0 false [kR a]
    branchTo (p (r.kv a.toNat)) (s.x.pc + 2 * o.signExtend 64) 4

/-- A compact branch on one g register against zero (R53). -/
def branchZ (p : Word → Bool) (o a : BitVec 5) (s : State) : Host.Outcome State Fault Refusal :=
  finish s do
    let r ← issue 0 true [gR a]
    let x ← readG r a
    branchTo (p x) (s.x.pc + 2 * o.signExtend 64) 2

/-- Pushes a return address; the oldest of sixteen goes to the spill area as STL.64 would store it (R74). -/
def pushReturn (ret : Word) : M Unit := do
  let s ← get
  let x := s.x
  if x.rstack.length < 16 then
    set (s.upX fun x => { x with rstack := ret :: x.rstack })
  else
    let top : Word := x.rspTop.setWidth 64 <<< 3
    lmFaults top 8 8 { kind := 1, size := 3 }
    let o := x.rstack.getLastD 0
    set ((s.setLm x.rspTop.toNat o (sealFn o)).upX fun x =>
      { x with rstack := ret :: x.rstack.dropLast, rspTop := x.rspTop + 1 })

/-- Takes the newest return address, from the hardware stack or by a refill as LDL.64 would load it (R74). -/
def popReturn : M Word := do
  let s ← get
  let x := s.x
  match x.rstack with
  | t :: r =>
    set (s.upX fun x => { x with rstack := r })
    pure t
  | [] =>
    if s.rspBase.toNat < x.rspTop.toNat then
      let gr := x.rspTop - 1
      lmFaults (gr.setWidth 64 <<< 3) 8 8 { kind := 0, size := 3 }
      landedFirst (8 * gr.toNat) 8
      checkLm gr.toNat
      modify fun t => t.upX fun x => { x with rspTop := gr }
      pure (s.lmGran gr.toNat).1
    else trapM 0x0C 0 s.rsp

/-- An odd transfer target traps ALIGN (R47). -/
def evenTarget (t : Word) : M Unit := orTrap (!t.getLsbD 0) 0x03 t 0

/-- RET (R71, R74): the end check runs with p the return address minus 4. -/
def returnWith (l : Nat) (compact : Bool) (s : State) : Host.Outcome State Fault Refusal :=
  finish s do
    let _ ← issue l compact []
    let t ← popReturn
    evenTarget t
    modify fun u =>
      let u1 := u.upX fun x => { x with loops := x.loops.filter fun e => e.depth ≤ u.cd }
      u1.sequel (t - 4) t

/-- END (R76). -/
def endWith (l : Nat) (compact : Bool) (s : State) : Host.Outcome State Fault Refusal :=
  finish s do
    let _ ← issue l compact []
    modify fun u => (u.upC (·.count 1 1)).endFiring

/-- An instruction without an effect. -/
def nothing (len l : Nat) (s : State) : Host.Outcome State Fault Refusal :=
  finish s do
    let _ ← issue l (len == 2) []
    retire len

/-! ## The instructions -/

/-- BEQ (R67). -/
def execBeq (o : BitVec 11) (b a : BitVec 5) (s : State) : Host.Outcome State Fault Refusal := branch2 (fun x y => x == y) o b a s
/-- BNE (R67). -/
def execBne (o : BitVec 11) (b a : BitVec 5) (s : State) : Host.Outcome State Fault Refusal := branch2 (fun x y => x != y) o b a s
/-- BLT.S (R67). -/
def execBltS (o : BitVec 11) (b a : BitVec 5) (s : State) : Host.Outcome State Fault Refusal := branch2 (fun x y => x.slt y) o b a s
/-- BGE.S (R67). -/
def execBgeS (o : BitVec 11) (b a : BitVec 5) (s : State) : Host.Outcome State Fault Refusal := branch2 (fun x y => y.sle x) o b a s
/-- BLT.N (R67). -/
def execBltN (o : BitVec 11) (b a : BitVec 5) (s : State) : Host.Outcome State Fault Refusal := branch2 (fun x y => x.ult y) o b a s
/-- BGE.N (R67). -/
def execBgeN (o : BitVec 11) (b a : BitVec 5) (s : State) : Host.Outcome State Fault Refusal := branch2 (fun x y => y.ule x) o b a s
/-- BKANY (R67). -/
def execBkany (o : BitVec 11) (a : BitVec 3) (s : State) : Host.Outcome State Fault Refusal := branchK (fun k => k != 0) o a s
/-- BKNONE (R67). -/
def execBknone (o : BitVec 11) (a : BitVec 3) (s : State) : Host.Outcome State Fault Refusal := branchK (fun k => k == 0) o a s
/-- C.BEQZ (R53). -/
def execCBeqz (o a : BitVec 5) (s : State) : Host.Outcome State Fault Refusal := branchZ (fun x => x == 0) o a s
/-- C.BNEZ (R53). -/
def execCBnez (o a : BitVec 5) (s : State) : Host.Outcome State Fault Refusal := branchZ (fun x => x != 0) o a s

/-- J (R68). -/
def execJ (o : BitVec 23) (s : State) : Host.Outcome State Fault Refusal :=
  finish s do
    let _ ← issue 0 false []
    modify fun u => u.jumped (s.x.pc + 2 * o.signExtend 64)
/-- C.J (R53). -/
def execCJ (o : BitVec 10) (s : State) : Host.Outcome State Fault Refusal :=
  finish s do
    let _ ← issue 0 true []
    modify fun u => u.jumped (s.x.pc + 2 * o.signExtend 64)
/-- CALL (R68). -/
def execCall (o : BitVec 23) (s : State) : Host.Outcome State Fault Refusal :=
  finish s do
    let _ ← issue 0 false []
    pushReturn (s.x.pc + 4)
    modify fun u => u.called (s.x.pc + 2 * o.signExtend 64)
/-- JR (R68). -/
def execJr (a : BitVec 5) (l : BitVec 3) (s : State) : Host.Outcome State Fault Refusal :=
  finish s do
    let r ← issue l.toNat false [gR a]
    let t ← readG r a
    evenTarget t
    modify fun u => u.jumped t
/-- CALLR (R68). -/
def execCallr (a : BitVec 5) (l : BitVec 3) (s : State) : Host.Outcome State Fault Refusal :=
  finish s do
    let r ← issue l.toNat false [gR a]
    let t ← readG r a
    evenTarget t
    pushReturn (s.x.pc + 4)
    modify fun u => u.called t

/-- LOOP (R69). -/
def execLoop (e : BitVec 11) (a : BitVec 5) (l : BitVec 3) (s : State) : Host.Outcome State Fault Refusal :=
  finish s do
    let r ← issue l.toNat false [gR a]
    orTrap (s.x.loops.length < 4) 0x0D 0 s.x.lc
    let n ← readG r a
    let fin : Word := s.x.pc + 2 * e.setWidth 64
    if n.setWidth 32 = 0 then modify fun u => u.sequel s.x.pc fin
    else
      modify fun u => u.upX fun x => { x with loops := ⟨s.x.pc + 4, fin, n.setWidth 32, u.cd⟩ :: x.loops }
      retire 4

/-- RET (R74). -/
def execRet (l : BitVec 3) (s : State) : Host.Outcome State Fault Refusal := returnWith l.toNat false s
/-- C.RET (R53). -/
def execCRet (s : State) : Host.Outcome State Fault Refusal := returnWith 0 true s
/-- END (R75, R76). -/
def execEndFiring (l : BitVec 3) (s : State) : Host.Outcome State Fault Refusal := endWith l.toNat false s
/-- C.END (R53). -/
def execCEnd (s : State) : Host.Outcome State Fault Refusal := endWith 0 true s
/-- NOP (R75). -/
def execNop (l : BitVec 3) (s : State) : Host.Outcome State Fault Refusal := nothing 4 l.toNat s
/-- C.NOP (R53). -/
def execCNop (s : State) : Host.Outcome State Fault Refusal := nothing 2 0 s

/-- TRAP: SOFT with g[A], which is not checked, and the address of the next instruction (R75); its cost counts towards distances (R390). -/
def execTrap (a : BitVec 5) (l : BitVec 3) (s : State) : Host.Outcome State Fault Refusal :=
  finish s do
    let r ← issue l.toNat false [gR a]
    modify fun u => takeTrap u 0x13 (r.gv a.toNat) (s.x.pc + 4) s.x.pc
/-- BRK: BREAK (R75); its cost counts towards distances (R390). -/
def execBrk (l : BitVec 3) (s : State) : Host.Outcome State Fault Refusal :=
  finish s do
    let _ ← issue l.toNat false []
    modify fun u => takeTrap u 0x14 0 (s.x.pc + 4) s.x.pc

end Sys2Proof.Machine
end

