-- ==== Sys2Proof/Machine/Areas.lean ====
section
/-!
DEFINITION. The inner layout of the areas of a context image whose contents R367 and R313 name in order and without places (log 12): each area holds
fields of given widths one after another, the first in its lowest bits.  One codec says how an area is written and how it is read.
-/

namespace Sys2Proof.Machine

/-! ## Codecs -/

/-- How a value is written as fields (width, value) and read from a number that holds them from its low bits on, with the bits that follow. -/
structure Codec (α : Type) where
  put : α → List (Nat × Nat)
  get : Nat → α × Nat

/-- The number that holds fields one after another, the first in its low bits. -/
def packFields (l : List (Nat × Nat)) : Nat := l.foldr (fun e acc => e.2 % 2 ^ e.1 + acc * 2 ^ e.1) 0
/-- The n words that hold a value; what has no room is left out. -/
def Codec.words {α : Type} (c : Codec α) (n : Nat) (x : α) : List Word :=
  let v := packFields (c.put x)
  (List.range n).map fun i => BitVec.ofNat 64 (v / 2 ^ (64 * i))
/-- The value that words hold. -/
def Codec.read {α : Type} (c : Codec α) (w : List Word) : α := (c.get (packNat 64 (w.map (·.toNat)))).1
/-- The value that words hold: the one that was saved where they are still what was written for it, else what they say (log 12). -/
def Codec.recall {α : Type} (c : Codec α) (w : List Word) (saved : Option α) : α := match saved with
  | some x => if c.words w.length x = w then x else c.read w
  | none => c.read w

/-- Whether words are what a codec would write for what they say, or what it wrote for the value that was saved: no reserved bit is set, and no field is
out of its range (R368). -/
def Codec.holds {α : Type} (c : Codec α) (w : List Word) (saved : Option α) : Bool :=
  c.words w.length (c.read w) == w || saved.any fun x => c.words w.length x == w

/-- A number of w bits. -/
def natC (w : Nat) : Codec Nat := ⟨fun x => [(w, x)], fun n => (n % 2 ^ w, n / 2 ^ w)⟩
/-- Another form of what a codec writes. -/
def Codec.map {α β : Type} (c : Codec α) (via : α → β) (of : β → α) : Codec β := ⟨fun x => c.put (of x), fun n => match c.get n with
    | (x, r) => (via x, r)⟩
/-- A bit vector. -/
def bitsC (w : Nat) : Codec (BitVec w) := (natC w).map (BitVec.ofNat w) (·.toNat)
/-- A flag. -/
def flagC : Codec Bool := (natC 1).map (· == 1) fun b => if b then 1 else 0
/-- One value after another. -/
def Codec.pair {α β : Type} (c : Codec α) (d : Codec β) : Codec (α × β) :=
  ⟨fun x => c.put x.1 ++ d.put x.2, fun n => match c.get n with
    | (x, r) => match d.get r with
      | (y, r) => ((x, y), r)⟩
/-- n values. -/
def Codec.rep {α : Type} (c : Codec α) : Nat → Codec (List α)
  | 0 => ⟨fun _ => [], fun n => ([], n)⟩
  | k + 1 => ⟨fun l => l.head?.elim [] c.put ++ (Codec.rep c k).put (l.drop 1),
      fun n => match c.get n with
      | (x, r) => match (Codec.rep c k).get r with
        | (l, r) => (x :: l, r)⟩
/-- Up to m values after their number, in w bits. -/
def Codec.upTo {α : Type} (c : Codec α) (w m : Nat) : Codec (List α) :=
  ⟨fun l => (w, min m l.length) :: (l.take m).flatMap c.put, fun n => (Codec.rep c (min m (n % 2 ^ w))).get (n / 2 ^ w)⟩
/-- A value that may be absent. -/
def Codec.opt {α : Type} (c : Codec α) : Codec (Option α) := (c.upTo 1 1).map (·.head?) (·.toList)
/-- A table of the values at keys below n. -/
def Codec.tab {α : Type} [DecidableEq α] (c : Codec α) (n : Nat) (d : α) : Codec (Tab α) :=
  (c.rep n).map (fun l => tabFrom d n fun i => l.getD i d) fun t => (List.range n).map (tget d t)
/-- A signature of up to m granules; one that holds more is written saturated, which R213 permits. -/
def sigC (m : Nat) : Codec Sig :=
  (flagC.pair ((natC 48).upTo 5 m)).map (fun e => ⟨e.1, e.2⟩) fun s => if s.sat || m < s.grs.length then (true, []) else (false, s.grs)

/-! ## The areas of an actor -/

/-- The actor's CSRs (R367): SCB, SEALCTL, SEALLOG, HBUDGET, AGE, LMWIN, RSP.BASE, W and the mailbox mask; QUADS follows (log 12). -/
def csrC : Codec (ActorCsrs × Bool) :=
  (((bitsC 2).pair <| (bitsC 16).pair <| (bitsC 64).pair <| (bitsC 32).pair <| (bitsC 16).pair <| (bitsC 7).pair <| (bitsC 7).pair <|
      (bitsC 16).pair <| (natC 64).pair (bitsC 7)).pair flagC).map
    (fun ((scb, ctl, lg, hb, age, lo, hi, base, w, mask), q) => (⟨scb, ctl, lg, hb, age, lo, hi, 0, false, base, w, mask⟩, q))
    fun (c, q) => ((c.scb, c.sealctl, c.seallog, c.hbudget, c.age, c.lo, c.hi, c.rspBase, c.w, c.mask), q)

/-- The published signature in 127 bytes, and its scope in the last byte: 0 none, else 1 more than the scope's code (R367). -/
def pubC : Codec (Option (Sig × Scope)) :=
  ⟨fun p => let n := packFields ((sigC 20).put ((p.map (·.1)).getD .empty))
    [(1016, n), (8, p.elim 0 fun q => 1 + q.2.code)],
   fun n => let k := n / 2 ^ 1016 % 256
    (if k = 0 then none else some (((sigC 20).get n).1, (Scope.ofCode (k - 1)).getD .sy), n / 2 ^ 1024)⟩

/-- A slot's state: free, ready, of a firing, or after the first of a multi-part message (R173, R307). -/
def stateC : Codec SlotState :=
  (natC 2).map (fun n => match n with
    | 1 => .ready
    | 2 => .firing
    | 3 => .joined
    | _ => .free) fun st => match st with
    | .free => 0
    | .landing | .ready => 1
    | .firing => 2
    | .joined => 3

/-- A join: the parameters of JOINCFG and what it has combined (R192, R193, R206); its rank map stands in an area of its own. -/
def joinC : Codec Join :=
  ((natC 4).pair <| (natC 16).pair <| (natC 20).pair <| (natC 16).pair <| (natC 16).pair <| (natC 20).pair <| (natC 64).pair <| (bitsC 6).pair <|
      (natC 48).pair <| (natC 48).pair flagC).map
    (fun (op, count, acc, landed, combined, len, weight, flags, first, last, running) =>
      ⟨op, count, acc, [], landed, combined, len, weight, flags, first, last, 0, 0, none, running⟩)
    fun j => (j.op, j.count, j.acc, j.landed, j.combined, j.maxLen, j.weight, j.flags, j.first, j.last, j.running)

/-- The slots of a mailbox that are not free, as (index, state), from a table and back. -/
def slotMap : Codec (Tab Slot) :=
  (((natC 8).pair stateC).upTo 9 256).map
    (fun l => l.foldr (fun e t => if e.2 = .free then t else tset .free t e.1 { Slot.free with st := e.2, span := 1 }) [])
    fun t => t.map fun e => (e.1, e.2.st)

/-- A mailbox (R367): configuration, ring base, waiting list, join parameters, slot states. -/
def mbC : Codec Mailbox :=
  ((bitsC 64).pair <| (natC 20).pair <| ((natC 11).upTo 4 8).pair <| joinC.opt.pair slotMap).map
    (fun (cfg, base, waiting, join, slots) => ⟨cfg, base, slots, waiting, [], join⟩)
    fun b => (b.cfg, b.base, b.waiting, b.join, b.slots)

/-- What a tag is bound to (R203). -/
def bindC : Codec Binding :=
  (flagC.pair <| (natC 20).pair (natC 13)).map (fun (m, a, n) => if m then .mailbox a else .range a n) fun b => match b with
    | .range a n => (false, a, n)
    | .mailbox m => (true, m, 0)
/-- A reply tag: binding and state (R367); of a signature it says that there is one. -/
def tagC : Codec Tag :=
  (flagC.pair <| bindC.opt.pair <| flagC.pair <| flagC.pair <| (natC 13).opt.pair flagC).map
    (fun (used, bind, out, far, landed, sig) => ⟨used, bind, out, far, landed, if sig then some .full else none, none⟩)
    fun t => (t.used, t.bind, t.out, t.far, t.landed, t.sig.isSome)

/-- The state of a ridge tag (R227). -/
def ridgeC : Codec TagState :=
  (natC 2).map (fun n => match n with
    | 1 => .arrived
    | 2 => .released
    | _ => .idle) fun t => match t with
    | .idle => 0
    | .arrived => 1
    | .released => 2
/-- The ridge tags and the lost watch granules (R367). -/
def ridgesC : Codec (List TagState × List Nat) := (ridgeC.upTo 4 8).pair ((natC 61).upTo 5 31)

/-- The rank map of a join: a bit for each rank (R193, R367). -/
def ranksC : Codec (List Nat) :=
  (flagC.rep 2048).map (fun l => (List.range 2048).filter fun r => l.getD r false) fun rs => (List.range 2048).map rs.contains

/-! ## The area of a firing -/

/-- A loop entry (R69). -/
def loopC : Codec LoopEntry :=
  ((bitsC 64).pair <| (bitsC 64).pair <| (bitsC 32).pair (bitsC 32)).map (fun (a, b, c, d) => ⟨a, b, c, d.toInt⟩)
    fun e => (e.start, e.fin, e.count, BitVec.ofInt 32 e.depth)

/-- The trap record and the scratch registers (R346, R349). -/
def trapC : Codec TrapRegs :=
  (flagC.pair <| flagC.pair <| flagC.pair <| (bitsC 9).pair <| (bitsC 64).pair <| (bitsC 64).pair <| (bitsC 64).pair <| (bitsC 64).pair <|
      (bitsC 64).pair <| (bitsC 64).pair <| (bitsC 64).pair (bitsC 4)).map
    (fun (pl, ppl, tact, code, pc, i0, i1, x0, x1, x2, x3, sel) => ⟨pl, ppl, tact, code, pc, i0, i1, x0, x1, x2, x3, sel⟩)
    fun t => (t.pl, t.ppl, t.tact, t.tcode, t.tpc, t.tinfo0, t.tinfo1, t.ssx0, t.ssx1, t.ssx2, t.ssx3, t.actsel)

/-- The budget cycles that a firing has used at a time (R180). -/
def Firing.spent (now : Nat) (f : Firing) : Nat := f.awaySince.getD now - f.entry - f.away

/-- A firing as it stands at a time (R176, R180): mailbox, slots, header, weight, budget cycles used; of a signature it says that there is one. -/
def firingC (now : Nat) : Codec Firing :=
  ((natC 3).pair <| ((natC 8).upTo 5 16).pair <| flagC.pair <| (bitsC 128).pair <| (natC 64).pair <| (natC 48).pair <| flagC.pair <| flagC.pair <|
      (natC 48).pair flagC).map
    (fun (mb, slots, join, header, weight, accepted, sig, forwarded, used, away) =>
      { actor := 0, mb := mb, slots := slots, join := join, header := header, weight := weight, accepted := accepted
        sig := if sig then some .full else none, forwarded := forwarded, entry := now - used, away := 0
        awaySince := if away then some now else none })
    fun f => (f.mb, f.slots, f.join, f.header, f.weight, f.accepted, f.sig.isSome, f.forwarded, f.spent now, f.awaySince.isSome)

/-- The scalar state of a firing's context (R367): PC, trap record, g registers with seals, mask registers, FPX, loop stack, return-address stack, bb,
barrier and watch state. -/
def ctxC (now : Nat) : Codec Ctx :=
  ((bitsC 64).pair <| (bitsC 64).pair <| trapC.pair <| ((bitsC 64).tab 32 0).pair <| ((bitsC 8).tab 32 0).pair <| ((bitsC 32).tab 8 0).pair <|
      (bitsC 6).pair <| (loopC.upTo 3 4).pair <| ((bitsC 64).upTo 5 16).pair <| (bitsC 16).pair <| (bitsC 128).pair <| (bitsC 7).pair <|
      (firingC now).opt.pair <| flagC.pair <| flagC.pair <| flagC.pair <| (natC 48).opt.pair <| (natC 48).opt.pair <| (natC 4).opt.pair <|
      (((bitsC 64).pair <| (natC 48).opt.pair (natC 48).opt).map (fun (a, b, c) => (⟨a, b, c⟩ : Held)) fun h => (h.pc, h.barv, h.waitw)).opt.pair (sigC 16)).map
    (fun (pc, prev, trap, g, gs, k, fpx, loops, rst, top, bd, bp, firing, bar, halted, dead, sent, waitw, swait, held, rs) =>
      { regs := ⟨g, gs, [], [], k⟩, fpx := fpx, pc := pc, prevPc := prev, loops := loops, rstack := rst, rspTop := top, bbData := bd, bbPos := bp
        pend := [], varp := [], rs := rs, bp := bar, trap := trap, firing := firing, mbTrap := false, halted := halted, dead := dead
        barvSent := sent, waitw := waitw, heldWait := held, lost := [], loadG := none, swapWait := false, swait := swait })
    fun x => (x.pc, x.prevPc, x.trap, x.regs.g, x.regs.gs, x.regs.k, x.fpx, x.loops, x.rstack, x.rspTop, x.bbData, x.bbPos, x.firing, x.bp, x.halted,
      x.dead, x.barvSent, x.waitw, x.swait, x.heldWait, x.rs)

/-! ## The areas of the array -/

/-- A format. -/
def fmtC : Codec Fmt := (natC 4).map (fun n => (Fmt.ofCode (BitVec.ofNat 4 n)).getD .f32) (·.code.toNat)

/-- The kinds of MATRIXBANK sent for an operation. -/
def kindsC : Codec (List Nat) := (flagC.rep 8).map (fun l => (List.range 8).filter fun i => l.getD i false) fun ks => (List.range 8).map ks.contains

/-- An operation that a save has interrupted (R314): the instruction, its operands, the bound bank and the next row. -/
def opC : Codec ArrOp :=
  ((natC 3).pair <| flagC.pair <| flagC.pair <| fmtC.pair <| (bitsC 2).pair <| flagC.pair <| (bitsC 2).pair <| (natC 8).pair <| (natC 9).pair <|
      (natC 9).pair <| (natC 12).pair <| (natC 4).opt.pair <| (natC 20).pair <| (natC 20).pair <| (bitsC 20).pair <| flagC.pair <| flagC.pair <|
      (natC 20).opt.pair <| (bitsC 8).pair <| (bitsC 6).pair <| kindsC.pair <| (natC 20).pair (natC 40)).map
    (fun (fn, bank, tile, fmt, sp, sc, kind, row0, count, next, k, slot, addr, len, pc, own, quad, bad, errs, flags, told, ref, id) =>
      { id := id, fn := fn, bank := bank, tile := tile, fmt := fmt, sp := sp, sc := sc, kind := kind, row0 := row0, count := count, next := next, k := k
        slot := slot, data := [], extra := [], scales := none, addr := addr, len := len, pc := pc.setWidth 64
        owner := if own then some (0, none) else none, quad := quad, rows := [], listBad := bad, errs := errs, flags := flags, told := told, ref := ref })
    fun o => (o.fn, o.bank, o.tile, o.fmt, o.sp, o.sc, o.kind, o.row0, o.count, o.next, o.k, o.slot, o.addr, o.len, o.pc.setWidth 20, o.owner.isSome,
      o.quad, o.listBad, o.errs, o.flags, o.told, o.ref, o.id)
/-- An MMA of the lead at a member of its quad (R310, R314). -/
def quadOpC : Codec QuadOp :=
  ((natC 40).pair <| flagC.pair <| (natC 9).pair <| flagC.opt.pair <| (natC 40).pair <| flagC.pair <| (bitsC 8).pair kindsC).map
    (fun (id, tile, next, bank, after, bad, errs, told) => ⟨id, tile, next, bank, after, bad, errs, told⟩)
    fun q => (q.id, q.tile, q.next, q.bank, q.after, q.bad, q.errs, q.told)
/-- The interrupted operations of a core, its own and its lead's (R367). -/
def opsC : Codec (List ArrOp × List QuadOp) := (opC.upTo 3 4).pair (quadOpC.upTo 3 4)

/-- The load state of a bank (R290). -/
def ldC : Codec BankLd :=
  (natC 2).map (fun n => match n with
    | 1 => .loading
    | 2 => .ready
    | 3 => .failed
    | _ => .empty) fun l => match l with
    | .empty => 0
    | .loading => 1
    | .ready => 2
    | .failed => 3
/-- What follows a bank's alignments (R313): PM, Q4B, FMT, SP, LD; then, in b0, whether b1 is active and QM (log 12). -/
def bankC : Codec ((BitVec 8 × Bool × Fmt × BitVec 2 × BankLd) × Bool × Quad) :=
  ((bitsC 8).pair <| flagC.pair <| fmtC.pair <| (bitsC 2).pair ldC).pair (flagC.pair <| (natC 2).map
    (fun n => match n with
      | 1 => .lead
      | 2 => .member
      | _ => .off) fun q => match q with
      | .off => 0
      | .lead => 1
      | .member => 2)

end Sys2Proof.Machine
end

