-- ==== Sys2Proof/Machine/Images.lean ====
section
/-!
DEFINITION. Context images (R367): what is written, what is read back, and the steps that CTXSAVE, CTXLOAD, EVICT, RESTORE and the distributor share
(R368 to R370).  Memory holds every area; where an area has no room for all that the model keeps, the rest is kept beside it (log 12).
-/

namespace Sys2Proof.Machine

/-! ## Writing -/

/-- The bytes before the LM window of an image (R367). -/
def imageBase (arr : Bool) : Nat := if arr then 0x4E000 else 0x4000
/-- The length of an actor's image. -/
def Actor.imageLen (a : Actor) : Nat := imageBase a.csr.asgArr + (a.csr.hi.toNat - a.csr.lo.toNat) * 8192
/-- n granules that hold nothing. -/
def zeroGrans (n : Nat) : List (Word × Byte) := List.replicate n (0, 0)
/-- The header of an image: sixteen words (R367). -/
def State.imageHeader (s : State) (core idx : Nat) (a : Actor) : List Word :=
  let c := s.core core
  let b := fun (x : Bool) (n : Nat) => if x then 2 ^ n else 0
  let firing := c.ctxsOf idx
  let flags := b a.csr.asgArr 0 + b (!firing.isEmpty) 1 + b (firing.any fun k => (c.ctx k).trap.pl) 2 + b a.stopped 3
    + b (a.csr.asgArr && c.arr.qm != .off) 4
  [BitVec.ofNat 64 (1 + a.addr.toNat * 2 ^ 32), BitVec.ofNat 64 (a.gang + s.stageId a % 2 ^ 32 * 2 ^ 32),
    BitVec.ofNat 64 (a.part + idx * 16 + flags * 2 ^ 8 + a.rank * 2 ^ 16 + a.csr.lo.toNat * 2 ^ 32 + a.csr.hi.toNat * 2 ^ 40 + c.m.ways * 2 ^ 48),
    a.csr.asgSlots.setWidth 64, BitVec.ofNat 64 a.imageLen, BitVec.ofNat 64 s.time, BitVec.ofNat 64 (a.code + a.codeLen * 2 ^ 32), a.recAddr]
    ++ List.replicate 8 0

/-- The granules of a TLR entry in an image (R367): its record with generation and use in bytes 100 to 102. -/
def Tlr.image (t : Tlr) : List (Word × Byte) :=
  sealed (pairs (t.record ||| BitVec.ofNat 1024 (t.gen.toNat * 2 ^ 800 + if t.used then 2 ^ 816 else 0)))

/-- The class of a register in a pending record (R367). -/
def RegId.cls : RegId → Nat
  | .g _ => 1
  | .v _ => 2
  | .k _ => 3
/-- The number of a register. -/
def RegId.num : RegId → Nat
  | .g n | .v n | .k n => n
/-- The seals of a v register as two words. -/
def sealWords (v : VSeals) : List Word := [v.extractLsb' 0 64, v.extractLsb' 64 64]
/-- The granules of a pending record (R57, R367). -/
def Pend.image (p : Pend) : List (Word × Byte) :=
  sealed ([BitVec.ofNat 64 (p.reg.cls + p.reg.num * 256 + p.left * 65536)] ++ pairs p.old ++ sealWords p.seals
    ++ List.replicate 5 0)

/-- A list of granules cut or filled with zeros to n. -/
def padTo (n : Nat) (l : List (Word × Byte)) : List (Word × Byte) := (l ++ zeroGrans n).take n

/-- Elements of w bits in an image: element e at position e (R23, R313). -/
def elemGrans (w n : Nat) (f : Nat → Nat) : List (Word × Byte) :=
  sealed ((List.range (n * w / 64)).map fun i => BitVec.ofNat 64 (packNat w ((List.range (64 / w)).map fun j => f (64 / w * i + j) % 2 ^ w)))

/-- The width of the aligned integers of a bank (R290): 24,576 bytes hold its K-rows of 96. -/
def Bank.width (b : Bank) : Nat := 2048 / denseRows b.fmt

/-- The alignments of a bank: one for each column and K-group of its logical rows, in a floating format (R290). -/
def alignCount (f : Fmt) (sp : BitVec 2) : Nat := if f.isFloat then 96 * (logicalK f sp / 32) else 0

/-- The 51,200 bytes of a bank in an image: its storage and what follows it in the order of R313, its state in the last 128 bytes (log 12); act and qm
are kept with b0. -/
def Bank.image (b : Bank) (act : Bool) (qm : Quad) : List (Word × Byte) :=
  padTo 6384 (elemGrans b.width (96 * denseRows b.fmt) (fun e => (BitVec.ofInt 16 (tget 0 b.store e)).toNat)
    ++ elemGrans 8 (metaBytes b.fmt b.sp) (fun i => (tget 0 b.pres i).toNat) ++ elemGrans 32 96 (fun n => (tget 0 b.scales n).toNat)
    ++ elemGrans 16 (alignCount b.fmt b.sp) (fun i => let e := tget (0, false) b.align i
        (BitVec.ofInt 15 e.1).toNat + if e.2 then 2 ^ 15 else 0))
    ++ sealed (bankC.words 16 ((b.pm, b.q4b, b.fmt, b.sp, b.ld), act, qm))

/-- The 99,328 bytes of a tile in an image: its elements, PB and KIND (R313, R367). -/
def Tile.image (t : Tile) : List (Word × Byte) :=
  elemGrans 32 (256 * 96) (fun e => (tget 0 t.z e).toNat) ++ elemGrans 1 2048 (fun i => if tget false t.pb i then 1 else 0)
    ++ sealed [t.kind.setWidth 64] ++ zeroGrans 95

/-- The array's area of an image, from 0x4000 (R367). -/
def Cim.image (a : Cim) : List (Word × Byte) :=
  a.b0.image a.act a.qm ++ a.b1.image false .off ++ a.z0.image ++ a.z1.image ++ zeroGrans 256

/-- The rank map of a mailbox's join. -/
def Mailbox.rankMap (b : Mailbox) : List Nat := match b.join with
  | some j => j.ranks
  | none => []

/-- The first 16 KiB of an image. -/
def State.imageFront (s : State) (core idx : Nat) (a : Actor) : List (Word × Byte) :=
  let c := s.core core
  let x := (c.ctxsOf idx).head?.map c.ctx
  let regs := match x with
    | some x => x.regs
    | none => .zero
  sealed (s.imageHeader core idx a ++ csrC.words 16 (a.csr, a.quads) ++ pubC.words 16 a.pub
      ++ (List.range 8).flatMap (fun m => mbC.words 8 (a.mb m)) ++ (List.range 16).flatMap (fun t => tagC.words 2 (tget .free a.tags t))
      ++ ridgesC.words 32 (a.ridge, x.elim [] (·.lost))) ++ zeroGrans 80
    ++ sealed ((List.range 8).flatMap fun m => ranksC.words 32 (a.mb m).rankMap)
    ++ (List.range 16).flatMap (fun i => (tget .free a.tlr i).image)
    ++ (List.range 16).flatMap (fun k => if a.csr.asgSlots.getLsbD k && (c.stream k).ph != .closed then sealed (c.stream k).image else zeroGrans 16)
    ++ sealed (x.elim (List.replicate 128 0) ((ctxC s.time).words 128))
    ++ sealed ((List.range 32).flatMap fun n => pairs (regs.vv n))
    ++ sealed ((List.range 32).flatMap fun n => sealWords (regs.vsl n))
    ++ sealed (if a.csr.asgArr then opsC.words 16 (c.arr.ops, c.arr.quadOps) else List.replicate 16 0)
    ++ padTo 264 ((x.elim [] (·.pend)).flatMap Pend.image) ++ zeroGrans 40

/-- The state after an image of an actor has been written, and what it has no room for remembered (R367, log 12). -/
def State.writeImage (s : State) (core idx : Nat) (va : Nat) : State :=
  match (s.core core).actor idx with
  | none => s
  | some a =>
    let c := s.core core
    let lo := a.csr.lo.toNat
    let img : Image := { part := a.part, time := s.time, actor := a, ctx := (c.ctxsOf idx).head?.map c.ctx
                         streams := a.ownSlots.map fun k => (k, c.stream k), arr := if a.csr.asgArr then some c.arr else none
                         drains := c.outbound.filter fun q => q.st == .draining && q.src == a.addr && q.part == a.part }
    let s1 := s.distWrites a.part va (s.imageFront core idx a)
    let s2 := if a.csr.asgArr then s1.distWrites a.part (va + 0x4000) c.arr.image else s1
    let s3 := s2.distWrites a.part (va + imageBase a.csr.asgArr) (c.m.lm.grans (lo * 1024) ((a.csr.hi.toNat - lo) * 1024))
    { s3 with dist := { s3.dist with images := img :: s3.dist.images.filter fun i => !(i.part == a.part && i.time == s.time && i.actor.addr == a.addr) } }

/-- The core with the watch entries of an actor's firing lost to a save (R232). -/
def Core.loseEntries (c : Core) (idx : Nat) : Core :=
  (c.ctxsOf idx).foldl (fun c k =>
    let mine := c.m.watch.filter fun w => w.2.ctx == k
    { c.setCtx k { c.ctx k with lost := (c.ctx k).lost ++ mine.map fun w => w.2.va.toNat } with
      m := { c.m with watch := c.m.watch.filter fun w => w.2.ctx != k } }) c

/-- Whether every page of a range translates for a partition, for reading or writing (R368). -/
def State.rangeOk (s : State) (part va len : Nat) (write : Bool) : Bool :=
  (List.range (len / 8192)).all fun i => (s.distPa part (va + 8192 * i) write).isSome

/-- Whether an actor may be saved now: no work of its own is to come, and no barrier release is on its way to it (R227, R314, R368, R369).  Messages on
their way to it wait for the save, or are parked after an eviction. -/
def State.saveReady (s : State) (core idx : Nat) : Bool :=
  match (s.core core).actor idx with
  | none => false
  | some a => !s.memberWork core idx && match s.gangOf a.gang with
    | some g => g.tags.all fun t => t.due.isNone
    | none => true

/-- The state after an actor has been saved: streams recalled, REL.DV, watch entries lost, image written (R221, R232, R368, R369). -/
def State.saveActor (s : State) (core idx va : Nat) : State :=
  ((s.settle core idx).upCore core (·.loseEntries idx)).writeImage core idx va

/-- The state with an actor's map entry parked (R369). -/
def State.parkEntry (s : State) (a : Actor) (core idx : Nat) : State :=
  let e := s.amap a.part a.addr
  s.setAmap a.part a.addr (amMake e 2 core idx)

/-- The state after the steps of EVICT from the recall on (R369). -/
def State.evictActor (s : State) (core idx va : Nat) : State :=
  match (s.core core).actor idx with
  | none => s
  | some a => ((s.saveActor core idx va).upCore core fun c => c.vacated idx a).reland a.part a.addr none

/-! ## Reading -/

/-- The header of an image. -/
structure ImageHeader where
  addr : BitVec 32
  gang : Nat
  part : Nat
  flags : Nat
  rank : Nat
  lo : Nat
  hi : Nat
  ways : Nat
  slots : BitVec 16
  time : Nat
  code : Nat
  codeLen : Nat
  recAddr : Word
  deriving DecidableEq, Repr

/-- The header in sixteen words, when it is well formed for a partition (R367, R368). -/
def readHeader (w : List Word) (part : Nat) : Option ImageHeader :=
  let g := fun i => (w.getD i 0).toNat
  let f := fun i lo n => g i / 2 ^ lo % 2 ^ n
  let h : ImageHeader := ⟨BitVec.ofNat 32 (f 0 32 32), f 1 0 32, f 2 0 4, f 2 8 8, f 2 16 16, f 2 32 8, f 2 40 8, f 2 48 8, BitVec.ofNat 16 (g 3), g 5, f 6 0 32,
    f 6 32 32, w.getD 7 0⟩
  if f 0 0 32 = 1 && h.part = part && h.flags < 32 && f 2 56 8 = 0 && g 3 < 2 ^ 16 && h.lo < h.hi && h.hi ≤ 71 && h.ways ≤ 7
    && h.addr.toNat % 16 = 0 && idOf h.addr ≠ 0xFFFFF && (w.drop 8).all (· == 0)
    && g 4 = imageBase (h.flags % 2 == 1) + (h.hi - h.lo) * 8192
  then some h else none

/-- The words of an image from a byte offset. -/
def State.imageWords (s : State) (part va ofs n : Nat) : List Word := ((s.distReads part (va + ofs) n).getD []).map (·.1)

/-- A TLR entry read from an image. -/
def readTlr (w : List Word) : Tlr :=
  let v := vecOfPairs w
  ⟨BitVec.ofNat 1024 (v.toNat % 2 ^ 800), BitVec.ofNat 12 (v.toNat / 2 ^ 800), v.getLsbD 816⟩

/-- A register name from its class and number; none for class 0. -/
def regOf (cls num : Nat) : Option RegId := match cls with
  | 1 => some (.g num)
  | 2 => some (.v num)
  | 3 => some (.k num)
  | _ => none

/-- A pending record read from an image. -/
def readPend (w : List Word) : Option Pend :=
  let h := (w.getD 0 0).toNat
  (regOf (h % 256) (h / 256 % 256)).map fun r =>
    ⟨r, vecOfPairs ((w.drop 1).take 16), (w.getD 18 0) ++ (w.getD 17 0), h / 65536 % 256, none⟩

/-- The context of a firing that an image holds (R57, R367); its scalar state is the saved one where memory still holds that. -/
def State.readCtx (s : State) (part va : Nat) (saved : Option Ctx) : Ctx :=
  let v := fun n => s.imageWords part va (0x2400 + 128 * n) 16
  let sl := fun n => s.imageWords part va (0x3400 + 16 * n) 2
  let x := (ctxC s.time).recall (s.imageWords part va 0x2000 128) saved
  { x with
    regs := { x.regs with v := tabFrom 0 32 fun n => vecOfPairs (v n), vs := tabFrom 0 32 fun n => ((sl n).getD 1 0) ++ ((sl n).getD 0 0) }
    lost := (ridgesC.read (s.imageWords part va 0x480 32)).2
    pend := (List.range 11).filterMap fun i => readPend (s.imageWords part va (0x3680 + 192 * i) 24) }

/-- A stream of a restored actor: as it was saved where memory still holds its image, else as the image says (R150, R367). -/
def State.readStream (s : State) (part va k : Nat) (saved : Option Stream) : Stream :=
  let w := s.imageWords part va (0x1800 + 128 * k) 16
  match saved.filter fun t => t.ph != .closed && w == t.image with
  | some t => t
  | none => if w.all (· == 0) then .closed else Stream.ofImage w

/-- A mailbox read from its area, with the headers of its slots, which stand at its ring base in the LM window, and its join's rank map (R172, R367). -/
def State.readMb (s : State) (part va : Nat) (h : ImageHeader) (m : Nat) (saved : Option Mailbox) : Mailbox :=
  let w := s.imageWords part va (0x180 + 64 * m) 8
  let ranks := ranksC.read (s.imageWords part va (0x800 + 256 * m) 32)
  match saved.filter fun b => mbC.words 8 b == w && ranksC.words 32 b.rankMap == ranksC.words 32 ranks with
  | some b => b
  | none =>
    let b := mbC.read w
    let head := fun i => s.imageWords part va (imageBase (h.flags % 2 == 1) + b.base + 16 * i - h.lo * 8192) 2
    { b with
      join := b.join.map fun j => { j with ranks := ranks }
      slots := b.slots.map fun e =>
        let d : BitVec 128 := (head e.1).getD 1 0 ++ (head e.1).getD 0 0
        (e.1, { e.2 with header := d, src := d.setWidth 32, ord := !d.getLsbD 49, accepted := s.time }) }

/-- The actor of an image at its new place. -/
def State.readActor (s : State) (part va : Nat) (h : ImageHeader) (i : Option Image) : Actor :=
  let a := i.map (·.actor)
  let (csr, quads) := csrC.recall (s.imageWords part va 0x80 16) (a.map fun a => (a.csr, a.quads))
  { addr := h.addr, part := part, gang := h.gang, stage := (s.gangOf h.gang).elim 0 (·.stage), rank := h.rank
    csr := { csr with lo := BitVec.ofNat 7 h.lo, hi := BitVec.ofNat 7 h.hi, asgSlots := h.slots, asgArr := h.flags % 2 == 1 }
    mbs := tabFrom .disabled 8 fun m => s.readMb part va h m (a.map (·.mb m))
    tags := tabFrom .free 16 fun t => tagC.recall (s.imageWords part va (0x380 + 16 * t) 2) (a.map fun a => tget .free a.tags t)
    ridge := (ridgesC.read (s.imageWords part va 0x480 32)).1
    tlr := tabFrom .free 16 fun n => readTlr (s.imageWords part va (0x1000 + 128 * n) 16)
    pub := pubC.recall (s.imageWords part va 0x100 16) (a.map (·.pub))
    stopped := h.flags / 8 % 2 == 1, parking := false, fence := false, code := h.code, codeLen := h.codeLen, recAddr := h.recAddr, quads := quads }

/-! ## The checks of R368 -/

/-- Whether a register of a pending record exists (R50, R367). -/
def RegId.inRange : RegId → Bool
  | .g n | .v n => n < 32
  | .k n => n < 8
/-- Whether a pending record of an image is well formed (R57, R367). -/
def pendOk (w : List Word) : Bool := match readPend w with
  | none => w.all (· == 0)
  | some p => p.image.map (·.1) == w && p.reg.inRange && 1 ≤ p.left && p.left ≤ 8
/-- Whether the CSRs of an image hold values that the registers have (R283, R284, R346). -/
def ActorCsrs.ok (c : ActorCsrs) : Bool :=
  c.scb != 3 && c.sealctl &&& 0x00F8 == 0 && c.sealctl &&& 3 != 3 && c.seallog &&& 0xEFFFFF80000 == 0 && c.hi.toNat ≤ 71
/-- Whether a mailbox of an image has a configuration word that R171 permits. -/
def Mailbox.ok (b : Mailbox) : Bool := b.cfg.toNat / 8 % 64 == 0 && b.cfg.toNat / 2 ^ 14 % 8 ≤ 4
/-- Whether a TLR entry of an image is well formed (R318, R367). -/
def tlrOk (w : List Word) : Bool :=
  let t := readTlr w
  t.image.map (·.1) == w && (!t.used || recValid t.record)
/-- Whether a stream image of a context image is one that R150 permits, for a slot that the actor has. -/
def streamOk (mine : Bool) (w : List Word) : Bool := w.all (· == 0) || (mine && imageOk w && (w.getD 0 0).toNat % 16 < 14)

/-- Whether the areas of an image between its header and its window are well formed (R368): no reserved bit is set, and no value or index is out of range. -/
def State.areasOk (s : State) (part va : Nat) (h : ImageHeader) (i : Option Image) : Bool :=
  let at' := s.imageWords part va
  let a := i.map (·.actor)
  let arr := h.flags % 2 == 1
  let fir := h.flags / 2 % 2 == 1
  let none' := fun (o n : Nat) => (at' o n).all (· == 0)
  csrC.holds (at' 0x80 16) (a.map fun a => (a.csr, a.quads)) && (csrC.recall (at' 0x80 16) (a.map fun a => (a.csr, a.quads))).1.ok
    && pubC.holds (at' 0x100 16) (a.map (·.pub))
    && (List.range 8).all (fun m => mbC.holds (at' (0x180 + 64 * m) 8) (a.map (·.mb m)) && (mbC.read (at' (0x180 + 64 * m) 8)).ok)
    && (List.range 16).all (fun t => tagC.holds (at' (0x380 + 16 * t) 2) (a.map fun a => tget .free a.tags t))
    && ridgesC.holds (at' 0x480 32) (a.map fun a => (a.ridge, (i.bind (·.ctx)).elim [] (·.lost))) && none' 0x580 80
    && (List.range 16).all (fun n => tlrOk (at' (0x1000 + 128 * n) 16))
    && (List.range 16).all (fun k => streamOk (h.slots.getLsbD k) (at' (0x1800 + 128 * k) 16))
    && (if fir then (ctxC s.time).holds (at' 0x2000 128) (i.bind (·.ctx)) && (List.range 11).all (fun n => pendOk (at' (0x3680 + 192 * n) 24))
      else none' 0x2000 704 && none' 0x3680 264)
    && none' 0x3EC0 40
    && (if arr then opsC.holds (at' 0x3600 16) ((i.bind (·.arr)).map fun q => (q.ops, q.quadOps))
        && [0x4000, 0x10800].all (fun o => bankC.holds (at' (o + 51072) 16) none && (bankC.read (at' (o + 51072) 16)).1.2.2.2.1 != 3)
        && [0x1D000, 0x35400].all (fun o => (at' (o + 98560) 1).all (·.toNat ≤ 2) && none' (o + 98568) 95) && none' 0x4D800 256
      else none' 0x3600 16)

/-- The image at an address for a partition: its header, and what was remembered when it was saved; or the status that tells why not (R368). -/
def State.readImage (s : State) (part va : Nat) : Except Nat (ImageHeader × Option Image) :=
  if va % 8192 ≠ 0 then .error 2
  else if !s.rangeOk part va 8192 false then .error 3
  else
    let l := (s.distReads part va 16).getD []
    match (if l.all (fun g => syn g.1 g.2 == 0) then readHeader (l.map (·.1)) part else none) with
    | none => .error 2
    | some h =>
      let base := imageBase (h.flags % 2 == 1)
      if !s.rangeOk part va (base + (h.hi - h.lo) * 8192) false then .error 3
      else if ((s.distReads part va (base / 8)).getD []).any fun g => syn g.1 g.2 != 0 then .error 2
      else
        let i := s.dist.images.find? fun i => i.part == part && i.time == h.time && i.actor.addr == h.addr
        if s.areasOk part va h i then .ok (h, i) else .error 2

/-- Whether units lo to hi - 1 overlap units lo' to hi' - 1. -/
def unitsMeet (lo hi lo' hi' : Nat) : Bool := lo < hi' && lo' < hi

/-- Whether the resources that an image needs are free at index idx of a core (R368). -/
def Core.roomFor (n : Nat) (c : Core) (idx : Nat) (h : ImageHeader) : Bool :=
  let others := c.actors.filterMap fun e => e.2
  (c.actor idx).isNone && h.hi ≤ 64 + max h.ways c.m.ways && c.xbAddr ≤ h.lo * 8192
    && others.all (fun a => !unitsMeet h.lo h.hi a.csr.lo.toNat a.csr.hi.toNat && !unitsMeet 64 (64 + h.ways) a.csr.lo.toNat a.csr.hi.toNat
      && a.csr.asgSlots &&& h.slots == 0 && !(h.flags % 2 == 1 && a.csr.asgArr) && !overlaps h.code h.codeLen a.code a.codeLen)
    && !(h.flags % 2 == 1 && isEave n) && h.code + h.codeLen ≤ c.xbAddr && (h.flags / 2 % 2 == 0 || c.freeCtx.isSome)

/-- Whether an image of a quad's member finds the place of a whole quad (R190, R314): its position among the four cores, which belong to the
partition and have arrays that no other gang holds. -/
def State.quadRoom (s : State) (n : Nat) (h : ImageHeader) : Bool :=
  h.flags / 16 % 2 == 0 || (n % 4 == h.rank % 4 && (List.range 4).all fun i =>
    let m := n / 4 * 4 + i
    (s.part h.part).cores.contains m && (s.core m).actors.all fun e => match e.2 with
      | some a => !a.csr.asgArr || (a.part == h.part && a.gang == h.gang)
      | none => true)

/-- The state with the place of a gang member changed. -/
def State.moveMember (s : State) (a : Actor) (core idx : Nat) : State :=
  s.upGang a.gang fun g => { g with members := g.members.map fun m => if m.2.2 == a.addr then (core, idx, a.addr) else m }

/-- The tags of a gang of which a member was away when they released (R227). -/
def State.owedTo (s : State) (a : Actor) : List Nat := match s.gangOf a.gang with
  | some g => (List.range g.tags.length).filter fun t => (g.tags[t]?).any fun q => q.owed.contains a.addr
  | none => []
/-- The actor with the releases it missed (R227). -/
def Actor.releasedAt (a : Actor) (ts : List Nat) : Actor :=
  { a with ridge := a.ridge.mapIdx fun t q => if ts.contains t && q = .arrived then .released else q }
/-- The state in which a member has taken up the releases it missed. -/
def State.settleOwed (s : State) (a : Actor) : State :=
  s.upGang a.gang fun g => { g with tags := g.tags.map fun q => { q with owed := q.owed.filter (· != a.addr) } }

/-- The array with its operations issued by a context that a restore has placed, with its firing (R300, R370). -/
def Cim.moved (a : Cim) (owner : Option (Nat × Option Nat)) : Cim := { a with ops := a.ops.map fun o => { o with owner := if o.owner.isSome then owner else none } }

/-- A bank that an image holds at an offset, with whether b1 is active and QM (R313). -/
def State.readBank (s : State) (part va ofs : Nat) : Bank × Bool × Quad :=
  let l := (s.distReads part (va + ofs) 6400).getD []
  let ((pm, q4b, fmt, sp, ld), more) := bankC.read ((l.drop 6384).map (·.1))
  let b : Bank := { Bank.empty with fmt := fmt, sp := sp, ld := ld, pm := pm, q4b := q4b }
  let n := metaBytes fmt sp
  let m := l.drop (3072 + n / 8)
  ({ b with
      store := tabFrom 0 (96 * denseRows fmt) fun e => intOf b.width true (granElem l b.width e)
      pres := tabFrom 0 n fun i => BitVec.ofNat 8 (granElem (l.drop 3072) 8 i)
      scales := tabFrom 0 96 fun i => BitVec.ofNat 32 (granElem m 32 i)
      align := tabFrom (0, false) (alignCount fmt sp) fun i => (intOf 15 true (granElem (m.drop 48) 16 i), granElem (m.drop 48) 16 i / 2 ^ 15 == 1) }, more)
/-- A tile that an image holds at an offset (R313). -/
def State.readTileImage (s : State) (part va ofs : Nat) : Tile :=
  let l := (s.distReads part (va + ofs) 12416).getD []
  { z := tabFrom 0 (256 * 96) fun e => BitVec.ofNat 32 (granElem l 32 e)
    kind := BitVec.ofNat 2 (granElem (l.drop 12320) 64 0)
    pb := tabFrom false 2048 fun i => granElem (l.drop 12288) 1 i == 1 }

/-- An interrupted operation with the LM bytes that it reads, as the image's window holds them (R314, log 12). -/
def State.opData (s : State) (part va : Nat) (h : ImageHeader) (o : ArrOp) : ArrOp :=
  let lm := fun (at' n : Nat) => (s.distReads part (va + imageBase true + at' - h.lo * 8192) n).getD []
  { o with
    data := if o.slot.isNone && (o.fn == 3 || o.fn == 4) then lm (o.addr / 8 * 8) (o.count * (o.k * o.fmt.bits / 8) / 8) else []
    extra := if o.fn == 4 then lm (o.ref / 8 * 8) (if o.len = 0 then 0 else (o.ref % 8 + 4 * o.len + 7) / 8) else [] }

/-- The array of an image (R313, R314, R367): with the operations that were saved where memory still holds them. -/
def State.readArr (s : State) (part va : Nat) (h : ImageHeader) (saved : Option Cim) : Cim :=
  let (b0, act, qm) := s.readBank part va 0x4000
  let w := s.imageWords part va 0x3600 16
  let a : Cim := { Cim.reset with
    b0 := b0, b1 := (s.readBank part va 0x10800).1, act := act, qm := qm
    z0 := s.readTileImage part va 0x1D000, z1 := s.readTileImage part va 0x35400 }
  match saved.filter fun q => opsC.words 16 (q.ops, q.quadOps) == w with
  | some q => { a with ops := q.ops, quadWant := q.quadWant, quadOps := q.quadOps }
  | none => { a with ops := (opsC.read w).1.map (s.opData part va h), quadOps := (opsC.read w).2 }

/-- The state after an image has been loaded at a free index of the acting core (R368); bp is set for RESTORE (R221). -/
def State.loadActor (s : State) (va idx : Nat) (h : ImageHeader) (i : Option Image) (bp : Bool) : State :=
  let n := s.cur
  let part := h.part
  let b := s.readActor part va h i
  let a := b.releasedAt (s.owedTo b)
  let s1 := if s.c.m.ways < h.ways then s.convert h.ways else s
  let win := (s.distReads part (va + imageBase (h.flags % 2 == 1)) ((h.hi - h.lo) * 1024)).getD []
  let x : Option Ctx := if h.flags / 2 % 2 == 1 then some (s.readCtx part va (i.bind (·.ctx))) else none
  let s2 := s1.upCore n fun c =>
    let c1 := { c with m := { c.m with lm := c.m.lm.setGrans (h.lo * 1024) win } }
    let c2 := a.ownSlots.foldl (fun c k => c.setStream k (s.readStream part va k ((i.bind fun j => j.streams.find? (·.1 == k)).map (·.2)))) c1
    let owner := x.bind fun y => c.freeCtx.map fun k => (k, y.firing.map (·.entry))
    let c3 := if h.flags % 2 == 1 then { c2 with arr := (s.readArr part va h (i.bind (·.arr))).moved owner } else c2
    let c4 := { c3.setActor idx (some a) with outbound := c3.outbound ++ (i.elim [] (·.drains)).map fun m => { m with core := n } }
    match x, c.freeCtx with
    | some y, some k =>
      let z : Ctx := { y with bp := bp || y.bp, firing := y.firing.map fun f => { f with actor := idx } }
      c4.setCtx k (if a.stopped then z.halt s.time else z.goOn s.time)
    | _, _ => c4
  ((s2.moveMember a n idx).settleOwed a).reland a.part a.addr (some (n, h.lo * 8192))

end Sys2Proof.Machine
end

