-- ==== Sys2Proof/Machine/Distributor.lean ====
section
/-!
DEFINITION. The distributor and the host window: launch queues (R393 to R396), taking and checking a stage (R189, R191, R372), placing a gang
(R190, R373), aging, returned weight (R189), and host accesses (R392).
-/

namespace Sys2Proof.Machine

/-! ## The launch queues (R394) -/

/-- The state with one item more that the host has received. -/
def State.tell (s : State) (i : HostItem) : State := { s with host := s.host ++ [i] }
/-- The state with a stage changed. -/
def State.upStage (s : State) (key : Nat) (f : Stage → Stage) : State :=
  { s with dist := { s.dist with stages := s.dist.stages.map fun u => if u.key = key then f u else u } }

/-- LQRSV_READ: a read returns RESERVE and increments it, or returns all ones. -/
def execLqrsvRead (part queue : Nat) (s : State) : Host.Outcome State Fault Refusal :=
  runEvent s do
    need (part < 16 && queue < 16 && !s.vaBusy part (s.queue part queue).cb.toNat 6)
    match s.qTake part queue with
    | some (i, t) => set (t.tell (.reserved (BitVec.ofNat 64 i)))
    | none => set (s.tell (.reserved (BitVec.allOnes 64)))

/-- LQTAIL_WRITE: a write commits an index, or is ignored. -/
def execLqtailWrite (part queue : Nat) (idx : Word) (s : State) : Host.Outcome State Fault Refusal :=
  runEvent s do
    need (part < 16 && queue < 16 && !s.vaBusy part (s.queue part queue).cb.toNat 6)
    set (s.qCommit part queue idx.toNat)

/-- LAUNCH_QUEUE_SETUP: the device manager writes the control block and enables the queue, or disables it; the indices start at zero (log 41). -/
def execLaunchQueueSetup (part queue : Nat) (cb base : Word) (count : Nat) (enable : Bool) (s : State) : Host.Outcome State Fault Refusal :=
  runEvent s do
    need (part < 16 && queue < 16 && (s.part part).st == .active)
    if !enable then set (s.upQueue part queue fun q => { q with enabled := false })
    else
      need (cb.toNat % 64 == 0 && base.toNat % 64 == 0 && [8, 16, 32, 64, 128, 256, 512, 1024, 2048, 4096, 8192, 16384, 32768, 65536].contains count
        && (s.distPa part cb.toNat true).isSome && !s.vaBusy part cb.toNat 8)
      let words := [base, BitVec.ofNat 64 count] ++ List.replicate 6 0
      set ((s.distWrites part cb.toNat (sealed words)).upQueue part queue fun _ => ⟨cb, true, [], []⟩)

/-! ## Records -/

/-- A record of n 64-bit words at a virtual address, when it lies in pages that the partition may read. -/
def State.record (s : State) (part va n : Nat) (w : Nat) : Option (BitVec w) := (s.distReads part va n).map fun l => BitVec.ofNat w (packWords l)

/-- The header of an actor record (R372). -/
abbrev ActorRec := BitVec 2048
/-- CL. -/
def recCl (r : ActorRec) : Nat := bytesAt r 4 4
/-- LL. -/
def recLl (r : ActorRec) : Nat := bytesAt r 8 4
/-- MINWIN. -/
def recMinwin (r : ActorRec) : Nat := bytesAt r 12 4
/-- SPILL. -/
def recSpill (r : ActorRec) : Nat := bytesAt r 16 4
/-- NCREL. -/
def recNcrel (r : ActorRec) : Nat := bytesAt r 20 4
/-- The configuration word of mailbox m, with its ring at an offset. -/
def recMb (r : ActorRec) (m : Nat) : Mailbox := ⟨BitVec.ofNat 64 (bytesAt r (32 + 8 * m) 8), bytesAt r (96 + 4 * m) 4, [], [], [], none⟩
/-- n rounded up to a multiple of m. -/
def roundUp (n m : Nat) : Nat := (n + m - 1) / m * m
/-- The offset of the lm content. -/
def recLmAt (r : ActorRec) : Nat := roundUp (256 + recCl r) 128
/-- The offset of the code relocations. -/
def recRelAt (r : ActorRec) : Nat := roundUp (recLmAt r + recLl r) 8

/-- Whether the fixed fields of an actor record are valid (R372). -/
def recOk (r : ActorRec) : Bool :=
  let on := (List.range 8).filter fun m => (recMb r m).kind ≠ 3
  let last := fun m => ringEnd (recMb r m).base (recMb r m).k (recMb r m).z
  bytesAt r 0 4 == 1 && recCl r % 2 == 0 && recCl r ≤ 0x7A000 && bytesAt r 192 64 == 0
    && (List.range 8).all (fun m => let b := recMb r m
        if b.kind == 0 || b.kind == 2 then b.entry % 2 == 0 && b.entry < recCl r else b.entry == 0)
    && on.all (fun m => (recMb r m).base % 128 == 0 && recLl r ≤ (recMb r m).base && last m ≤ recMinwin r * 8192 && last m ≤ recSpill r
        && on.all fun n => m == n || last m ≤ (recMb r n).base || last n ≤ (recMb r m).base)
    && recSpill r % 8 == 0 && recSpill r < recMinwin r * 8192
    && (let b := recMb r 7; b.kind == 0 && 1 ≤ b.f 14 3 && 1 ≤ b.rsv)

/-- Whether a code relocation names a field inside the code or the lm content (R372). -/
def relOk (r : ActorRec) (x : Word) : Bool :=
  let o := x.toNat % 2 ^ 32
  x.toNat / 2 ^ 40 == 0 && match x.toNat / 2 ^ 32 % 2 ^ 8 with
    | 1 | 2 => o + 4 ≤ recCl r
    | 3 => o + 8 ≤ recLl r
    | _ => false

/-- The relocations of an actor record. -/
def State.relocs (s : State) (part at' : Nat) (r : ActorRec) : Option (List Word) :=
  (s.distReads part (at' + recRelAt r) (recNcrel r)).map fun l => l.map (·.1)

/-- The valid actor record at an address (R191, R372); the end of its file is not known to the distributor, so the record itself must be readable
(log 38). -/
def State.actorRec (s : State) (part at' : Nat) : Option ActorRec :=
  if at' % 256 ≠ 0 then none
  else match s.record part at' 32 2048 with
    | none => none
    | some r =>
      if recOk r && (s.distReads part (at' + 256) ((recLmAt r + recLl r + 7 - 256) / 8)).isSome then
        match s.relocs part at' r with
        | some l => if l.all (relOk r) then some r else none
        | none => none
      else none

/-- A gang entry (R189). -/
abbrev GangEntry := BitVec 256
/-- The member count. -/
def geMembers (e : GangEntry) : Nat := bytesAt e 8 2
/-- The scope: 0 anywhere, 1 one slate, 2 one cluster. -/
def geScope (e : GangEntry) : Nat := bytesAt e 10 1 % 4
/-- Whether members stand in whole quads. -/
def geQuads (e : GangEntry) : Bool := e.getLsbD 82
/-- The route tags needed. -/
def geTags (e : GangEntry) : Nat := bytesAt e 11 1
/-- The window in 8 KiB units. -/
def geWindow (e : GangEntry) : Nat := bytesAt e 12 4
/-- The bytes of the first message. -/
def geLen (e : GangEntry) : Nat := 16 * 4 ^ bytesAt e 26 1
/-- The stream slots needed. -/
def geSlots (e : GangEntry) : BitVec 16 := BitVec.ofNat 16 (bytesAt e 28 2)
/-- Whether the array is needed. -/
def geArr (e : GangEntry) : Bool := e.getLsbD 240

/-- Whether a gang entry is malformed for a partition (R191). -/
def State.entryBad (s : State) (part : Nat) (e : GangEntry) : Bool :=
  let n := geMembers e
  bytesAt e 10 1 / 8 != 0 || bytesAt e 30 1 / 2 != 0 || bytesAt e 31 1 != 0 || n == 0 || 1024 < n || geScope e == 3 || 8 < geTags e
    || (geQuads e && n % 4 != 0) || (geScope e == 1 && 256 < n) || (geScope e == 2 && 16 < n) || geWindow e == 0 || 62 < geWindow e
    || 4 < bytesAt e 26 1 || 6 < bytesAt e 27 1 || 0xFFE0 ≤ bytesAt e 24 2 || bytesAt e 16 8 % 16 != 0
    || (s.distReads part (bytesAt e 16 8) (geLen e / 8)).isNone
    || match s.actorRec part (bytesAt e 0 8) with
      | none => true
      | some r => geWindow e < recMinwin r

/-- The gang entry i of a stage record. -/
def State.gangEntry (s : State) (part : Nat) (r : BitVec 512) (i : Nat) : Option GangEntry := s.record part (bytesAt r 8 8 + 32 * i) 4 256
/-- The gang count of a stage record. -/
def stGangs (r : BitVec 512) : Nat := bytesAt r 16 2

/-- Whether a stage record is malformed (R191). -/
def State.stageBad (s : State) (part : Nat) (r : BitVec 512) : Bool :=
  bytesAt r 18 1 / 8 != 0 || bytesAt r 19 1 != 0 || bytesAt r 24 40 != 0 || stGangs r == 0 || 256 < stGangs r || bytesAt r 8 8 % 32 != 0
    || (List.range (stGangs r)).any fun i => match s.gangEntry part r i with
      | none => true
      | some e => s.entryBad part e

/-- The ranges that the distributor reads for a gang entry, as addresses with their granules: its actor record and its payload (R191, R373). -/
def State.entryRanges (s : State) (part : Nat) (e : GangEntry) : List (Nat × Nat) :=
  let at' := bytesAt e 0 8
  [(at', 32), (bytesAt e 16 8, geLen e / 8)] ++ match s.actorRec part at' with
    | some r => [(at', (recRelAt r + 7) / 8 + recNcrel r)]
    | none => []
/-- Whether a read of one of some ranges waits for a locked line (R249). -/
def State.rangesBusy (s : State) (part : Nat) (l : List (Nat × Nat)) : Bool := l.any fun x => s.vaBusy part x.1 x.2
/-- Whether the check of a stage record waits for a locked line (R249). -/
def State.stageLocked (s : State) (part : Nat) (r : BitVec 512) : Bool :=
  s.vaBusy part (bytesAt r 8 8) (4 * min 256 (stGangs r)) || (List.range (min 256 (stGangs r))).any fun i => match s.gangEntry part r i with
    | some e => s.rangesBusy part (s.entryRanges part e)
    | none => false

/-- DISTRIBUTOR_TAKE_STAGE (R191, R395): the committed record at HEAD is taken and checked; a malformed stage ends with status 2. -/
def execDistributorTakeStage (part queue : Nat) (s : State) : Host.Outcome State Fault Refusal :=
  runEvent s do
    let q := s.queue part queue
    let h := s.qHead part queue
    need (part < 16 && queue < 16 && !s.queueBusy part queue h)
    need (q.enabled && q.committed.contains h && (s.part part).st == .active)
    let rd := s.record part (s.qSlot part queue h) 8 512
    need !(rd.any fun r => s.stageLocked part r)
    let t : Stage := ⟨s.dist.next, part, queue, h, rd.getD 0, 0, 0, 0, s.time⟩
    let s1 := (s.setCtl part queue 24 (h + 1)).upQueue part queue fun q => { q with committed := q.committed.filter (· != h) }
    let s2 := { s1 with dist := { s1.dist with next := s1.dist.next + 1, stages := s1.dist.stages ++ [t] } }
    let bad : Bool := match rd with
      | none => true
      | some r => s.stageBad part r
    set (if bad then s2.endStage t.key 2 else s2)

/-! ## Placement (R190, R373) -/

/-- Whether core n is ready and takes part in placement (R12, R353, R401). -/
def State.readyCore (s : State) (n : Nat) : Bool :=
  s.power.ready.contains (if isEave n then .eave (n - 1024) else .core n) && !(s.core n).failed

/-- The smallest XB bound that covers code up to an address, not below the present one (R373). -/
def Core.boundFor (c : Core) (top : Nat) : Nat := max c.m.xb.toNat ((top + 8191) / 8192)

/-- Whether a code relocation keeps its field in range after c is added (R373): w is the word of the code that it names. -/
def relFits (c : Nat) (x w : Word) : Bool :=
  match x.toNat / 2 ^ 32 % 2 ^ 8 with
  | 1 =>
    let v := (w.extractLsb' 21 8).toInt + (c : Int)
    v ≤ 127 && 0 ≤ v + 128
  | 2 => (w.extractLsb' 16 16).toNat + c ≤ (if (w.extractLsb' 2 6).toNat = 6 then 32767 else 65535)
  | _ => true

/-- The 64 bits from byte o of granules. -/
def bytesFrom (l : List (Word × Byte)) (o : Nat) : Word :=
  BitVec.ofNat 64 (packWords [l.getD (o / 8) (0, 0), l.getD (o / 8 + 1) (0, 0)] / 2 ^ (8 * (o % 8)))

/-- Whether one member can be placed on core n, at index idx, with code base c and window base lo (R373). -/
def Core.canPlace (n : Nat) (c : Core) (e : GangEntry) (r : ActorRec) (rel : List (Word × Word)) (idx code lo : Nat) : Bool :=
  let others := c.actors.filterMap fun x => x.2
  let xb := c.boundFor (code + recCl r)
  let hi := lo + geWindow e
  idx < 16 && (c.actor idx).isNone
    && others.all (fun a => a.csr.asgSlots &&& geSlots e == 0 && !(geArr e && a.csr.asgArr) && !overlaps code (recCl r) a.code a.codeLen
        && (xb == c.m.xb.toNat || xb ≤ a.csr.lo.toNat) && !unitsMeet lo hi a.csr.lo.toNat a.csr.hi.toNat)
    && !(geArr e && isEave n) && code % 128 == 0 && 0x4000 ≤ code && rel.all (fun x => relFits code x.1 x.2) && xb < 64
    && xb ≤ lo && hi ≤ 64 + c.m.ways

/-- The relocations of a record, each with the code word that it names. -/
def State.relWords (s : State) (part at' : Nat) (r : ActorRec) : List (Word × Word) :=
  ((s.relocs part at' r).getD []).map fun x =>
    let o := x.toNat % 2 ^ 32
    (x, bytesFrom ((s.distReads part (at' + 256 + o / 8 * 8) 2).getD []) (o % 8))

/-- Whether some code base and window of core n can take a member (R190). -/
def Core.canHold (n : Nat) (c : Core) (e : GangEntry) (r : ActorRec) (rel : List (Word × Word)) : Bool :=
  (List.range 16).any fun i => (c.actor i).isNone &&
    (List.range 3968).any fun k => (List.range 72).any fun lo => c.canPlace n e r rel i (0x4000 + 128 * k) lo

/-- The physical tags in use on a slate (R227). -/
def State.tagsUsed (s : State) (slate : Nat) : List Nat :=
  s.dist.gangs.flatMap fun g => if g.members.any fun m => slateOf m.1 == slate then g.tags.map (·.phys) else []
/-- Whether enough of the eight physical tags are free on every slate of a set (R227). -/
def State.tagsFree (s : State) (e : GangEntry) (slates : List Nat) : Bool :=
  geTags e ≤ ((List.range 8).filter fun t => slates.all fun k => !(s.tagsUsed k).contains t).length

/-- Whether a set of cores can take a gang: enough of them, under its scope, in whole quads, and with its route tags free on the slates that they
span (R190, R191). -/
def enoughCores (e : GangEntry) (ns : List Nat) (free : List Nat → Bool) : Bool :=
  let ok := fun (l : List Nat) =>
    if geQuads e then
      geMembers e ≤ 4 * ((List.range 256).filter fun q => [0, 1, 2, 3].all fun i => l.contains (4 * q + i)).length
    else geMembers e ≤ l.length
  match geScope e with
  | 1 => (List.range 4).any fun k => ok (ns.filter fun n => slateOf n == k) && free [k]
  | 2 => (List.range 64).any fun k => ok (ns.filter fun n => !isEave n && clusterOf n == k) && free [slateOf (16 * k)]
  | _ => (List.range 16).any fun b =>
    let ks := (List.range 4).filter fun k => b.testBit k
    ok (ns.filter fun n => ks.contains (slateOf n)) && free ks

/-- The core with every actor freed; XB stays (R191). -/
def Core.bare (c : Core) : Core := { c with actors := [] }

/-- Whether the partition can ever place a gang, and whether it can now, when its park area has buffers enough (R190, R191, R373). -/
def State.placeable (s : State) (part : Nat) (e : GangEntry) (ever : Bool) : Bool :=
  let at' := bytesAt e 0 8
  match s.actorRec part at' with
  | none => false
  | some r =>
    let rel := s.relWords part at' r
    (ever || geMembers e ≤ (s.part part).park.length) && enoughCores e ((s.part part).cores.filter fun n => s.readyCore n &&
      Core.canHold n (if ever then (s.core n).bare else s.core n) e r rel) fun ks => ever || s.tagsFree e ks

/-- The priority class of a stage, with its raise (R189, R190). -/
def Stage.cls (t : Stage) : Nat := min 3 (bytesAt t.record 18 1 % 4 + t.raised)
/-- Whether a stage still has gangs to place. -/
def Stage.waits (t : Stage) : Bool := t.placed < stGangs t.record

/-- Whether the places of a gang satisfy its scope, its quads and its tags (R190): in ascending core number, on distinct cores. -/
def gangPlacesOk (e : GangEntry) (ps : List Place) : Bool :=
  let ns := ps.map (·.core)
  ps.length == geMembers e && (ns.zip (ns.drop 1)).all (fun x => x.1 < x.2)
    && (match geScope e with
      | 1 => ns.all fun n => slateOf n == slateOf (ns.headD 0)
      | 2 => ns.all fun n => !isEave n && clusterOf n == clusterOf (ns.headD 0)
      | _ => true)
    && (!geQuads e || ns.all fun n => n < 1024 && [0, 1, 2, 3].all fun i => ns.contains (n / 4 * 4 + i))

/-- Whether the tags given to a gang are enough, distinct, and free on every slate it spans (R227). -/
def State.tagsOk (s : State) (e : GangEntry) (ps : List Place) (tags : List Nat) : Bool :=
  tags.length == geTags e && tags.Nodup && tags.all fun t => t < 8 && ps.all fun p => !(s.tagsUsed (slateOf p.core)).contains t

/-- A memory with the seals of granules that a lane has written anew from those of a memory before: poison where the check of the old one failed (R44, R286). -/
def Mem.reseal (old m : Mem) (l : List Nat) : Mem :=
  l.foldl (fun m g => m.setSeal g (laneOut (m.gran g) (syn (old.gran g) (old.sealOf g))).2) m

/-- A memory with a number added to the field of w bits at bit lo of the 64 bits at a byte address; a lane checks and seals the granules it touches
(R44, R372). -/
def Mem.addField (m : Mem) (a lo w c : Nat) : Mem :=
  let x := leNat (m.read a 8)
  let f := x / 2 ^ lo % 2 ^ w
  let y := x - f * 2 ^ lo + (f + c) % 2 ^ w * 2 ^ lo
  let m1 := (List.range 8).foldl (fun m i => m.setByte (a + i) (BitVec.ofNat 8 (y / 2 ^ (8 * i)))) m
  Mem.reseal m m1 [a / 8, (a + 7) / 8]

/-- A memory with the code relocations of a record applied for code base c and lm content at win (R372). -/
def Mem.relocate (m : Mem) (c win : Nat) : List Word → Mem
  | [] => m
  | x :: r =>
    let o := x.toNat % 2 ^ 32
    Mem.relocate (match x.toNat / 2 ^ 32 % 2 ^ 8 with
      | 1 => m.addField (c + o) 21 8 c
      | 2 => m.addField (c + o) 16 16 c
      | _ => m.addField (win + o) 0 64 c) c win r

/-- A memory with n bytes of granules written from an address; a last partial granule is merged by a lane and keeps its other bytes (R44, R373). -/
def Mem.copyIn (m : Mem) (a n : Nat) (l : List (Word × Byte)) : Mem :=
  let m1 := m.setGrans (a / 8) (l.take (n / 8))
  if n % 8 = 0 then m1
  else
    let g := a / 8 + n / 8
    let w := laneMerge (m1.gran g, m1.sealOf g) (l.getD (n / 8) (0, 0)) (maskOf 0 (n % 8))
    m1.setGran g w.1 w.2.1

/-- The actor that placement makes (R373). -/
def newActor (p : Partition) (part gang stage rank : Nat) (addr : BitVec 32) (e : GangEntry) (r : ActorRec) (q : Place) : Actor :=
  let win := q.lo * 8192
  let mb := fun (m : Nat) =>
    let b := recMb r m
    let w := if b.kind == 0 || b.kind == 2 then BitVec.ofNat 64 (b.cfg.toNat + q.code * 2 ^ 45) else b.cfg
    if b.kind == 3 then Mailbox.disabled else ⟨w, win + b.base, [], [], [], none⟩
  { addr := addr, part := part, gang := gang, stage := stage, rank := rank
    csr := { ActorCsrs.reset with
      hbudget := p.hbudget, age := p.age, lo := BitVec.ofNat 7 q.lo, hi := BitVec.ofNat 7 (q.lo + geWindow e), asgSlots := geSlots e, asgArr := geArr e
      rspBase := BitVec.ofNat 16 ((win + recSpill r) / 8) }
    mbs := tabFrom .disabled 8 mb, tags := [], ridge := List.replicate (geTags e) .idle, tlr := [], pub := none, stopped := false, parking := false
    fence := false, code := q.code, codeLen := recCl r, recAddr := BitVec.ofNat 64 (bytesAt e 0 8), quads := geQuads e }

/-- The state after one member has been placed and its first message sent (R188, R373). -/
def State.placeOne (s : State) (t : Stage) (gang rank : Nat) (e : GangEntry) (r : ActorRec) (q : Place) : State :=
  let at' := bytesAt e 0 8
  let part := t.part
  let addr := BitVec.ofNat 32 (s.devNum.toNat * 2 ^ 24 + q.id * 16)
  let a := newActor (s.part part) part gang t.key rank addr e r q
  let code := (s.distReads part (at' + 256) ((recCl r + 7) / 8)).getD []
  let data := (s.distReads part (at' + recLmAt r) ((recLl r + 7) / 8)).getD []
  let rel := (s.relocs part at' r).getD []
  let s1 := s.upCore q.core fun c =>
    let lm := ((c.m.lm.copyIn q.code (recCl r) code).zero (q.lo * 1024) (geWindow e * 1024)).copyIn (q.lo * 8192) (recLl r) data
    { c.setActor q.idx (some a) with
      m := { c.m with lm := lm.relocate q.code (q.lo * 8192) rel, xb := BitVec.ofNat 6 (c.boundFor (q.code + recCl r)) }
      arr := if geArr e then .reset else c.arr }
  let park := (s.part part).park.headD 0
  let s2 := (s1.upPart part fun p => { p with park := p.park.drop 1 }).setAmap part addr (amMake (BitVec.ofNat 64 park) 1 q.core q.idx)
  let s3 := (s2.parkSet (BitVec.ofNat 64 park) 0 64).parkSet (BitVec.ofNat 64 park) 1 64
  let root := rank = 0 && t.placed = 0
  s3.sendHw (.first t.key) part (addr ||| BitVec.ofNat 32 (bytesAt e 27 1)) (bytesAt e 24 2) (if root then 1 else 0) 1
    ((s.distReads part (bytesAt e 16 8) (geLen e / 8)).getD []) (if root then 2 ^ 63 else 0)

/-- Whether the distributor's read of the entry of a stage's next gang, or of what the entry names, waits for a locked line (R249). -/
def State.headLocked (s : State) (t : Stage) : Bool :=
  t.waits && (s.vaBusy t.part (bytesAt t.record 8 8 + 32 * t.placed) 4 || match s.gangEntry t.part t.record t.placed with
    | some e => s.rangesBusy t.part (s.entryRanges t.part e)
    | none => false)

/-- The state after the members of a gang have been placed, in the order of their indices. -/
def State.placeAll (s : State) (t : Stage) (gang : Nat) (e : GangEntry) (r : ActorRec) : Nat → List Place → State
  | _, [] => s
  | k, q :: l => State.placeAll (s.placeOne t gang k e r q) t gang e r (k + 1) l

/-- Whether a gang can be evicted to images at addresses: each member that is on a core is ready to be saved, nothing is on its way to it, and its image
is writable (R365, R369). -/
def State.evictable (s : State) (g : Gang) (vas : List Word) : Bool :=
  vas.length == g.members.length && (g.members.zip vas).all fun (m, va) => match s.memberAt g m with
    | some (core, idx) => s.saveReady core idx && !s.inFlightTo core idx && va.toNat % 8192 == 0 && match (s.core core).actor idx with
      | some a => s.rangeOk g.part va.toNat a.imageLen true && !s.vaBusy g.part va.toNat (a.imageLen / 8)
      | none => false
    | none => true

/-- Whether a gang may be evicted for a stage: pre-emptible, of a lower class, all its members ready to be saved, its images writable (R190, R369). -/
def State.mayEvict (s : State) (t : Stage) (x : Nat × List Word) : Bool :=
  match s.gangOf x.1 with
  | none => false
  | some g => match s.dist.stages.find? fun u => u.key = g.stage with
    | none => false
    | some u => u.record.getLsbD 146 && u.cls < t.cls && g.part == t.part && s.evictable g x.2

/-- The class of the stage of a gang that may be evicted for a stage: pre-emptible, of a lower class, all of it on its cores (R190). -/
def State.victim (s : State) (t : Stage) (g : Gang) : Option Nat := match s.dist.stages.find? fun u => u.key = g.stage with
  | some u => if u.record.getLsbD 146 && u.cls < t.cls && g.part == t.part && g.members.all (fun m => (s.memberAt g m).isSome) then some u.cls else none
  | none => none

/-- The state as placement would find it without a gang. -/
def State.without (s : State) (g : Gang) : State :=
  let s1 := g.members.foldl (fun u m => u.upCore m.1 fun c => c.setActor m.2.1 none) s
  { s1 with dist := { s1.dist with gangs := s1.dist.gangs.filter fun h => h.id != g.id } }

/-- Whether a gang is the next to be evicted for a stage (R190): of the gangs of the lowest class that would make room, the youngest; where none
makes room by itself, of all that may be evicted. -/
def State.evictNext (s : State) (t : Stage) (e : GangEntry) (i : Nat) : Bool :=
  let all := s.dist.gangs.filter fun g => (s.victim t g).isSome
  let rooms := all.filter fun g => (s.without g).placeable t.part e false
  let pool := if rooms.isEmpty then all else rooms
  pool.any fun h => h.id = i && pool.all fun g =>
    let k := (s.victim t g).getD 0
    let k' := (s.victim t h).getD 0
    g.id = i || k' < k || (k' == k && g.placedAt ≤ h.placedAt)

/-- Whether a stage stands at the head of its class, and no head of a higher class can be placed, now or by an eviction (R190). -/
def State.mayPlace (s : State) (t : Stage) : Bool :=
  s.dist.stages.all fun u => u.key == t.key || !u.waits || u.part != t.part || u.cls < t.cls || (u.cls == t.cls && t.key < u.key)
    || (t.cls < u.cls && match s.gangEntry u.part u.record u.placed with
      | some e => !s.placeable u.part e false && !s.dist.gangs.any fun g => (s.victim u g).isSome && (s.without g).placeable u.part e false
      | none => true)

/-- The state after a gang has been stopped and evicted to images (R190, R369). -/
def State.evictGang (s : State) (x : Nat × List Word) : State :=
  match s.gangOf x.1 with
  | none => s
  | some g =>
    let s1 := g.members.foldl (fun u m => match u.memberAt g m with
      | some (core, idx) => u.haltMember core idx none
      | none => u) s
    let s2 := (g.members.zip x.2).foldl (fun u (m, va) => match u.memberAt g m with
      | some (core, idx) => match (u.core core).actor idx with
        | some a => (u.parkEntry a core idx).evictActor core idx va.toNat
        | none => u
      | none => u) s1
    s2.upGang g.id fun g => { g with stopped := true }

/-- The state after the evictions that make room for a gang of a stage, one at a time while it cannot be placed (R190); none where one of them is not
the next. -/
def State.evictFor (s : State) (t : Stage) (e : GangEntry) : List (Nat × List Word) → Option State
  | [] => some s
  | x :: r => if !s.placeable t.part e false && s.mayEvict t x && s.evictNext t e x.1 then State.evictFor (s.evictGang x) t e r else none

/-- Whether every place of a gang can be carried out (R373). -/
def State.placesOk (s : State) (t : Stage) (e : GangEntry) (r : ActorRec) (ps : List Place) : Bool :=
  let rel := s.relWords t.part (bytesAt e 0 8) r
  ps.length ≤ (s.part t.part).park.length && (ps.map (·.id)).Nodup && ps.all fun p =>
    (s.part t.part).cores.contains p.core && s.readyCore p.core && p.id < 0xFFFFF
      && amState (tget 0 (s.part t.part).amap p.id) == 0 && Core.canPlace p.core (s.core p.core) e r rel p.idx p.code p.lo

/-- GANG_PLACEMENT (R190, R373): the next gang of a stage is placed all or none, after the evictions that make room; a gang that can never be placed
ends its stage with status 4 (R191).  Which places, ids, tags and image addresses are the distributor's choice (log 23). -/
def execGangPlacement (stage gang : Nat) (places : List Place) (tags : List Nat) (evict : List (Nat × List Word)) (s : State) :
    Host.Outcome State Fault Refusal :=
  runEvent s do
    let t ← needSome (s.dist.stages.find? fun t => t.key = stage)
    need (t.waits && !s.dist.stages.any s.headLocked)
    need (s.mayPlace t)
    let e ← needSome (s.gangEntry t.part t.record t.placed)
    if !s.placeable t.part e true then
      need !s.stageBusy stage
      set (s.endStage stage 4)
    else
      let r ← needSome (s.actorRec t.part (bytesAt e 0 8))
      let u ← needSome (s.evictFor t e evict)
      need (gangPlacesOk e places && u.tagsOk e places tags && u.placesOk t e r places && gang < 2 ^ 32 && (s.gangOf gang).isNone
        && !((u.part t.part).park.take places.length).any fun a => u.locked (a / 8))
      let v := u.placeAll t gang e r 0 places
      let ms := (places.map fun p => (p.core, p.idx, BitVec.ofNat 32 (s.devNum.toNat * 2 ^ 24 + p.id * 16)))
      let g : Gang := ⟨gang, t.part, stage, e, ms, tags.map fun p => ⟨p, 0, 0, none, []⟩, false, s.time⟩
      set ({ v with dist := { v.dist with gangs := v.dist.gangs ++ [g] } }.upStage stage fun u => { u with placed := u.placed + 1 })

/-- STAGE_AGING_EXPIRY (R190): a stage that has waited longer than the partition's aging interval is raised one class. -/
def execStageAgingExpiry (stage : Nat) (s : State) : Host.Outcome State Fault Refusal :=
  runEvent s do
    let t ← needSome (s.dist.stages.find? fun t => t.key = stage)
    need (t.waits && t.raised == 0 && (s.part t.part).aging < s.time - t.taken)
    set (s.upStage stage fun u => { u with raised := 1 })

/-- WEIGHT_RETURN_ARRIVAL (R189, R205): returned weight is added to the stage's sum; at exactly 2^63 the stage is complete. -/
def execWeightReturnArrival (id : Nat) (s : State) : Host.Outcome State Fault Refusal :=
  runEvent s do
    let r ← needSome (s.dist.returns.find? fun r => r.1 = id)
    let s1 := { s with dist := { s.dist with returns := s.dist.returns.filter fun q => q.1 != id } }
    match s.dist.stages.find? fun t => t.key = r.2.1 with
    | none => set s1
    | some t =>
      let sum := t.sum + r.2.2
      if sum = 2 ^ 63 then
        need !s.stageBusy t.key
        set (s1.endStage t.key 0)
      else set (s1.upStage t.key fun u => { u with sum := sum })

/-! ## The host (R392) -/

/-- The translations of the granules that n bytes at va touch, when all are permitted. -/
def State.hostXlats (s : State) (part va n : Nat) (write : Bool) : Option (List Xlat) :=
  (List.range ((va % 8 + n + 7) / 8)).mapM fun i => s.distXlat part (va / 8 * 8 + 8 * i) write

/-- The granule writes of bytes: each granule's mask and data. -/
def hostWrites (va : Nat) (bs : List Byte) (i : Nat) : BitVec 8 × Word :=
  let f := fun (j : Nat) => if va ≤ va / 8 * 8 + 8 * i + j then bs[va / 8 * 8 + 8 * i + j - va]? else none
  (BitVec.ofNat 8 (packNat 1 ((List.range 8).map fun j => if (f j).isSome then 1 else 0)),
    BitVec.ofNat 64 (packNat 8 ((List.range 8).map fun j => ((f j).getD 0).toNat)))

/-- HOST_ACCESS (R392): the host reads or writes device memory at home with the page tables of a partition, as home-direct accesses are performed (R85);
an access that does not translate or is not permitted fails (log 42), one of another device's frame is checked there (R356, R399), and one through a
discarded key slot is a memory error (R361). -/
def execHostAccess (part : Nat) (va : Word) (len : Nat) (data : Option (List Byte)) (s : State) : Host.Outcome State Fault Refusal :=
  runEvent s do
    let n := match data with
      | some bs => bs.length
      | none => len
    need !s.vaBusy part (va.toNat / 8 * 8) ((va.toNat % 8 + n + 7) / 8)
    match s.hostXlats part va.toNat n data.isSome with
    | none => set (s.tell .accessFault)
    | some xs =>
      let pas := xs.map (·.pa)
      let t := xs.foldl (fun u x => (u.visit (x.pa / 8)).noteSlot part x) s
      match data with
      | none =>
        let all := pas.flatMap fun pa => wordList (t.answer part (pa / 8)).1
        set (t.tell (.read ((all.drop (va.toNat % 8)).take n)))
      | some bs =>
        set ((pas.zipIdx).foldl (fun u (pa, i) =>
          let w := hostWrites va.toNat bs i
          let g := if w.1 = 0xFF then (w.2, sealFn w.2, (0 : Byte)) else laneMerge (u.homeGran (pa / 8)) (w.2, sealFn w.2) w.1
          if u.denied part pa || u.lostAt (pa / 8) then u else u.homePut (pa / 8) g.1 g.2.1) t)

end Sys2Proof.Machine
end

