-- ==== Sys2Proof/Machine/Copies.lean ====
section
/-!
DEFINITION. Tensor layout records and copies: major 0x26 (R318 to R341), the events of a copy but its follow-on, and the page swap (R339, R340).
-/

namespace Sys2Proof.Machine

/-! ## Handles (R322) -/

/-- Whether an outstanding copy or a SENDT tile of an actor names a handle (R322). -/
def State.handleBusy (s : State) (a : Actor) (h : Nat) : Bool :=
  (s.dist.copies.any fun c => c.addr == a.addr && c.part == a.part && ((bytesAt c.block 0 4 == h && !c.block.getLsbD 256)
      || (bytesAt c.block 8 4 == h && !c.block.getLsbD 257)))
    || (s.cores.any fun e => e.2.outbound.any fun m => m.src == a.addr && m.part == a.part && m.tiles.any fun t => t.handle == h)
    || s.dist.parked.any fun e => e.2.src == a.addr && e.2.part == a.part && e.2.tiles.any fun t => t.handle == h

/-- TLRDEF (R322, R408).  A record with format code 14 or 15 is not valid (R318) and gives the error value of R322, as R341 reports every other problem by the
result; R22 and R59 name ILLEGAL of cause 0x05 for such a code from a record (DESIGN CHOICE, log 68). -/
def execTlrdef (a d : BitVec 5) (l : BitVec 3) (s : State) : Host.Outcome State Fault Refusal :=
  finish s do
    let r ← issue l.toNat false [gR a]
    let g ← readG r a
    match s.act with
    | none => writeVarG d 0xFFFFFFFFFFFFFFFE
    | some k =>
      orTrap (g.toNat % 128 == 0) 0x03 g ({ kind := 0, size := 3 } : Acc).info
      granFaults g 16
      checkLms (g.toNat / 8) 16
      let rec' := (s.lmVec (g.toNat / 8)).1
      if !recValid rec' then writeVarG d 0xFFFFFFFFFFFFFFFE
      else match (List.range 16).find? fun e => !(tget .free k.tlr e).used with
        | none => writeVarG d 0xFFFFFFFFFFFFFFFF
        | some e =>
          let gen := (tget .free k.tlr e).gen + 1
          modify fun u => u.upAct fun k => { k with tlr := tset .free k.tlr e ⟨rec', gen, true⟩ }
          writeVarG d (BitVec.ofNat 64 (gen.toNat * 16 + e))
    retire 4

/-- TLRFREE (R322): the entry keeps its generation. -/
def execTlrfree (a d : BitVec 5) (l : BitVec 3) (s : State) : Host.Outcome State Fault Refusal :=
  finish s do
    let r ← issue l.toNat false [gR a]
    let g ← readG r a
    match s.act with
    | none => writeVarG d 2
    | some k =>
      if (k.tlrOf g.toNat).isNone then writeVarG d 2
      else if s.handleBusy k g.toNat then writeVarG d 1
      else
        let e := g.toNat % 16
        modify fun u => u.upAct fun k => { k with tlr := tset .free k.tlr e { tget .free k.tlr e with used := false } }
        writeVarG d 0
    retire 4

/-! ## The parameter block (R324, R325) -/

/-- Flag i of the FLAGS field. -/
def Copy.flag (c : Copy) (i : Nat) : Bool := c.block.getLsbD (256 + i)
/-- SRCLM. -/
def Copy.srcLm (c : Copy) : Bool := c.flag 0
/-- DSTLM. -/
def Copy.dstLm (c : Copy) : Bool := c.flag 1
/-- XF. -/
def Copy.xf (c : Copy) : Nat := bytesAt c.block 32 1 / 16 % 8
/-- The program's copy id. -/
def Copy.pid (c : Copy) : Nat := bytesAt c.block 30 2
/-- The follow-on word. -/
def Copy.fw (c : Copy) : Nat := bytesAt c.block 36 4
/-- The record whose tile gives the image. -/
def Copy.shape (c : Copy) : Vec := if c.srcLm then c.dstRec else c.srcRec
/-- The elements of the image. -/
def Copy.elems (c : Copy) : Nat := tileElems c.shape
/-- The bits of an element. -/
def Copy.w (c : Copy) : Nat := recBits c.shape
/-- ST. -/
def Copy.st (c : Copy) : Nat := bytesAt c.block 4 4
/-- DT. -/
def Copy.dt (c : Copy) : Nat := bytesAt c.block 12 4
/-- The destination actor of a copy into LM. -/
def Copy.dact (c : Copy) : BitVec 32 := BitVec.ofNat 32 (bytesAt c.block 16 4 / 8 * 8)

/-- A follow-on (R325): MLDB or MLDBS with its SP, MMA or MMAS, SEND with its size and class, or JADD. -/
inductive Follow where
  | load (sp : BitVec 2) (f : Fmt)
  | mma (sparse : Bool) (f : Fmt) (z : BitVec 1)
  | send (z : Nat) (tc : Nat)
  | jadd
  deriving DecidableEq, Repr

/-- The follow-on that a word stands for, where R325 permits it: its D, A and B fields and STL are 0. -/
def followOf (fw : Nat) : Option Follow :=
  let w := BitVec.ofNat 32 fw
  let fn := fw / 2 ^ 29
  let mode := fw / 2 ^ 26 % 8
  let regs := fw / 2 ^ 16 % 2 ^ 10
  let bits := fw / 2 ^ 8 % 8
  match fw % 256, Fmt.ofCode (w.extractLsb' 12 4) with
  | 0x8F, some f =>
    if regs == 0 && bits == 0 && !w.getLsbD 11 && f.bFmt && ((fn == 0 && mode == 0) || (fn == 1 && (mode == 1 || mode == 2))) then
      some (.load (BitVec.ofNat 2 mode) f)
    else none
  | 0x93, some f =>
    if regs == 0 && bits == 0 && f.aFmt && fn < 2 && mode == 0 then some (.mma (fn == 1) f (w.extractLsb' 11 1)) else none
  | 0x73, _ => if regs == 0 && fw / 2 ^ 10 % 64 == 0 && fn == 0 && mode ≤ 4 then some (.send mode (fw / 2 ^ 8 % 4)) else none
  | 0x7B, _ => if fw == 0x6000007B then some .jadd else none
  | _, _ => none

/-- Whether a follow-on word is one that R325 permits. -/
def followOk (fw : Nat) : Bool := (followOf fw).isSome

/-- The copy that a block would start for an actor, when the block is well formed but for its source image (R325). -/
def State.copyOf (s : State) (a : Actor) (block : BitVec 512) (follow : Bool) : Option Copy :=
  let c : Copy := { id := 0, core := s.cur, actor := s.actIdx, addr := a.addr, part := a.part, block := block
                    srcRec := (a.tlrOf (bytesAt block 0 4)).getD 0, dstRec := (a.tlrOf (bytesAt block 8 4)).getD 0, image := [], requested := false
                    parts := [], cancelled := false, bytes := 0, grs := [], landed := false, tile := none, rank := a.rank, tlb := [], land := none }
  let lm := c.srcLm || c.dstLm
  let srcOk : Bool := if c.srcLm then bytesAt block 0 4 == 0 else (a.tlrOf (bytesAt block 0 4)).isSome && c.st < tileCount c.srcRec
  let dstOk : Bool := if c.dstLm then bytesAt block 8 4 == 0 else (a.tlrOf (bytesAt block 8 4)).isSome && c.dt < tileCount c.dstRec
  let same : Bool := lm || (fld c.srcRec 8 1 % 16 == fld c.dstRec 8 1 % 16 && dims.all fun j => recE c.srcRec j == recE c.dstRec j)
  let dest : Bool := if c.dstLm then
      bytesAt block 16 4 / 2 ^ 24 == s.devNum.toNat && bytesAt block 16 4 / 8 % 2 == 0 && amState (s.amap a.part c.dact) != 0 && c.xf ≤ 5
        && (c.xf != 5 || imageBytes c.srcRec == 4096)
    else bytesAt block 16 4 == 0 && c.xf == 0
  if bytesAt block 32 4 / 2 ^ 10 == 0 && !c.flag 7 && !(c.srcLm && c.dstLm) && srcOk && dstOk && same && dest
    && (if lm then bytesAt block 20 4 % 128 == 0 else bytesAt block 20 4 == 0) && bytesAt block 24 4 / 8 % 2 == 0
    && bytesAt block 28 2 < 0xFFE0 && (if follow then c.dstLm && followOk c.fw else bytesAt block 36 28 == 0)
    && !(s.dist.copies.any fun q => q.addr == a.addr && q.part == a.part && q.tile.isNone && q.pid == c.pid)
  then some c else none

/-- The copy entries of a core in use (R326). -/
def State.copyEntries (s : State) (n : Nat) : Nat := (s.dist.copies.filter fun c => c.core == n && c.tile.isNone).length

/-- COPY and COPYF (R326, R408). -/
def copyWith (follow : Bool) (a d : BitVec 5) (l : BitVec 3) (s : State) : Host.Outcome State Fault Refusal :=
  finish s do
    let r ← issue l.toNat false [gR a]
    let g ← readG r a
    match s.act with
    | none => writeVarG d 2
    | some k =>
      orTrap (g.toNat % 64 == 0) 0x03 g ({ kind := 0, size := 3 } : Acc).info
      granFaults g 8
      checkLms (g.toNat / 8) 8
      let block := BitVec.ofNat 512 (packWords (s.c.m.lm.grans (g.toNat / 8) 8))
      let src := BitVec.ofNat 64 (k.csr.lo.toNat * 8192 + bytesAt block 20 4 / 8 * 8)
      let n : Nat := match (if block.getLsbD 256 then k.tlrOf (bytesAt block 8 4) else none) with
        | some r => if bytesAt block 12 4 < tileCount r then imageBytes r / 8 else 0
        | none => 0
      granFaults src n
      match s.copyOf k block follow with
      | none => writeVarG d 2
      | some c =>
        if 16 ≤ s.copyEntries s.cur then writeVarG d 1
        else
          let id ← freshId
          modify fun u => { u with dist := { u.dist with copies := u.dist.copies ++
            [{ c with id := id, image := if c.srcLm then s.c.m.lm.grans (src.toNat / 8) n else [] }] } }
          writeVarG d 0
    retire 4

/-- COPY (R326). -/
def execCopy (a d : BitVec 5) (l : BitVec 3) (s : State) : Host.Outcome State Fault Refusal := copyWith false a d l s
/-- COPYF (R326). -/
def execCopyf (a d : BitVec 5) (l : BitVec 3) (s : State) : Host.Outcome State Fault Refusal := copyWith true a d l s

/-! ## Parts (R327) -/

/-- The global source address of element q, with its nibble; none for an LM source or an element outside the tensor. -/
def Copy.srcAt (c : Copy) (q : Nat) : Option (Word × Nat) := if c.srcLm || !inside c.srcRec c.st q then none else some (elemAddr c.srcRec c.st q)
/-- The global destination address of element q. -/
def Copy.dstAt (c : Copy) (q : Nat) : Option (Word × Nat) := if c.dstLm || !inside c.dstRec c.dt q then none else some (elemAddr c.dstRec c.dt q)

/-- The translation of va that a copy carries, or has the walkers of the issuing cluster find (R327, R357), as a cached entry; 3 while the walk waits
for a locked line. -/
def State.copyTlb (s : State) (c : Copy) (va : Nat) : Except Nat Tlb := match c.tlb.find? (·.serves c.part va) with
  | some t => .ok t
  | none => (s.walkers c.core c.part va).1
/-- The translation of va for a copy. -/
def State.copyXlat (s : State) (c : Copy) (va : Nat) : Except Nat Xlat := (s.copyTlb c va).map fun t => t.xlat va
/-- Whether the walk for an address of a copy waits for a locked line (R249). -/
def State.xlatWaits (s : State) (c : Copy) : Option (Word × Nat) → Bool
  | some (va, _) => va.toNat / 2 ^ 56 == 0 && match s.copyXlat c va.toNat with
    | .error why => why == 3
    | .ok _ => false
  | none => false

/-- The page of an address: its size in address bits and its number; an address that does not translate counts as in an 8 KiB page. -/
def State.pageOf (s : State) (c : Copy) (va : Word) : Nat × Nat := match s.copyXlat c va.toNat with
  | .ok x => (pageBits x.lvl, va.toNat / 2 ^ pageBits x.lvl)
  | .error _ => (13, va.toNat / 8192)

/-- The pages of an element on the two global sides. -/
def State.pagesOf (s : State) (c : Copy) (q : Nat) : Option (Nat × Nat) × Option (Nat × Nat) :=
  ((c.srcAt q).map fun x => s.pageOf c x.1, (c.dstAt q).map fun x => s.pageOf c x.1)

/-- Two pages that one part may have; the pages of a side that one of them lacks are the other's. -/
def joinPage : Option (Nat × Nat) → Option (Nat × Nat) → Option (Option (Nat × Nat))
  | some x, some y => if x = y then some (some x) else none
  | none, y => some y
  | x, none => some x

/-- The parts of elements q to q + n - 1, the open one being first .. q - 1 with its pages (R327): as (first, count). -/
def State.splitFrom (s : State) (c : Copy) (first : Nat) (ps pd : Option (Nat × Nat)) (q : Nat) : Nat → List (Nat × Nat)
  | 0 => if first < q then [(first, q - first)] else []
  | n + 1 =>
    let (x, y) := s.pagesOf c q
    match joinPage ps x, joinPage pd y with
    | some a, some b => State.splitFrom s c first a b (q + 1) n
    | _, _ => (first, q - first) :: State.splitFrom s c q x y (q + 1) n

/-- The parts of a copy. -/
def State.split (s : State) (c : Copy) : List (Nat × Nat) := s.splitFrom c 0 none none 0 c.elems

/-- The eave core that coordinates a copy: the home of the first source line, or of the first destination line for a source in LM (R326); where
that does not translate, any (log 43). -/
def State.coordinator (s : State) (c : Copy) : Nat :=
  match ((List.range c.elems).findSome? fun q => if c.srcLm then c.dstAt q else c.srcAt q).map fun x => s.copyXlat c x.1.toNat with
  | some (.ok x) => s.homeEave x.pa
  | _ => (Config.freeWord s.draws).toNat % 272

/-- The state with a copy changed, or gone where f gives none. -/
def State.upCopy (s : State) (id : Nat) (f : Copy → Option Copy) : State :=
  { s with dist := { s.dist with copies := s.dist.copies.filterMap fun c => if c.id = id then f c else some c } }
/-- Copy id. -/
def State.copyAt (s : State) (id : Nat) : Option Copy := s.dist.copies.find? fun c => c.id = id

/-- COPY_REQUEST (R327): the coordinating eave core splits the copy into parts. -/
def execCopyRequest (id : Nat) (s : State) : Host.Outcome State Fault Refusal :=
  runEvent s do
    let c ← needSome (s.copyAt id)
    need (!c.requested && !(List.range c.elems).any fun q => s.xlatWaits c (c.srcAt q) || s.xlatWaits c (c.dstAt q))
    let l := s.split c
    let parts := l.zipIdx.map fun (p, i) => (⟨p.1, p.2, (Config.tokenBase + s.dist.next + i) % 2 ^ 32, .todo, [], none⟩ : CopyPart)
    let t := s.upCopy id fun c => some { c with requested := true, parts := parts }
    set { t with dist := { t.dist with next := t.dist.next + l.length } }

/-- The side of an element that a check concerns: its address and the record and tile of that side. -/
def Copy.sideAt (c : Copy) (dst : Bool) (q : Nat) : Option (Word × Nat) := if dst then c.dstAt q else c.srcAt q

/-- The first check that an element fails, as (order, kind, destination side, address of the granule) (R327, R331): kinds of R331; err is an
uncorrectable memory error at the home of its side. -/
def State.elemCheck (s : State) (c : Copy) (q : Nat) (patched err : Bool) (dst : Bool) : Option (Nat × Nat × Bool × Word) :=
  match (if patched && !dst then none else c.sideAt dst q) with
  | none => none
  | some (ad, _) =>
    let o := if dst then 1 else 0
    let va := granVa ad
    if ad.toNat / 2 ^ 56 ≠ 0 then some (o, 1, dst, va)
    else match s.copyXlat c ad.toNat with
      | .error _ => some (o, 1, dst, va)
      | .ok x =>
        if dst && !x.wr then some (2, 2, dst, va)
        else if s.owner x.pa ≠ some c.part then some (4 + o, 3, dst, va)
        else if s.remote x.pa && !c.flag 2 then some (6 + o, 4, dst, va)
        else if err || s.lostAt (x.pa / 8) || (s.part c.part).dead.getLsbD x.kslot then some (8 + o, 5, dst, va)
        else none

/-- The earlier of two failed checks: by order, then by element. -/
def worse : Option (Nat × Nat × Bool × Word) → Option (Nat × Nat × Bool × Word) → Option (Nat × Nat × Bool × Word)
  | none, y => y
  | x, none => x
  | some x, some y => if y.1 < x.1 then some y else some x

/-- The check that a part fails first (R327): err is an uncorrectable memory error at the source's home (false) or at the destination's (true). -/
def State.partCheck (s : State) (c : Copy) (p : CopyPart) (err : Option Bool) : Option (Nat × Nat × Bool × Word) :=
  let pat := p.patch.isSome
  (List.range p.count).foldl (fun o i =>
    worse (worse o (s.elemCheck c (p.first + i) pat (err == some false) false)) (s.elemCheck c (p.first + i) pat (err == some true) true)) none

/-- Whether a translation of a part waits for a locked line (R249). -/
def State.partWaits (s : State) (c : Copy) (p : CopyPart) : Bool :=
  (List.range p.count).any fun i => (p.patch.isNone && s.xlatWaits c (c.srcAt (p.first + i))) || s.xlatWaits c (c.dstAt (p.first + i))

/-- The state with the translation of an address carried by a copy, and cached on its way (R327, R357). -/
def State.carry (s : State) (c : Copy) : Option (Word × Nat) → State
  | none => s
  | some (va, _) => if c.tlb.any (·.serves c.part va.toNat) then s else match s.walkers c.core c.part va.toNat with
    | (.ok t, u) => { u with dist := { u.dist with copies := u.dist.copies.map fun (k : Copy) => if k.id = c.id then { k with tlb := t :: k.tlb } else k } }.noteSlot c.part (t.xlat va.toNat)
    | (.error _, u) => u
/-- The state with the translations of a part's two pages carried by its copy. -/
def State.carryPart (s : State) (c : Copy) (p : CopyPart) : State :=
  let qs := (List.range p.count).map (p.first + ·)
  (s.carry c (qs.findSome? c.srcAt)).carry c (qs.findSome? c.dstAt)

/-- The state with COPYFAULT on its way to the issuer (R331): code and info for FOLLOWON, who the reporting core. -/
def State.copyFault (s : State) (c : Copy) (p : CopyPart) (kind : Nat) (dst : Bool) (who : Nat) (code info : Nat) (va : Word) (elems : Nat) : State :=
  let lmSide := if dst then c.dstLm else c.srcLm
  let handle := if lmSide then 0 else if dst then bytesAt c.block 8 4 else bytesAt c.block 0 4
  let r := if lmSide then c.shape else if dst then c.dstRec else c.srcRec
  let t := if c.srcLm || (dst && !c.dstLm) then c.dt else c.st
  let x := fun j => coord r t p.first j
  let w : List Nat := [c.pid + kind * 2 ^ 16 + (if dst then 2 ^ 20 else 0) + coreNumber who * 2 ^ 21 + code * 2 ^ 31 + info * 2 ^ 39, handle + t * 2 ^ 32,
    x 0 + x 1 * 2 ^ 32, x 2 + x 3 * 2 ^ 32, x 4 + p.token * 2 ^ 32, va.toNat, elems, s.time]
  s.sendHw .fault c.part (mb7 c.addr) 0xFFF0 0 0 (sealed (w.map (BitVec.ofNat 64))) 0

/-- A copy with part i changed. -/
def Copy.upPart (c : Copy) (i : Nat) (f : CopyPart → CopyPart) : Copy := { c with parts := c.parts.modify i f }

/-! ## Moving elements (R328 to R330) -/

/-- A piece of a destination granule: its lowest bit and width there, the granule it comes from with the lowest bit there, and which granule that is. -/
structure Piece where
  pos : Nat
  w : Nat
  src : Word × Byte
  bit : Nat
  origin : Nat
  deriving DecidableEq, Repr

/-- The bits of a piece. -/
def Piece.val (p : Piece) : Nat := p.src.1.toNat / 2 ^ p.bit % 2 ^ p.w
/-- The mask of the bits that pieces write. -/
def pieceMask (ps : List Piece) : Nat := ps.foldl (fun m p => m ||| (2 ^ p.w - 1) * 2 ^ p.pos) 0

/-- A destination granule after pieces are written: a move when they are the whole of one source granule, else a lane's merge (R44, R329); with the
syndrome of a check that failed. -/
def pieceGran (old : Word × Byte) (ps : List Piece) : (Word × Byte) × Byte :=
  let m := pieceMask ps
  match ps with
  | [] => (old, 0)
  | p :: _ =>
    if m = 2 ^ 64 - 1 && ps.all (fun q => q.origin == p.origin && q.src == p.src && q.bit == q.pos) then (p.src, 0)
    else
      let y0 := (ps.map fun q => syn q.src.1 q.src.2).foldl (fun a b => if a = 0 then b else a) 0
      let y := if y0 = 0 && m ≠ 2 ^ 64 - 1 then syn old.1 old.2 else y0
      let keep := old.1.toNat &&& (2 ^ 64 - 1 - m)
      let w := BitVec.ofNat 64 (ps.foldl (fun x q => x ||| q.val * 2 ^ q.pos) keep)
      (laneOut w y, y)

/-- Pieces grouped by destination granule, ascending. -/
def groupPieces (l : List (Nat × Piece)) : Tab (List Piece) := l.foldl (fun t e => tset [] t e.1 (tget [] t e.1 ++ [e.2])) []

/-- The source granule of element i of a part: the patch, the snapshot, the home, or zero outside the tensor (R319, R332). -/
def State.elemSrc (s : State) (c : Copy) (p : CopyPart) (i : Nat) : Word × Byte :=
  let q := p.first + i
  match p.patch with
  | some l => l.getD (i * c.w / 64) (0, 0)
  | none =>
    if c.srcLm then c.image.getD (imageBit c.dstRec q / 64) (0, 0)
    else match c.srcAt q with
      | none => (0, 0)
      | some (va, _) => match s.copyXlat c va.toNat with
        | .ok x => s.homeGran (x.pa / 8)
        | .error _ => (0, 0)

/-- The lowest bit of element i of a part in its source granule; an element outside the tensor lies where it goes. -/
def Copy.elemBit (c : Copy) (p : CopyPart) (i dst : Nat) : Nat :=
  let q := p.first + i
  match p.patch with
  | some _ => i * c.w % 64
  | none =>
    if c.srcLm then imageBit c.dstRec q % 64
    else match c.srcAt q with
      | none => dst
      | some (va, nib) => 8 * (va.toNat % 8) + 4 * nib

/-- Which granule of its source element i of a part lies in: by virtual address, or by place in an image; an element outside the tensor is zeros of its
own. -/
def Copy.origin (c : Copy) (p : CopyPart) (i : Nat) : Nat :=
  let q := p.first + i
  match p.patch with
  | some _ => i * c.w / 64
  | none =>
    if c.srcLm then imageBit c.dstRec q / 64
    else match c.srcAt q with
      | none => 2 ^ 64
      | some (va, _) => va.toNat / 8

/-- The pieces of a part that go to global memory: by physical granule, with the virtual address of each. -/
def State.dstPieces (s : State) (c : Copy) (p : CopyPart) : List (Nat × Piece) :=
  (List.range p.count).filterMap fun i => match c.dstAt (p.first + i) with
    | none => none
    | some (va, nib) => match s.copyXlat c va.toNat with
      | .error _ => none
      | .ok x =>
        let dst := 8 * (va.toNat % 8) + 4 * nib
        some (x.pa / 8, ⟨dst, c.w, s.elemSrc c p i, c.elemBit p i dst, c.origin p i⟩)

/-- The virtual address of the first element of a part that goes to a physical granule. -/
def State.vaOfGran (s : State) (c : Copy) (p : CopyPart) (gr : Nat) : Word :=
  ((List.range p.count).findSome? fun i => match c.dstAt (p.first + i) with
    | none => none
    | some (va, _) => match s.copyXlat c va.toNat with
      | .ok x => if x.pa / 8 = gr then some va else none
      | .error _ => none).getD 0

/-- The pieces of a part that go to an image in LM: by granule of the stored image. -/
def Copy.lmPieces (c : Copy) (p : CopyPart) : List (Nat × Piece) :=
  (List.range p.count).map fun i =>
    let b := imageBit c.srcRec (p.first + i)
    (b / 64, ⟨b % 64, c.w, p.data.getD i (0, 0), c.elemBit p i (b % 64), c.origin p i + 2 ^ 65 * (if p.patch.isSome then p.token + 1 else 0)⟩)

/-- A list without its repeats. -/
def distinct (l : List Nat) : List Nat := l.foldl (fun m n => if m.contains n then m else m ++ [n]) []

/-- The destination lines that a part writes. -/
def State.dstLines (s : State) (c : Copy) (p : CopyPart) : List Nat := distinct ((s.dstPieces c p).map fun e => e.1 / 32)
/-- The source lines that a part reads at their homes. -/
def State.srcLines (s : State) (c : Copy) (p : CopyPart) : List Nat :=
  if p.patch.isSome then [] else distinct ((List.range p.count).filterMap fun i => match c.srcAt (p.first + i) with
    | none => none
    | some (va, _) => match s.copyXlat c va.toNat with
      | .ok x => some (x.pa / 256)
      | .error _ => none)

/-- Whether a line is locked by anything but copy id (R86, R328). -/
def State.lockedFor (s : State) (id line : Nat) : Bool := let k := tget 0 s.home.locks line; (k != 0 && k != id + 1) || s.swapping (32 * line)

/-- Whether a part is still to be performed. -/
def CopyPart.pending (p : CopyPart) : Bool := match p.ph with
  | .todo | .waiting _ | .moving => true
  | _ => false

/-- The state with a copy's locks as they must be: on the given lines, those that a pending part still writes (R328). -/
def State.relock (s : State) (c : Copy) (lines : List Nat) : State :=
  let mine := (s.home.locks.filter fun e => e.2 == c.id + 1).map (·.1)
  let want := (c.parts.filter (·.pending)).flatMap (s.dstLines c)
  let t := (mine ++ lines).foldl (fun t n => tset 0 t n (if want.contains n then c.id + 1 else 0)) s.home.locks
  { s with home := { s.home with locks := t } }

/-- The state with groups of pieces written at home, each failed merge reported (R94, R329). -/
def State.writeGroups (s : State) (c : Copy) (p : CopyPart) : Tab (List Piece) → State
  | [] => s
  | (gr, ps) :: r =>
    let g := pieceGran (s.homeGran gr) ps
    let s1 := s.homePut gr g.1.1 g.1.2
    State.writeGroups (if g.2 = 0 then s1 else s1.sealFault c.part c.addr 1 (1024 + s.homeEave (8 * gr)) g.2 (s.vaOfGran c p gr) 0) c p r

/-! ## Completion (R333) -/

/-- The state with the completion message of a copy on its way, from its issuer (R333). -/
def State.copyDone (s : State) (c : Copy) : State :=
  let skipped := (c.parts.filter fun p => p.ph == .skipped).length
  let status := if c.cancelled then 2 else if skipped ≠ 0 then 1 else 0
  let dst := BitVec.ofNat 32 (bytesAt c.block 24 4)
  let tc := bytesAt c.block 33 1 % 4
  let payload := sealed [BitVec.ofNat 64 (c.pid + status * 2 ^ 16 + min skipped 255 * 2 ^ 24), BitVec.ofNat 64 c.bytes]
  let typ := bytesAt c.block 28 2
  let m : Msg := ⟨s.dist.next, .plain, 1024 + s.coordinator c, c.addr, c.part, dst, tc,
    mkHeader c.addr.toNat typ (if c.dstLm then 0 else 128) (8 * tc) 16 c.rank dst.toNat, payload, 0, [], if c.dstLm then none else some ⟨false, c.grs⟩, false, 0,
    .flying⟩
  let s1 := s.upCopy c.id fun _ => none
  if c.flag 3 then { s1 with dist := { s1.dist with hw := s1.dist.hw ++ [m], next := s1.dist.next + 1 }, draws := s1.draws + 1 } else s1

/-- The state after a copy whose every part is performed or skipped has ended, but for a follow-on still to be issued (R333, R334, log 43). -/
def State.copyEnd (s : State) (c : Copy) : State :=
  match c.tile with
  | some (core, idx, mb, slot) => (s.upCopy c.id fun _ => none).tileDone core idx mb slot
  | none => if c.fw ≠ 0 && !c.cancelled then s.upCopy c.id fun c => some { c with landed := true } else s.copyDone c

/-- The state after a change of a copy's parts: the copy ends when none is pending, except that an image with performed parts has yet to land, and that
the tile of a message is told to its receiver (R196). -/
def State.copyCheck (s : State) (id : Nat) : State :=
  match s.copyAt id with
  | none => s
  | some c =>
    if !c.requested || c.landed || c.parts.any (·.pending) || (c.dstLm && c.parts.any fun p => p.ph == .done) || c.tile.isSome then s else s.copyEnd c

/-- The state with the accesses of a copy to lines at their homes counted (R340). -/
def State.visitLines (s : State) (lines : List Nat) : State := lines.foldl (fun u l => u.visit (32 * l)) s

/-- COPY_PART (R327, R328): one part is checked, and its source read at home; a part for global memory is written at its home under line locks, whose
interval begins on no line that another access has reached in part (R249). -/
def execCopyPart (id part : Nat) (err : Option Bool) (s : State) : Host.Outcome State Fault Refusal :=
  runEvent s do
    let c ← needSome (s.copyAt id)
    let p ← needSome c.parts[part]?
    need (c.requested && p.ph == .todo && !s.partWaits c p)
    let v := s.carryPart c p
    match s.partCheck c p err with
    | some (_, kind, dst, va) =>
      let who : Nat := match s.copyXlat c va.toNat with
        | .ok x => 1024 + s.homeEave x.pa
        | .error _ => 1024 + s.coordinator c
      set ((v.copyFault c p kind dst who 0 0 va p.count).upCopy id fun c => some (c.upPart part fun p => { p with ph := .waiting kind }))
    | none =>
      need (!((s.srcLines c p ++ s.dstLines c p).any (s.lockedFor id)) && !(s.dstLines c p).any fun l => tget 0 s.home.locks l == 0 && s.midAccess l)
      let data := (List.range p.count).map (s.elemSrc c p)
      let u := v.visitLines (s.srcLines c p ++ s.dstLines c p)
      if c.dstLm then set (u.upCopy id fun c => some (c.upPart part fun p => { p with ph := .moving, data := data }))
      else
        let gs := groupPieces (s.dstPieces c p)
        let lines := s.dstLines c p
        let s1 := u.writeGroups c p gs
        let n := (s.dstPieces c p).length * c.w / 8
        let f : Copy → Copy := fun k =>
          { k.upPart part fun p => { p with ph := .done } with bytes := k.bytes + n, grs := k.grs ++ (gs.map (·.1)).filter fun g => !k.grs.contains g }
        set (((s1.upCopy id fun k => some (f k)).relock (f c) lines).copyCheck id)

/-! ## Landing in LM (R330) -/

/-- The stored image that the performed parts make, over the old contents of nothing: granule i with the mask of its bits that they write. -/
def Copy.stored (c : Copy) : List ((Word × Byte) × Nat × Byte) :=
  let t := groupPieces ((c.parts.filter fun p => p.ph == .done).flatMap c.lmPieces)
  (List.range (imageBytes c.srcRec / 8)).map fun i =>
    let ps := tget [] t i
    let g := pieceGran (0, 0) ps
    (g.1, pieceMask ps, g.2)

/-- The mask of the whole bytes of a mask of bits. -/
def wholeBytes (m : Nat) : Nat := (List.range 8).foldl (fun x i => if m / 2 ^ (8 * i) % 256 = 255 then x ||| 255 * 2 ^ (8 * i) else x) 0

/-- The masks of the granules that a transform gives, from the masks of its inputs. -/
def outMasks (xf : Nat) (l : List Nat) : List Nat :=
  if xf = 0 then l
  else if xf = 5 then (List.range l.length).map fun k =>
    let half := fun (i j : Nat) => if l.getD (16 * i + j / 2) 0 / 2 ^ (32 * (j % 2)) % 2 ^ 32 = 2 ^ 32 - 1 then 2 ^ 32 - 1 else 0
    half (k % 16 * 2) (k / 16) + half (k % 16 * 2 + 1) (k / 16) * 2 ^ 32
  else l.flatMap fun m =>
    let b := fun (i : Nat) => wholeBytes m / 2 ^ (8 * i) % 256
    let four := fun (o : Nat) => if (b o) * (b (o + 1)) * (b (o + 2)) * (b (o + 3)) = 0 then 0 else 2 ^ 64 - 1
    if xf = 4 then [four 0, four 4]
    else [0, 4].map fun o => packNat 16 ((List.range 4).map fun i => b (o + i) * 257)

/-- The output granules of a transform; those of an invalid EXPAND_2OF8 unit, which R170 rejects only in a message, are open (log 43). -/
def copyOut (xf draw : Nat) (l : List (Word × Byte)) : List TOut :=
  let out := (transform xf l).1
  if xf = 4 then out.zipIdx.map fun (o, i) => if badUnit (l.getD (i / 2) (0, 0)).1 then (Config.freeWord (draw + i), o.2) else o else out

/-- The state after the image of a copy has landed at an actor's window (R170, R330). -/
def State.landImage (s : State) (core : Nat) (a : Actor) (c : Copy) : State :=
  let gr := (a.csr.lo.toNat * 8192 + bytesAt c.block 20 4) / 8
  let st := c.stored
  let ins := st.map (·.1)
  let masks := outMasks c.xf (st.map (·.2.1))
  let outs : List ((Word × Byte) × Byte) :=
    if c.xf = 0 then st.map fun x => (x.1, x.2.2) else (copyOut c.xf s.draws ins).map fun o => (laneOut o.1 o.2, o.2)
  let rs := (outs.zip masks).zipIdx.map fun ((o, m), i) =>
    let old := ((s.core core).m.lm.gran (gr + i), (s.core core).m.lm.sealOf (gr + i))
    if m = 2 ^ 64 - 1 then o
    else if m = 0 then (old, 0)
    else
      let y := if o.2 ≠ 0 then o.2 else syn old.1 old.2
      (laneOut (BitVec.ofNat 64 ((o.1.1.toNat &&& m) ||| (old.1.toNat &&& (2 ^ 64 - 1 - m)))) y, y)
  let s1 := s.landLm core gr (rs.map (·.1))
  let s2 := s1.faultEach c.part c.addr 4 core gr a.addr (rs.map (·.2))
  let ones := fun (m : Nat) => ((List.range 64).filter fun i => m / 2 ^ i % 2 = 1).length
  { s2.upCopy c.id fun c => some { c with bytes := (masks.map ones).foldl (· + ·) 0 / 8 } with draws := s2.draws + st.length * 2 }

/-- COPY_LANDING (R330): a part's data reach the destination core; the first to do so is checked against the window, for the whole image (R327), and from
then on loads of the range wait.  The bytes are written with the last part, as no load can read them before (log 20).  A tile of a message lands at its
receiver wherever that is, and the event also tells the receiver of one whose every part CPATCH has skipped (R196, R338). -/
def execCopyLanding (id part : Nat) (s : State) : Host.Outcome State Fault Refusal :=
  runEvent s do
    let c ← needSome (s.copyAt id)
    let p ← needSome c.parts[part]?
    let skipped := c.tile.isSome && c.parts.all fun p => p.ph == .skipped
    need (c.dstLm && !c.landed && (p.ph == .moving || ((p.ph == .done || skipped) && !c.parts.any (·.pending))))
    let set6 := fun (va : Word) (who : Nat) =>
      (s.copyFault c p 6 true who 0 0 va c.elems).upCopy id fun c => some { c with parts := c.parts.map fun p => { p with ph := .waiting 6, data := [] } }
    match amState (s.amap c.part c.dact), s.actorAt c.part c.dact with
    | 2, _ => need false
    | 1, some (core, idx) =>
      let a ← needSome ((s.core core).actor idx)
      need !a.stopped
      let c := { c with tile := c.tile.map fun t => (core, idx, t.2.2) }
      let ad := a.csr.lo.toNat * 8192 + bytesAt c.block 20 4
      let n := landedLen c.xf (imageBytes c.srcRec)
      if skipped then set (s.copyEnd c)
      else if c.land.isNone && !(s.core core).windowAt a ad n then set (set6 (BitVec.ofNat 64 ad) core)
      else
        let c1 := { c.upPart part fun p => { p with ph := .done } with land := some (core, ad, n) }
        let s1 := s.upCopy id fun _ => some c1
        if c1.parts.any (·.pending) then set s1
        else
          let c2 := { c1 with land := none }
          let s2 := (s.upCopy id fun _ => some c2).landImage core a c2
          set (match s2.copyAt id with
            | some c3 => s2.copyEnd c3
            | none => s2)
    | _, _ => set (if skipped then s.upCopy id fun _ => none else set6 (BitVec.ofNat 64 (bytesAt c.block 20 4)) (1024 + s.coordinator c))

/-! ## Answers, queries and cancellation (R332, R335, R336) -/

/-- Whether a copy is one of an actor's own. -/
def Copy.ofActor (c : Copy) (a : Actor) : Bool := c.addr == a.addr && c.part == a.part

/-- The waiting part of an actor's copies that a token names: the copy, the part's number, the part and its kind (R332). -/
def State.waitingPart (s : State) (a : Actor) (token : Nat) : Option (Copy × Nat × CopyPart × Nat) :=
  s.dist.copies.findSome? fun c => if !c.ofActor a then none else c.parts.zipIdx.findSome? fun (p, i) => match p.ph with
    | .waiting k => if p.token = token then some (c, i, p, k) else none
    | _ => none

/-- CPATCH (R332).  A token operand with bits [63:32] set names no waiting part: R332 says that they must be 0 and names no status for it, and the
model writes 1 (DESIGN CHOICE, log 68). -/
def execCpatch (b a d : BitVec 5) (l : BitVec 3) (s : State) : Host.Outcome State Fault Refusal :=
  finish s do
    let r ← issue l.toNat false [gR a, gR b]
    let g ← readG r a
    let h ← readG r b
    let act := h.toNat % 4
    let bad := h.toNat / 4 % 2 ^ 30 != 0 || h.toNat / 2 ^ 51 != 0 || act == 3
    let st : Nat ← match s.act with
      | none => pure 1
      | some k =>
        if 2 ^ 32 ≤ g.toNat then pure 1
        else match s.waitingPart k g.toNat with
          | none =>
            if s.dist.spent.contains (g.toNat, k.part, k.addr) then pure (if bad || act ≠ 1 then 2 else 0) else pure 1
          | some (c, i, p, kind) =>
            let ad := h.toNat / 2 ^ 32 % 2 ^ 19
            let n := (p.count * c.w + 63) / 64
            if bad || (kind = 6 && act ≠ 1) || (act = 2 && !(ad % 8 == 0 && s.c.windowAt k ad (8 * n))) then pure 2
            else
              let f : CopyPart → CopyPart := match act with
                | 0 => fun p => { p with ph := .todo, patch := none }
                | 1 => fun p => { p with ph := .skipped }
                | _ => fun p => { p with ph := .todo, patch := some (s.c.m.lm.grans (ad / 8) n) }
              let c1 := if kind = 6 then { c with parts := c.parts.map fun p => { p with ph := .skipped } } else c.upPart i f
              modify fun u => ((u.upCopy c.id fun _ => some c1).relock c1 []).copyCheck c.id
              pure 0
    writeVarG d (BitVec.ofNat 64 st)
    retire 4

/-- The copy of an actor with a program's id. -/
def State.copyById (s : State) (a : Actor) (pid : Nat) : Option Copy := s.dist.copies.find? fun c => c.ofActor a && c.tile.isNone && c.pid = pid

/-- The parts of a copy that are neither performed nor skipped (R335); one for LM is performed when it has landed (R330). -/
def State.partsLeft (s : State) (c : Copy) : Nat :=
  if !c.requested then (s.split c).length
  else (c.parts.filter (·.pending)).length

/-- COPYQ (R335). -/
def execCopyq (a d : BitVec 5) (l : BitVec 3) (s : State) : Host.Outcome State Fault Refusal :=
  finish s do
    let r ← issue l.toNat false [gR a]
    let g ← readG r a
    let v := match s.act.bind fun k => s.copyById k (g.toNat % 2 ^ 16) with
      | none => 0
      | some c =>
        let w := (c.parts.filter fun p => match p.ph with
          | .waiting _ => true
          | _ => false).length
        s.partsLeft c % 2 ^ 32 * 256 + min w 15 * 16 + (if !c.requested then 1 else if w ≠ 0 then 3 else 2)
    writeVarG d (BitVec.ofNat 64 v)
    retire 4

/-- The lines of a cancelled copy that must not stay half written (R336): from those that it has locked, through the parts that have not started and
write one of them, at most n times on. -/
def State.heldLines (s : State) (c : Copy) : Nat → List Nat → List Nat
  | 0, l => l
  | n + 1, l => State.heldLines s c n (distinct (l ++ (c.parts.filter fun p => p.ph == .todo && (s.dstLines c p).any l.contains).flatMap (s.dstLines c)))
/-- Whether a part of a copy that is cancelled goes on, though it has not started, as it writes such a line. -/
def State.sharesLock (s : State) (c : Copy) (p : CopyPart) : Bool :=
  let mine := (s.home.locks.filter fun e => e.2 == c.id + 1).map (·.1)
  (s.dstLines c p).any (s.heldLines c c.parts.length mine).contains

/-- CCANCEL (R336): parts that have not started are dropped, waiting parts are skipped; a part that writes a line which the copy holds locked counts as
started, as the lock lasts from the first write to the line to the last, and so does one that writes a line of such a part (DEDUCED, log 72). -/
def execCcancel (a d : BitVec 5) (l : BitVec 3) (s : State) : Host.Outcome State Fault Refusal :=
  finish s do
    let r ← issue l.toNat false [gR a]
    let g ← readG r a
    match s.act.bind fun k => s.copyById k (g.toNat % 2 ^ 16) with
    | none => writeVarG d 1
    | some c =>
      let parts := c.parts.filterMap fun p => match p.ph with
        | .todo => if s.sharesLock c p then some p else none
        | .waiting _ => some { p with ph := PartPhase.skipped }
        | _ => some p
      let c1 := { c with requested := true, cancelled := true, parts := parts }
      modify fun u =>
        let v := (u.upCopy c.id fun _ => some c1).relock c1 []
        if c.landed then v.copyDone c1 else v.copyCheck c.id
      writeVarG d 0
    retire 4

/-- PFT (R323): the lines of a tile that translate, in the cached aperture, are filled into the cluster cache. -/
def execPft (b a : BitVec 5) (l : BitVec 3) (s : State) : Host.Outcome State Fault Refusal :=
  finish s do
    let r ← issue l.toNat false [gR a, gR b]
    let g ← readG r a
    let h ← readG r b
    match s.act.bind (·.tlrOf g.toNat) with
    | none => pure ()
    | some rec' =>
      if h.toNat < tileCount rec' && !isEave s.cur then
        let vas := distinct ((List.range (tileElems rec')).filterMap fun q =>
          if inside rec' h.toNat q then some ((elemAddr rec' h.toNat q).1.toNat / 32 * 32) else none)
        modify fun u => vas.foldl (fun u va =>
          if va / 2 ^ 56 ≠ 0 then u else match u.translate u.cur u.c.partNo va with
            | (.ok x, t) => if x.owner == some u.c.partNo && !x.hd && !u.remote x.pa && !u.locked (x.pa / 8)
                && !u.noRoom (clusterOf u.cur) (lineOf (x.pa / 8)) then
                (t.fillCluster (clusterOf u.cur) u.c.partNo (lineOf (x.pa / 8))).visit (x.pa / 8) else t
            | (.error _, t) => t) u
    retire 4

/-! ## The page swap (R339, R340) -/

/-- The frame address of a congruence group that a storage slot holds; group g has addresses g, and 2^26 k + g for k from 1 to 4. -/
def State.inSlot (s : State) (group slot : Nat) : Nat := ((List.range 5).find? fun k => s.slotOfFrame (2 ^ 26 * k + group) = slot).getD slot

/-- The frame address of a frame of this device, with its device number. -/
def State.ownFrame (s : State) (f : Nat) : Nat := s.devNum.toNat * 2 ^ 31 + f
/-- The state with the remap entries of two frames exchanged, their access counts at zero, their lines unlocked, and no line of them in a home cache:
their homes have changed (R10, R340). -/
def State.swapDone (s : State) (w : Swap) : State :=
  let put := fun (t : Tab Nat) (f slot : Nat) => tset 0 t f (if slot = f / 2 ^ 26 then 0 else slot + 1)
  let moved := fun (l : Nat) => l / 32 == s.ownFrame w.far || l / 32 == s.ownFrame w.near
  { s with home := { s.home with
    remap := put (put s.home.remap w.far 0) w.near (s.slotOfFrame w.far)
    hits := tset 0 (tset 0 s.home.hits (s.ownFrame w.far) 0) (s.ownFrame w.near) 0
    cached := s.home.cached.filter fun l => !moved l
    swaps := s.home.swaps.filter (· != w) } }

/-- PAGE_SWAP (R340): a frame of the capacity tier whose access count has passed the threshold and the frame in HBM change places, line by line, one at
each event: a line exchanged stays locked at home until the remap entry changes at the last event. -/
def execPageSwap (frame : Nat) (s : State) : Host.Outcome State Fault Refusal :=
  runEvent s do
    let lines := fun (w : Swap) => [w.far, w.near].map fun f => 32 * s.ownFrame f + w.next
    let free := fun (w : Swap) => (lines w).all fun l => tget 0 s.home.locks l == 0 && !s.midAccess l
    match s.home.swaps.find? fun w => w.far = frame with
    | none =>
      let group := frame % 2 ^ 26
      let slot := s.slotOfFrame frame
      let fr ← needSome s.power.record
      need (s.hasCap && frame < 5 * 2 ^ 26 && slot != 0 && fr.threshold < tget 0 s.home.hits (s.ownFrame frame))
      let w : Swap := ⟨frame, 2 ^ 26 * s.inSlot group 0 + group, 0⟩
      need (free w && [w.far, w.near].all fun f => s.served (1024 * s.ownFrame f) && !s.home.swaps.any fun v => v.near = f || v.far = f)
      set { s.countWaits (lines w) with home := { s.home with swaps := s.home.swaps ++ [{ w with next := 1 }] } }
    | some w =>
      if w.next < 32 then
        need (free w)
        set { s.countWaits (lines w) with home := { s.home with swaps := s.home.swaps.map fun v => if v = w then { w with next := w.next + 1 } else v } }
      else set (s.swapDone w)

end Sys2Proof.Machine
end

