-- ==== Sys2Proof/Machine/MatrixOps.lean ====
section
/-!
DEFINITION. What the array computes: the forms of B and their decoding (R292, R296, R297), rows of MMA and MOUTL with their poison (R300, R303,
R312), the conversion of tile elements (R304), and the order of the operations in progress (R295).
-/

namespace Sys2Proof.Machine

/-! ## Banks -/

/-- The LM bytes of the values of a tile (R292). -/
def valueBytes (f : Fmt) : Nat := if f = .q4x then 12288 else 24576

/-- The set bits of a number below n. -/
def bitsBelow (m n : Nat) : List Nat := (List.range n).filter fun i => m.testBit i

/-- Bank element (k, n) by logical K-row: 0 where the element is absent (R297). -/
def Bank.elt (b : Bank) (k n : Nat) : Int :=
  if b.sp = 0 then tget 0 b.store (96 * k + n)
  else
    let m := (tget 0 b.pres (96 * (k / 8) + n)).toNat
    if m.testBit (k % 8) then tget 0 b.store (96 * (presentOf b.sp * (k / 8) + (bitsBelow m (k % 8)).length) + n) else 0

/-- The logical K-row of the stored element pk of column n (R297). -/
def Bank.logical (b : Bank) (pk n : Nat) : Nat :=
  if b.sp = 0 then pk
  else
    let i := pk / presentOf b.sp
    8 * i + (bitsBelow (tget 0 b.pres (96 * i + n)).toNat 8).getD (pk % presentOf b.sp) 0

/-- The column banks that hold one of the columns (R290). -/
def columnBanks (ns : List Nat) : BitVec 8 := ns.foldl (fun m n => m ||| 1 <<< (n / 12)) 0

/-- The granules of a list that fail their check. -/
def failing (l : List (Word × Byte)) : List Nat := (List.range l.length).filter fun i => syn (l.getD i (0, 0)).1 (l.getD i (0, 0)).2 ≠ 0

/-- The column banks that failing granules of scales poison (R296, R299). -/
def scalePoison (l : List (Word × Byte)) : BitVec 8 := columnBanks ((failing l).map fun i => 2 * i)

/-- The scales that 96 F32 values in LM give (R296). -/
def scalesOf (l : List (Word × Byte)) : Tab (BitVec 32) := tabFrom 0 96 fun n => BitVec.ofNat 32 (granElem l 32 n)

/-- The column banks that failing granules of values or metadata poison (R296). -/
def loadPoison (f : Fmt) (l : List (Word × Byte)) : BitVec 8 :=
  let t := valueBytes f / 8
  columnBanks ((failing l).flatMap fun i =>
    if i < t then (List.range (64 / f.bits)).map fun j => (i * (64 / f.bits) + j) % 96
    else (List.range 8).map fun j => (8 * (i - t) + j) % 96)

/-- The bank that an MLDB or MLDBS leaves (R296, R297). -/
def loadedBank (o : ArrOp) : Bank :=
  let f := o.fmt
  let n := 96 * denseRows f
  let pair := fun e => q4decode (granElem o.data 8 (e / 2))
  let raw : Nat → Int := fun e =>
    if f = .q4x then (if e % 2 = 0 then (pair e).1 else (pair e).2.1)
    else if f.isFloat then granElem o.data f.bits e
    else intOf f.bits true (granElem o.data f.bits e)
  let maps := o.data.drop (valueBytes f / 8)
  let b : Bank := { Bank.empty with
    fmt := f, sp := o.sp, store := tabFrom 0 n raw
    pres := tabFrom 0 (metaBytes f o.sp) fun e => BitVec.ofNat 8 (granElem maps 8 e)
    scales := match o.scales with
      | some l => scalesOf l
      | none => tabFrom 0 96 fun _ => 0x3F800000
    pm := loadPoison f o.data ||| match o.scales with
      | some l => scalePoison l
      | none => 0
    q4b := f = .q4x && (List.range (n / 2)).any fun e => (pair (2 * e)).2.2
    ld := if (List.range (metaBytes f o.sp)).all fun e => (bitsBelow (granElem maps 8 e) 8).length == presentOf o.sp then .ready else .failed }
  if !f.isFloat then b
  else
    let al := fun (g n : Nat) => blockAlign f ((List.range 32).map fun j => (b.elt (32 * g + j) n).toNat)
    { b with
      align := tabFrom (0, false) (96 * (logicalK f o.sp / 32)) fun e => ((al (e / 96) (e % 96)).1, (al (e / 96) (e % 96)).2.2)
      store := tabFrom 0 n fun e =>
        let k := b.logical (e / 96) (e % 96)
        (al (k / 32) (e % 96)).2.1.getD (k % 32) 0 }

/-! ## Multiplying -/

/-- Whether an MMA of A format f on a bank is in integer mode (R292). -/
def intMode (f : Fmt) (b : Bank) : Bool := !f.isFloat && !b.fmt.isFloat

/-- One K-group of a row of A: aligned, or an integer format as it is (R37, R300). -/
def alignA (f : Fmt) (xs : List Nat) : Int × List Int × Bool := if f.isFloat then blockAlign f xs else (0, xs.map (intOf f.bits true), false)

/-- Element n of a tile's row after an MMA has added a row of A (R38, R300). -/
def mmaElem (b : Bank) (f : Fmt) (k : Nat) (xs : List Nat) (z : BitVec 32) (n : Nat) : BitVec 32 × Flags :=
  if intMode f b then
    (BitVec.ofInt 32 (z.toNat + dotI (xs.map (intOf f.bits true)) ((List.range k).map fun i => b.elt i n)), 0)
  else
    let r := (List.range (k / 32)).foldl (fun (acc : Nat × Flags) g =>
      let a := alignA f ((xs.drop (32 * g)).take 32)
      let h := tget (0, false) b.align (96 * g + n)
      let x := groupSum acc.1 a.1 a.2.1 a.2.2 h.1 ((List.range 32).map fun j => b.elt (32 * g + j) n) h.2 (tget 0 b.scales n).toNat
      (x.1, acc.2 ||| x.2)) (z.toNat, 0)
    (BitVec.ofNat 32 r.1, r.2)

/-- The entries of a MOUTL list: k, n and the signed value (R303). -/
def outEntries (o : ArrOp) : List (Nat × Nat × Int) :=
  (List.range o.len).map fun j =>
    let w := granElem o.extra 32 (o.ref % 8 / 4 + j)
    (w % 512, w / 512 % 128, intOf 16 true (w / 2 ^ 16))

/-- Element n of a tile's row after a MOUTL has added its entries for a row of A (R303). -/
def outlElem (o : ArrOp) (xs : List Nat) (z : BitVec 32) (n : Nat) : BitVec 32 :=
  BitVec.ofInt 32 ((outEntries o).foldl (fun (acc : Int) e =>
    if e.2.1 = n then acc + intOf o.fmt.bits true (xs.getD e.1 0) * e.2.2 else acc) z.toNat)

/-- A tile with row r replaced and the PB bits of a mask set (R290, R312). -/
def Tile.setRow (t : Tile) (r : Nat) (vals : List (BitVec 32)) (mask : BitVec 8) : Tile :=
  { t with
    z := vals.zipIdx.foldl (fun z x => tset 0 z (96 * r + x.2) x.1) t.z
    pb := (List.range 8).foldl (fun p j => if mask.getLsbD j then tset false p (8 * r + j) true else p) t.pb }

/-- A tile with the columns of column banks of rows row0 to row0 + n - 1 set to 0 and poisoned (R312). -/
def Tile.wipe (t : Tile) (row0 n : Nat) (mask : BitVec 8) : Tile :=
  if mask = 0 then t else (List.range n).foldl (fun t i =>
    { t with
      z := (List.range 96).foldl (fun z j => if mask.getLsbD (j / 12) then tset 0 z (96 * (row0 + i) + j) 0 else z) t.z
      pb := (List.range 8).foldl (fun p j => if mask.getLsbD j then tset false p (8 * (row0 + i) + j) true else p) t.pb }) t

/-- A tile after a row of A, with the flags: the columns of a poisoned column bank are 0, the others complete (R312). -/
def Tile.addRow (t : Tile) (o : ArrOp) (b : Bank) (r : Nat) (xs : List Nat) (mask : BitVec 8) : Tile × Flags :=
  let vs := (List.range 96).map fun n =>
    if mask.getLsbD (n / 12) then (0, 0)
    else
      let z := tget 0 t.z (96 * r + n)
      if o.fn = 4 then (outlElem o xs z n, 0) else mmaElem b o.fmt o.k xs z n
  (t.setRow r (vs.map (·.1)) mask, orFlags (vs.map (·.2)))

/-- A row of A: its elements, and where its first failing granule lies (R300, R312). -/
abbrev ARow := List Nat × Option Word

/-- Row i of A in LM (R300). -/
def ArrOp.rowLm (o : ArrOp) (i : Nat) : ARow :=
  let rb := o.k * o.fmt.bits / 8
  let l := (o.data.drop (i * rb / 8)).take (rb / 8)
  ((List.range o.k).map (granElem l o.fmt.bits), (failing l).head?.map fun j => BitVec.ofNat 64 (o.addr + i * rb + 8 * j))

/-- A row of A from the elements that a stream delivered (R301). -/
def rowOf (d : Descr) (es : List Elem) : ARow :=
  ((delivered d es).map (·.1), (es.find? fun e => syn e.gr e.sl ≠ 0).map fun e => BitVec.ofNat 64 e.e)

/-- What rows leave: the tile, the flags, and the first failing granule. -/
structure RowsOut where
  tile : Tile
  flags : Flags
  bad : Option Word
  deriving DecidableEq, Repr

/-- A tile after rows from r on; mask is of the poisoned column banks (R300, R312). -/
def addRows (o : ArrOp) (b : Bank) (mask : BitVec 8) : Nat → List ARow → RowsOut → RowsOut
  | _, [], x => x
  | r, a :: as, x =>
    let bad := match o.listBad with
      | some l => some (BitVec.ofNat 64 l)
      | none => a.2
    let y := x.tile.addRow o b r a.1 (if bad.isSome then 0xFF else mask)
    addRows o b mask (r + 1) as ⟨y.1, x.flags ||| y.2, x.bad.or bad⟩

/-! ## Reading a tile -/

/-- One element as an output instruction converts it (R304). -/
def outElem (kind : BitVec 2) (f : Fmt) (c : Option (BitVec 32)) (x : BitVec 32) : Nat × Flags :=
  let v : Num := if kind = 2 then unpackF .f32 x.toNat else ofInt x.toInt
  match c with
  | none => rne f v
  | some c =>
    let p := mulR v (unpackF .f32 c.toNat)
    withFl (rne f p.1) p.2

/-- The elements at (row, column) positions as an output instruction reads them: value, poison, flags (R304, R312). -/
def readTile (t : Tile) (b : Bank) (o : ArrOp) (ps : List (Nat × Nat)) : List (Nat × Bool × Flags) :=
  ps.map fun (r, n) =>
    let p := tget false t.pb (8 * r + n / 12)
    let e := outElem o.kind o.fmt (if o.sc then some (tget 0 b.scales n) else none) (if p then 0 else tget 0 t.z (96 * r + n))
    (e.1, p, e.2)

/-- The granules that elements of w bits fill, with their seals (R304). -/
def outGrans (w : Nat) (l : List (Nat × Bool × Flags)) : List (Word × Byte) :=
  (List.range (l.length * w / 64)).map fun i =>
    let q := (l.drop (i * (64 / w))).take (64 / w)
    let x := BitVec.ofNat 64 (packNat w (q.map (·.1)))
    (x, if q.any (·.2.1) then sealFn x ^^^ 0xA5 else sealFn x)

/-- The positions of rows row0 to row0 + count - 1. -/
def rowPositions (row0 count : Nat) : List (Nat × Nat) := (List.range (96 * count)).map fun i => (row0 + i / 96, i % 96)

/-! ## The operations in progress -/

/-- Bank 0 or 1. -/
def Cim.bank (a : Cim) (b : Bool) : Bank := if b then a.b1 else a.b0
/-- The array with a bank replaced. -/
def Cim.setBank (a : Cim) (b : Bool) (x : Bank) : Cim := if b then { a with b1 := x } else { a with b0 := x }
/-- Tile 0 or 1. -/
def Cim.tile (a : Cim) (z : Bool) : Tile := if z then a.z1 else a.z0
/-- The array with a tile replaced. -/
def Cim.setTile (a : Cim) (z : Bool) (x : Tile) : Cim := if z then { a with z1 := x } else { a with z0 := x }
/-- The state with the array of core n changed. -/
def State.upArr (s : State) (n : Nat) (f : Cim → Cim) : State := s.upCore n fun c => { c with arr := f c.arr }

/-- Whether operation p waits for a quad MMA that the core has reached before it: on its tile, or bound to the bank that p loads (R295, R310). -/
def QuadOp.before (q : QuadOp) (p : ArrOp) : Bool :=
  q.bank.isSome && q.after ≤ p.id && ((p.fn != 0 && q.tile == p.tile) || (p.fn == 0 && q.bank == some p.bank))

/-- Whether an operation waits for an earlier one of the core, or for a quad MMA (R295, R310). -/
def Cim.blocked (a : Cim) (p : ArrOp) : Bool :=
  (a.ops.takeWhile fun o => o.id != p.id).any (·.before p) || a.quadOps.any (·.before p)

/-- Whether a quad MMA that the core has reached waits for an operation of the core issued before it on its tile (R295, R310). -/
def Cim.quadWaits (a : Cim) (q : QuadOp) (after : Nat) : Bool := a.ops.any fun o => o.onTile q.tile && o.id < after

/-- Whether every operation bound to a bank, and every load of it, has completed (R298, R299). -/
def Cim.bankIdle (a : Cim) (b : Bool) : Bool :=
  !(a.ops.any fun o => o.binds b || o.loads b) && !(a.quadOps.any fun q => q.bank == some b)

/-- The actor that owns the array of core n (R291). -/
def Core.arrayOwner (c : Core) : Option Actor := c.actors.findSome? fun e => match e.2 with
  | some a => if a.csr.asgArr then some a else none
  | none => none

/-- The state with flags in the FPX of an issuing context whose firing goes on (R300). -/
def State.giveFlags (s : State) (n : Nat) (owner : Option (Nat × Option Nat)) (f : Flags) : State :=
  match owner with
  | none => s
  | some (k, e) => s.upCore n fun c =>
    let x := c.ctx k
    if x.firing.map (·.entry) = e then c.setCtx k { x with fpx := x.fpx ||| f } else c

/-- The context with a result that has been computed: it is written some cycles later (R55, R294). -/
def Ctx.resolve (x : Ctx) (id : Nat) (v : Vec × VSeals) : Ctx :=
  { x with varp := x.varp.map fun e => if e.id = id then { e with res := some v } else e }

/-- The state after an output operation or MZERO of core n (R302, R304 to R307). -/
def State.doArrOp (s : State) (n : Nat) (o : ArrOp) : State :=
  let c := s.core n
  let t := c.arr.tile o.tile
  let b := c.arr.bank o.bank
  match o.fn with
  | 2 => s.upArr n fun a => a.setTile o.tile { t with z := [], pb := [] }
  | 5 =>
    let es := readTile t b o ((List.range 32).map fun i => (o.row0, 32 * o.k + i))
    let gs := outGrans 32 es
    let s1 := s.giveFlags n o.owner (orFlags (es.map (·.2.2)))
    match o.owner with
    | some (k, _) => s1.upCore n fun c => c.setCtx k ((c.ctx k).resolve o.ref (vecOfPairs (gs.map (·.1)), vsealsOf (gs.map (·.2))))
    | none => s1
  | _ =>
    let es := readTile t b o (rowPositions o.row0 o.count)
    let gs := outGrans o.fmt.bits es
    let s1 := s.giveFlags n o.owner (orFlags (es.map (·.2.2)))
    if o.fn = 6 then s1.upCore n fun c => { c with m := { c.m with lm := c.m.lm.setGrans (o.addr / 8) gs } }
    else s1.upCore n fun c => { c with outbound := c.outbound.map fun m => if m.id = o.ref then { m with payload := gs, st := .flying } else m }

/-- The state after the operations of core n that wait for nothing have been performed, and the loads that wait for nothing have begun. -/
def State.drainArr (s : State) (n : Nat) : Nat → State
  | 0 => s
  | m + 1 =>
    let a := (s.core n).arr
    match a.ops.find? fun o => (o.fn == 2 || 5 ≤ o.fn) && !a.blocked o with
    | some o =>
      let s1 := s.upArr n fun a => { a with ops := a.ops.filter fun p => p.id != o.id }
      State.drainArr (s1.doArrOp n o) n m
    | none => s.upArr n fun a => (a.ops.filter fun o => o.fn == 0 && !a.blocked o).foldl (fun a o =>
        a.setBank o.bank { a.bank o.bank with ld := .loading }) a

/-- The state with an operation added to those of core n (R295). -/
def State.addArrOp (s : State) (n : Nat) (o : ArrOp) : State :=
  let s1 := s.upArr n fun a => { a with ops := a.ops ++ [o] }
  s1.drainArr n ((s1.core n).arr.ops.length + 1)

/-- The state with an operation of core n complete: its flags are delivered, and what waited for it is performed (R300). -/
def State.endArrOp (s : State) (n : Nat) (o : ArrOp) : State :=
  let s1 := (s.upArr n fun a => { a with ops := a.ops.filter fun p => p.id != o.id }).giveFlags n o.owner o.flags
  s1.drainArr n ((s1.core n).arr.ops.length + 1)

/-- The state with operation id of core n changed. -/
def State.upArrOp (s : State) (n id : Nat) (f : ArrOp → ArrOp) : State :=
  s.upArr n fun a => { a with ops := a.ops.map fun o => if o.id = id then f o else o }

/-- The state with MATRIXBANK messages on their way for the kinds that occurred and have not been told: kind, column banks, information (R312). -/
def State.matrixBank (s : State) (n : Nat) (o : ArrOp) (told : List Nat) : List (Nat × BitVec 8 × Word) → State
  | [] => s
  | (kind, mask, info) :: r =>
    let s1 := if mask = 0 || told.contains kind then s else match (s.core n).arrayOwner with
      | none => s
      | some a => s.sendHw .fault a.part (mb7 a.addr) 0xFFF3 0 0 (sealed
          [BitVec.ofNat 64 (mask.toNat + (if o.tile then 256 else 0) + kind * 512 + o.row0 % 256 * 4096 + o.count * 2 ^ 20 + coreNumber n * 2 ^ 29),
           o.pc, info, BitVec.ofNat 64 s.time]) 0
    State.matrixBank s1 n o told r

/-- The state of core n after rows of an operation on a bank and its tile, with the flags and the kinds told (R300, R311, R312): first is the first
row's number, errs the column banks with uncorrectable errors that the operation met before.  An error found now poisons the rows done before too. -/
def State.arrRows (s : State) (n : Nat) (o : ArrOp) (bank : Bool) (errs : BitVec 8) (told : List Nat) (first : Nat) (rows : List ARow)
    (e : ArrayErrors) : State × Flags × List Nat :=
  let a := (s.core n).arr
  let b := a.bank bank
  let t0 := a.tile o.tile
  let t := { t0 with pb := e.tiles.foldl (fun p k => tset false p k true) t0.pb }.wipe o.row0 (first - o.row0) (e.banks &&& ~~~errs)
  let x := addRows o b (b.pm ||| errs ||| e.banks) first rows ⟨t, 0, none⟩
  let s1 := (s.upArr n fun a => (a.setTile o.tile x.tile).setBank bank { b with pm := b.pm ||| e.banks }).upCore n fun c => c.count 6 e.corrected
  let tm : BitVec 8 := e.tiles.foldl (fun m k => m ||| 1 <<< (k % 8)) 0
  let ks : List (Nat × BitVec 8 × Word) :=
    [(1, e.banks, 0), (2, if x.bad.isSome then 0xFF else 0, x.bad.getD 0), (3, b.pm &&& ~~~errs, 0), (5, tm, 0)]
  (s1.matrixBank n o told ks, x.flags, told ++ (ks.filter fun k => k.2.1 ≠ 0 && !told.contains k.1).map (·.1))

/-- The state of core n after its array has met uncorrectable tile errors outside the rows of an MMA, as an output instruction reads a tile (R311):
PB bits at 2048 × tile + 8 × row + column bank; no instruction sends a message for them (R312, log 73). -/
def State.tileErrors (s : State) (n : Nat) (e : ArrayErrors) : State :=
  let set' := fun (t : Tile) (k : Nat) => { t with pb := tset false t.pb (k % 2048) true }
  (s.upArr n fun a => e.tiles.foldl (fun a k => a.setTile (2048 ≤ k) (set' (a.tile (2048 ≤ k)) k)) a).upCore n fun c => c.count 6 e.corrected

end Sys2Proof.Machine
end

