-- ==== Sys2Proof/Machine/Matrix.lean ====
section
/-!
DEFINITION. Matrix instructions: majors 0x23 to 0x25 (R290 to R317), with the events that finish their work.
-/

namespace Sys2Proof.Machine

/-- A MATRIX trap (R316). -/
def matrixTrap {α : Type} (cause : Nat) (info : Word) : M α := trapM 0x11 (BitVec.ofNat 64 cause) info
/-- Traps MATRIX unless b holds. -/
def orMatrix (b : Bool) (cause : Nat) (info : Word) : M Unit := if b then pure () else matrixTrap cause info

/-- A word of format Z with major 0x23 + m (R293). -/
def zWord (m fn mode b a af z l : Nat) : Word :=
  BitVec.ofNat 64 (fn * 2 ^ 29 + mode * 2 ^ 26 + b * 2 ^ 21 + a * 2 ^ 16 + af * 2 ^ 12 + z * 2 ^ 11 + l * 2 ^ 8 + (0x23 + m) * 4 + 3)

/-- The actor whose array the acting context uses: ILLEGAL on an eave core (R9), MATRIX of cause 0x0A for an actor that does not own the array (R291). -/
def arrayOf (z : Word) : M Actor := do
  let s ← get
  match s.act with
  | some a => if a.csr.asgArr then pure a else matrixTrap 0x0A z
  | none => matrixTrap 0x0A z

/-- Issues a matrix instruction of major 0x23 + m (R58, R317): the registers and the actor. -/
def matrixIssue (m : Nat) (w : Word) (l : BitVec 3) (rd : List RegId) (z : Word) : M (Regs × Actor) := do
  let s ← get
  if isEave s.cur then trapM 0x01 (BitVec.ofNat 64 (0x23 + m)) (w <<< 32 ||| 8)
  let r ← issue l.toNat false rd
  let a ← arrayOf z
  pure (r, a)

/-- The issuing context with its firing. -/
def State.issuer (s : State) : Option (Nat × Option Nat) := some (s.curCtx, s.x.firing.map (·.entry))

/-- LM faults at each of n granules from a, for a read (kind 0), which waits for a landing (R82, R295), or a write (kind 1) (R317). -/
def rangeFaults (kind : Nat) (a : Word) : Nat → M Unit
  | 0 => pure ()
  | n + 1 => do
    lmFaults a 8 8 { kind := kind, size := 3 }
    if kind = 0 then landedFirst a.toNat 8
    rangeFaults kind (a + 8) n

/-- Traps ALIGN unless an address is a multiple of n. -/
def alignTo (a : Word) (n : Nat) : M Unit := orTrap (a.toNat % n == 0) 0x03 a ({ kind := 0, size := 3 } : Acc).info

/-- The array of the acting core. -/
def State.arr (s : State) : Cim := s.c.arr

/-- An operation with its fields zero but its kind. -/
def ArrOp.blank (id fn : Nat) : ArrOp :=
  { id := id, fn := fn, bank := false, tile := false, fmt := .f32, sp := 0, sc := false, kind := 0, row0 := 0, count := 0, next := 0, k := 0
    slot := none, data := [], extra := [], scales := none, addr := 0, len := 0, pc := 0, owner := none, quad := false, rows := []
    listBad := none, errs := 0, flags := 0, told := [], ref := 0 }

/-- Adds an operation to those of the acting core. -/
def pushOp (o : ArrOp) : M Unit := modify fun s => s.addArrOp s.cur o

/-- Whether a Z field names tile 1. -/
def isZ1 (z : BitVec 1) : Bool := z == 1

/-! ## Loading B -/

/-- MLDB and MLDBS with their operands' values (R296): the tile address, and the scales' where there is one. -/
def loadB (sp : BitVec 2) (f : Fmt) (ta : Word) (sa : Option Word) (pc : Word) (owner : Option (Nat × Option Nat)) : M Unit := do
  let n := (valueBytes f + metaBytes f sp) / 8
  alignTo ta 128
  match sa with
  | some a => alignTo a 8
  | none => pure ()
  rangeFaults 0 ta n
  match sa with
  | some a => rangeFaults 0 a 48
  | none => pure ()
  let s ← get
  let lm := s.c.m.lm
  let id ← freshId
  pushOp { ArrOp.blank id 0 with
    bank := !s.arr.act, fmt := f, sp := sp, data := lm.grans (ta.toNat / 8) n, scales := sa.map fun a => lm.grans (a.toNat / 8) 48
    pc := pc, owner := owner }

/-- MLDB and MLDBS (R296). -/
def mldbWith (sp : BitVec 2) (b a : BitVec 5) (f : Fmt) (l : BitVec 3) (s : State) : Host.Outcome State Fault Refusal :=
  finish s do
    let w := zWord 0 (if sp = 0 then 0 else 1) sp.toNat b.toNat a.toNat f.code.toNat 0 l.toNat
    let x ← matrixIssue 0 w l ([gR a] ++ if b = 0 then [] else [gR b]) 0
    let ta ← readG x.1 a
    let sa ← readG x.1 b
    loadB sp f ta (if b = 0 then none else some sa) s.x.pc s.issuer
    retire 4

/-- MLDB (R296). -/
def execMldb (b a : BitVec 5) (e : Fmt) (l : BitVec 3) (s : State) : Host.Outcome State Fault Refusal := mldbWith 0 b a e l s
/-- MLDBS (R296, R297). -/
def execMldbs (m : Sparse) (b a : BitVec 5) (e : Fmt) (l : BitVec 3) (s : State) : Host.Outcome State Fault Refusal :=
  mldbWith (match m with
    | .of4 => 1
    | .of2 => 2) b a e l s

/-- MATRIX_LOAD_COMPLETE (R296, R297): the first load that waits for nothing finishes. -/
def execMatrixLoadComplete (core : Nat) (s : State) : Host.Outcome State Fault Refusal :=
  runEvent s do
    let a := (s.core core).arr
    let o ← needSome (a.ops.find? fun o => o.fn == 0 && !a.blocked o)
    set ((s.upArr core fun a => a.setBank o.bank (loadedBank o)).endArrOp core o)

/-- MSWAP (R298): it waits for a load that has not begun as for one in progress (R315). -/
def execMswap (l : BitVec 3) (s : State) : Host.Outcome State Fault Refusal :=
  finish s do
    let _ ← matrixIssue 0 (zWord 0 2 0 0 0 0 0 l.toNat) l [] 0
    let x := !s.arr.act
    waitUntil !(s.arr.ops.any (·.loads x))
    let b := s.arr.bank x
    orMatrix (b.ld == .ready) 0x09 0
    raise (if b.q4b then fQ4 else 0)
    modify fun u => u.upArr u.cur fun a => { a with act := x }
    retire 4

/-- MSCALE (R299): m names the active bank. -/
def execMscale (m : Bool) (a : BitVec 5) (l : BitVec 3) (s : State) : Host.Outcome State Fault Refusal :=
  finish s do
    let x ← matrixIssue 0 (zWord 0 3 (if m then 1 else 0) 0 a.toNat 0 0 l.toNat) l [gR a] 0
    let g ← readG x.1 a
    rangeFaults 0 g 48
    let bk := s.arr.act == m
    waitUntil (s.arr.bankIdle bk)
    let b := s.arr.bank bk
    orMatrix (b.ld == .ready) 0x01 0
    let gs := s.c.m.lm.grans (g.toNat / 8) 48
    modify fun u => u.upArr u.cur fun a => a.setBank bk { b with scales := scalesOf gs, pm := b.pm ||| scalePoison gs }
    retire 4

/-! ## Tiles -/

/-- Sets the KIND of a tile of the acting core. -/
def setKind (z : Bool) (k : BitVec 2) : M Unit := modify fun s => s.upArr s.cur fun a => a.setTile z { a.tile z with kind := k }

/-- MZERO (R302). -/
def execMzero (z : BitVec 1) (l : BitVec 3) (s : State) : Host.Outcome State Fault Refusal :=
  finish s do
    let _ ← matrixIssue 0 (zWord 0 4 0 0 0 0 z.toNat l.toNat) l [] (z.setWidth 64)
    setKind (isZ1 z) 0
    let id ← freshId
    pushOp { ArrOp.blank id 2 with tile := isZ1 z, pc := s.x.pc, owner := s.issuer }
    retire 4

/-- A rows operand (R293): the first row and the count; extra is what MOUTL adds. -/
def rowsOf (w : Word) (extra : Bool) : Option (Nat × Nat) :=
  let c := w.toNat % 512
  let r := w.toNat / 2 ^ 16 % 256
  let rest := if extra then w.toNat / 2 ^ 24 % 256 + w.toNat / 2 ^ 63 else w.toNat / 2 ^ 24
  if w.toNat / 2 ^ 9 % 128 = 0 && rest = 0 && 1 ≤ c && c ≤ 256 && r + c ≤ 256 then some (r, c) else none

/-- A rows operand, or MATRIX of cause 0x03. -/
def needRows (w : Word) (extra : Bool) (z : Word) : M (Nat × Nat) := match rowsOf w extra with
  | some x => pure x
  | none => matrixTrap 0x03 z

/-- The other cores of the quad of a lead (R309). -/
def quadMembers (n : Nat) : List Nat := [n / 4 * 4 + 1, n / 4 * 4 + 2, n / 4 * 4 + 3]

/-- The slot from which an MMA takes A, after the STREAM causes of its step 3 (R301, R317). -/
def sourceSlot (k : Nat) : M Stream := do
  let t ← openSlot k
  orStream (t.ph != .opened) 0x0D k
  orStream (t.d.dir == .src && !t.bound) 0x03 k
  pure t

/-- Waits for the total of a source, and traps STREAM where fewer than n elements are left for an MMA (R301). -/
def enoughElems (k n : Nat) : M Unit := do
  let s ← get
  let t := s.c.stream k
  let taken := ((s.arr.ops.filter fun o => o.slot == some k).map fun o => (o.count - o.next) * o.k).foldl (· + ·) 0
  match s.c.total t with
  | some m => orStream (t.f + taken + n ≤ m) 0x05 k
  | none =>
    orStream (s.c.supplies 16 (s.c.indexOf t) (t.ixpos + t.idx.length)) 0x0A k
    waitM

/-- MMA and MMAS with their operands' values (R300, R301): A at an LM address, or from a slot. -/
def multiply (sparse : Bool) (f : Fmt) (z : Bool) (src : Word ⊕ Nat) (rows : Word) (pc : Word) (owner : Option (Nat × Option Nat)) : M Unit := do
  let zi : Word := if z then 1 else 0
  let s ← get
  let t ← match src with
    | .inr k => sourceSlot k
    | .inl _ => pure Stream.closed
  let (row0, count) ← needRows rows false zi
  let a := s.arr
  let b := a.bank a.act
  orMatrix (a.qm != Quad.member) 0x06 zi
  orMatrix (b.ld == .ready) 0x01 zi
  orMatrix ((b.sp != 0) == sparse) 0x02 zi
  let mode : BitVec 2 := if intMode f b then 1 else 2
  let kind := (a.tile z).kind
  orMatrix (kind == 0 || kind == mode) 0x05 zi
  let k := logicalK b.fmt b.sp
  let rb := k * f.bits / 8
  let id ← freshId
  let o := { ArrOp.blank id 3 with
    bank := a.act, tile := z, fmt := f, sp := b.sp, kind := kind, row0 := row0, count := count, k := k, pc := pc, owner := owner
    quad := a.qm == Quad.lead }
  match src with
  | .inl ga =>
    rangeFaults 0 ga (count * rb / 8)
    setKind z mode
    pushOp { o with data := s.c.m.lm.grans (ga.toNat / 8) (count * rb / 8), addr := ga.toNat }
  | .inr sl =>
    orMatrix (t.d.regFmt == f) 0x04 zi
    enoughElems sl (count * k)
    setKind z mode
    pushOp { o with slot := some sl }
  if a.qm == Quad.lead then
    modify fun u => (quadMembers u.cur).foldl (fun u n => u.upArr n fun x => { x with quadOps := x.quadOps ++ [⟨id, z, 0, none, 0, false, 0, []⟩] }) u

/-- MMA and MMAS (R300): with m set, A is a slot. -/
def mmaWith (sparse m : Bool) (b a : BitVec 5) (e : Fmt) (z : BitVec 1) (l : BitVec 3) (s : State) : Host.Outcome State Fault Refusal :=
  finish s do
    let w := zWord 1 (if sparse then 1 else 0) (if m then 1 else 0) b.toNat a.toNat e.code.toNat z.toNat l.toNat
    let x ← matrixIssue 1 w l ((if m then [] else [gR a]) ++ [gR b]) (z.setWidth 64)
    let ga ← if m then pure 0 else readG x.1 a
    let rows ← readG x.1 b
    multiply sparse e (isZ1 z) (if m then .inr (a.toNat % 16) else .inl ga) rows s.x.pc s.issuer
    retire 4

/-- MMA (R300). -/
def execMma (m : Bool) (b a : BitVec 5) (e : Fmt) (z : BitVec 1) (l : BitVec 3) (s : State) : Host.Outcome State Fault Refusal :=
  mmaWith false m b a e z l s
/-- MMAS (R300). -/
def execMmas (m : Bool) (b a : BitVec 5) (e : Fmt) (z : BitVec 1) (l : BitVec 3) (s : State) : Host.Outcome State Fault Refusal :=
  mmaWith true m b a e z l s

/-- MOUTL (R303). -/
def execMoutl (b a : BitVec 5) (e : Fmt) (z : BitVec 1) (l : BitVec 3) (s : State) : Host.Outcome State Fault Refusal :=
  finish s do
    let zi := z.setWidth 64
    let x ← matrixIssue 1 (zWord 1 2 0 b.toNat a.toNat e.code.toNat z.toNat l.toNat) l [gR a, gR b] zi
    let ga ← readG x.1 a
    let w ← readG x.1 b
    let (row0, count) ← needRows w true zi
    let la := w.toNat / 2 ^ 32 % 2 ^ 20
    let n := w.toNat / 2 ^ 52 % 2 ^ 11
    orMatrix (la % 4 == 0) 0x03 zi
    let bk := s.arr.bank s.arr.act
    orMatrix (bk.ld == .ready) 0x01 zi
    let t := s.arr.tile (isZ1 z)
    orMatrix (t.kind != 2) 0x05 zi
    let k := logicalK bk.fmt bk.sp
    let an := count * (k * e.bits / 8) / 8
    let lo := la / 8 * 8
    let ln := if n = 0 then 0 else (la % 8 + 4 * n + 7) / 8
    if lo < ga.toNat then
      rangeFaults 0 (BitVec.ofNat 64 lo) ln
      rangeFaults 0 ga an
    else
      rangeFaults 0 ga an
      rangeFaults 0 (BitVec.ofNat 64 lo) ln
    let list := s.c.m.lm.grans (lo / 8) ln
    let bad := failing list
    let id ← freshId
    let o := { ArrOp.blank id 4 with
      bank := s.arr.act, tile := isZ1 z, fmt := e, sp := bk.sp, kind := t.kind, row0 := row0, count := count, k := k
      data := s.c.m.lm.grans (ga.toNat / 8) an, extra := list, addr := ga.toNat, len := n, ref := la, pc := s.x.pc, owner := s.issuer
      listBad := bad.head?.map fun i => lo + 8 * i }
    match (outEntries o).zipIdx.find? fun (q, j) => !bad.contains ((la % 8 / 4 + j) / 2) && (k ≤ q.1 || 96 ≤ q.2.1) with
    | some (_, j) => matrixTrap 0x07 (BitVec.ofNat 64 j)
    | none => pure ()
    if n ≠ 0 then
      setKind (isZ1 z) 1
      pushOp o
    retire 4

/-! ## The rows of MMA, MMAS and MOUTL -/

/-- The rows of A of an operation of core n that can be added now: those in LM, or the whole rows that its stream holds, with the elements. -/
def State.rowsReady (s : State) (n : Nat) (o : ArrOp) : List ARow × List Elem :=
  match o.slot with
  | none => ((List.range (o.count - o.next)).map fun i => o.rowLm (o.next + i), [])
  | some k =>
    let t := (s.core n).stream k
    let m := min (o.count - o.next) (t.buf.length / o.k)
    ((List.range m).map fun i => rowOf t.d ((t.buf.drop (i * o.k)).take o.k), t.buf.take (m * o.k))

/-- Whether an operation is the MMA, MMAS or MOUTL whose rows can be added now. -/
def State.rowsNow (s : State) (n : Nat) (o : ArrOp) : Bool :=
  let c := s.core n
  (o.fn == 3 || o.fn == 4) && o.next < o.count && !c.arr.blocked o && match o.slot with
    | none => true
    | some k => o.k ≤ (c.stream k).buf.length && (c.taker k).any (·.id == o.id)

/-- The state with an operation of core n complete when its rows are, on every array of a quad (R300, R310). -/
def State.finishOp (s : State) (n id : Nat) : State :=
  match (s.core n).arr.ops.find? fun o => o.id == id with
  | none => s
  | some o =>
    if o.next < o.count || (o.quad && (quadMembers n).any fun m => (s.core m).arr.quadOps.any fun q => q.id == id) then s
    else s.endArrOp n o

/-- Whether a stop holds the rows of core n: its actor is stopped and, in a quad, has caught up with its lead (R314). -/
def State.rowsHeld (s : State) (n : Nat) : Bool := (s.core n).arrayOwner.any (·.stopped) && !s.quadBehind n

/-- MMA_COMPLETE (R300, R301, R303): rows of the first operation that can go on are added, and the operation completes after the last; a stop holds it
at a row boundary (R314).  With no operation to go on, the array meets tile errors as an output reads them (R311). -/
def execMmaComplete (core : Nat) (errs : ArrayErrors) (s : State) : Host.Outcome State Fault Refusal :=
  runEvent s do
    let a := (s.core core).arr
    match a.ops.find? (s.rowsNow core) with
    | none =>
      need (!errs.tiles.isEmpty && errs.tiles.all (· < 4096) && errs.banks == 0 && !isEave core)
      set (s.tileErrors core errs)
    | some o =>
      need !s.rowsHeld core
      need (errs.tiles.all (· < 2048) && (o.fn == 3 || errs.banks == 0))
      let (rows, es) := s.rowsReady core o
      let s1 := match o.slot with
        | some k => s.takeElems core k es
        | none => s
      let (s2, fl, told) := s1.arrRows core o o.bank o.errs o.told (o.row0 + o.next) rows errs
      let s3 := s2.upArrOp core o.id fun o => { o with
        next := o.next + rows.length, errs := o.errs ||| errs.banks, flags := o.flags ||| fl, told := told
        rows := if o.quad && o.slot.isSome then o.rows ++ rows else o.rows }
      set (s3.finishOp core o.id)

/-- The quad MMA q of operation o as a member reaches it: it binds the member's active bank, after the operations that the member has issued (R310). -/
def Cim.reach (a : Cim) (q : QuadOp) (o : ArrOp) (lead : Cim) (now : Nat) : QuadOp := match q.bank with
  | some _ => q
  | none =>
    let b := a.bank a.act
    let lb := lead.bank o.bank
    { q with bank := some a.act, after := now
             bad := b.ld != BankLd.ready || b.fmt != lb.fmt || b.sp != lb.sp || (a.tile o.tile).kind != o.kind }

/-- QUAD_MMA_RECEIVE (R310): a member reaches the lead's next MMA, and then adds the rows that the lead has done to its own tile, after its own earlier
work on that tile (R295), with its own active bank; a member that differs from the lead has its rows poisoned. -/
def execQuadMmaReceive (core : Nat) (errs : ArrayErrors) (s : State) : Host.Outcome State Fault Refusal :=
  runEvent s do
    let a := (s.core core).arr
    let lead := core / 4 * 4
    let la := (s.core lead).arr
    let q0 ← needSome a.quadOps.head?
    let o ← needSome (la.ops.find? fun o => o.id == q0.id)
    need (errs.tiles.all (· < 2048))
    let q := a.reach q0 o la s.dist.next
    let b := a.bank (q.bank.getD a.act)
    let kind : BitVec 2 := if q.bad || q0.bank.isSome then (a.tile o.tile).kind else if intMode o.fmt b then 1 else 2
    let s0 := { s.upArr core fun a => { a.setTile o.tile { a.tile o.tile with kind := kind } with quadOps := q :: a.quadOps.drop 1 } with
      dist := { s.dist with next := s.dist.next + 1 } }
    if o.next ≤ q.next || a.quadWaits q q.after then
      need q0.bank.isNone
      set s0
    else
      let rows := (List.range (o.next - q.next)).map fun i =>
        if o.slot.isSome then o.rows.getD (q.next + i) ([], none) else o.rowLm (q.next + i)
      let first := o.row0 + q.next
      let (s1, fl, told) := if q.bad then
          ((s0.upArr core fun a => a.setTile o.tile ((a.tile o.tile).wipe first rows.length 0xFF)).matrixBank core o q.told [(4, 0xFF, 0)], 0,
            q.told ++ [4])
        else s0.arrRows core o (q.bank.getD a.act) q.errs q.told first rows errs
      let s2 := s1.upArr core fun a => { a with quadOps :=
        (if o.next == o.count then [] else [{ q with next := o.next, errs := q.errs ||| errs.banks, told := told }]) ++ a.quadOps.drop 1 }
      let s3 := (s2.upArrOp lead o.id fun o => { o with flags := o.flags ||| fl }).drainArr core ((s2.core core).arr.ops.length + 1)
      set (s3.finishOp lead o.id)

/-! ## Output -/

/-- The checks of an output instruction's SC (R304). -/
def needScales (sc : Bool) (z : Word) : M Unit := do
  let s ← get
  orMatrix (!sc || (s.arr.bank s.arr.act).ld == .ready) 0x01 z

/-- MRDZ (R305). -/
def execMrdz (m : Bool) (b a : BitVec 5) (e : Fmt) (z : BitVec 1) (l : BitVec 3) (s : State) : Host.Outcome State Fault Refusal :=
  finish s do
    let zi := z.setWidth 64
    let x ← matrixIssue 2 (zWord 2 0 (if m then 1 else 0) b.toNat a.toNat e.code.toNat z.toNat l.toNat) l [gR b] zi
    let g ← readG x.1 b
    orMatrix (g.toNat / 2 ^ 10 == 0 && g.toNat / 256 != 3) 0x03 zi
    needScales m zi
    let v ← freshId
    modify fun u => u.upX fun y => y.wrLate v (vR a) none
    let id ← freshId
    pushOp { ArrOp.blank id 5 with
      bank := s.arr.act, tile := isZ1 z, fmt := e, sc := m, kind := (s.arr.tile (isZ1 z)).kind, row0 := g.toNat % 256, k := g.toNat / 256
      pc := s.x.pc, owner := s.issuer, ref := v }
    retire 4

/-- MSTZ (R306). -/
def execMstz (m : Bool) (b a : BitVec 5) (e : Fmt) (z : BitVec 1) (l : BitVec 3) (s : State) : Host.Outcome State Fault Refusal :=
  finish s do
    let zi := z.setWidth 64
    let x ← matrixIssue 2 (zWord 2 1 (if m then 1 else 0) b.toNat a.toNat e.code.toNat z.toNat l.toNat) l [gR a, gR b] zi
    let ga ← readG x.1 a
    let w ← readG x.1 b
    let (row0, count) ← needRows w false zi
    needScales m zi
    let n := count * 96 * e.bits / 8
    rangeFaults 1 ga (n / 8)
    let id ← freshId
    pushOp { ArrOp.blank id 6 with
      bank := s.arr.act, tile := isZ1 z, fmt := e, sc := m, kind := (s.arr.tile (isZ1 z)).kind, row0 := row0, count := count, addr := ga.toNat
      len := n, pc := s.x.pc, owner := s.issuer }
    retire 4

/-- The destination that MDRAIN's operand names; none where it is invalid (R20, R307). -/
def State.drainDest (s : State) (a : Actor) (g : Word) : Option (BitVec 32) :=
  if g.toNat / 2 ^ 49 ≠ 0 || 0xFFE0 ≤ g.toNat / 2 ^ 32 % 2 ^ 16 || g.getLsbD 3 then none
  else if !g.getLsbD 48 then some (g.setWidth 32)
  else if g.toNat / 2 ^ 24 % 256 ≠ 0 then none
  else (s.member a (g.toNat / 16 % 2 ^ 20)).map fun m =>
    BitVec.ofNat 32 (s.devNum.toNat * 2 ^ 24 + m.toNat % 2 ^ 24 / 16 * 16 + g.toNat % 8)

/-- MDRAIN (R307): the message takes its outbound entry at issue, and its payload when the rows are read out (R295). -/
def execMdrain (t : BitVec 2) (m : Bool) (b a : BitVec 5) (e : Fmt) (z : BitVec 1) (l : BitVec 3) (s : State) :
    Host.Outcome State Fault Refusal :=
  finish s do
    let zi := z.setWidth 64
    let mode := t.toNat * 2 + if m then 1 else 0
    let x ← matrixIssue 2 (zWord 2 2 mode b.toNat a.toNat e.code.toNat z.toNat l.toNat) l [gR a, gR b] zi
    let g ← readG x.1 a
    let w ← readG x.1 b
    let (row0, count) ← needRows w false zi
    let n := count * 96 * e.bits / 8
    match s.drainDest x.2 g with
    | none => matrixTrap 0x08 zi
    | some dst =>
      orMatrix (n ≤ 8191) 0x08 zi
      needScales m zi
      waitUntil s.c.outFree
      let msg := s.dist.next
      modify fun u =>
        let u1 := u.post u.cur u.actIdx x.2
          { dst := dst, typ := g.toNat / 2 ^ 32 % 2 ^ 16, flags := 0, tc := t.toNat, xf := 0, rank := x.2.rank, multi := true, sender := x.2.addr
            len := n } []
        u1.upC fun c => { c with outbound := c.outbound.map fun q => if q.id = msg then { q with st := .draining } else q }
      let id ← freshId
      pushOp { ArrOp.blank id 7 with
        bank := s.arr.act, tile := isZ1 z, fmt := e, sc := m, kind := (s.arr.tile (isZ1 z)).kind, row0 := row0, count := count
        pc := s.x.pc, owner := s.issuer, ref := msg }
      retire 4

/-- The cores whose MATRIXBANK messages an MWAIT of core n awaits: the quad's for its lead, whose MMA all four run (R308, R310). -/
def State.waitCores (s : State) (n : Nat) : List Nat := if (s.core n).arr.qm == .lead then n :: quadMembers n else [n]
/-- Whether a MATRIXBANK message of tile z from the array of core n is still to be delivered (R308, R312). -/
def State.bankNews (s : State) (n : Nat) (z : Bool) : Bool :=
  s.dist.hw.any fun q => q.kind == .fault && q.header.toNat / 2 ^ 32 % 2 ^ 16 == 0xFFF3
    && ((s.core n).arrayOwner.any fun a => q.part == a.part && q.dst == mb7 a.addr)
    && (q.payload.head?.any fun g => g.1.getLsbD 8 == z && g.1.toNat / 2 ^ 29 % 2 ^ 10 == coreNumber n)

/-- MWAIT (R301, R308). -/
def execMwait (z : BitVec 1) (l : BitVec 3) (s : State) : Host.Outcome State Fault Refusal :=
  finish s do
    let _ ← matrixIssue 2 (zWord 2 3 0 0 0 0 z.toNat l.toNat) l [] (z.setWidth 64)
    let mine := s.arr.ops.filter fun o => o.onTile (isZ1 z) && (o.fn == 2 || o.fn == 3 || o.fn == 4)
    match mine.findSome? fun o => match o.slot with
        | some k => if (s.c.taker k).any (·.id == o.id) && s.c.rowHalted k then some k else none
        | none => none with
    | some k => streamTrap 0x07 k
    | none => pure ()
    let quad := s.arr.quadOps.any (·.tile == isZ1 z)
    waitUntil (mine.isEmpty && !quad && !(s.waitCores s.cur).any fun n => s.bankNews n (isZ1 z))
    retire 4

/-! ## Quad mode -/

/-- The value for which a core waits at an MQUAD that its quad has not yet met for (R309). -/
def State.waitsQuad (s : State) (v : Bool) (n : Nat) : Bool := (s.core n).arr.quadWant == some (v, false)

/-- MQUAD (R309). -/
def execMquad (a : BitVec 5) (l : BitVec 3) (s : State) : Host.Outcome State Fault Refusal :=
  finish s do
    let x ← matrixIssue 0 (zWord 0 5 0 0 a.toNat 0 0 l.toNat) l [gR a] 0
    let g ← readG x.1 a
    let base := s.cur / 4 * 4
    let four := base :: quadMembers s.cur
    orMatrix (g.toNat < 2) 0x06 0
    let v : Bool := g == 1
    orMatrix (!v || (x.2.quads && four.all fun n => match (s.core n).arrayOwner with
      | some k => k.gang == x.2.gang && k.part == x.2.part
      | none => false)) 0x06 0
    if s.arr.quadWant == some (v, true) then
      modify fun u => u.upArr u.cur fun a => { a with quadWant := none }
      retire 4
    else
      let s1 := s.upArr s.cur fun a => { a with quadWant := some (v, false) }
      if four.all (s1.waitsQuad v) && (v || !(s.core base).arr.ops.any (·.quad)) then
        modify fun u => four.foldl (fun u n => u.upArr n fun a => { a with
          qm := if !v then .off else if n = base then .lead else .member
          quadWant := if n = u.cur then none else some (v, true) }) u
        retire 4
      else waitWith s1

end Sys2Proof.Machine
end

