-- ==== Sys2Proof/Machine/FollowOn.lean ====
section
/-!
DEFINITION. The follow-on of a COPYF (R334): an instruction of the destination actor with its operands' values from the parameter block.
-/

namespace Sys2Proof.Machine

/-- The state in which a follow-on of the actor at an index runs: a scratch context of its core that holds nothing but the actor (R334). -/
def State.followCtx (s : State) (core idx : Nat) : State :=
  let f : Firing := { actor := idx, mb := 0, slots := [], join := false, header := 0, weight := 0, accepted := 0, sig := none, forwarded := false
                      entry := 0, away := 0, awaySince := none }
  { s.upCore core fun c => c.setCtx 4 { Ctx.reset with firing := some f } with cur := core, curCtx := 4 }

/-- The state after a follow-on, back in the context that acted before. -/
def State.followEnd (s t : State) (core : Nat) : State := { t.upCore core fun c => c.setCtx 4 .reset with cur := s.cur, curCtx := s.curCtx }

/-- A matrix follow-on on an eave core is illegal (R9). -/
def needArray (m : Nat) (fw : Nat) : M Unit := do
  let s ← get
  if isEave s.cur then trapM 0x01 (BitVec.ofNat 64 (0x23 + m)) (BitVec.ofNat 64 fw <<< 32 ||| 8)

/-- A send of a follow-on waits while no outbound entry is free; any other status is lost, as D is g0 (R334). -/
def sendFollow (m : M Nat) : M Unit := do
  let st ← m
  waitUntil (st != 1)

/-- The effect of a follow-on (R334). -/
def followDo (f : Follow) (fw : Nat) (fa fb fd : Word) : M Unit := do
  match f with
  | .load sp e =>
    needArray 0 fw
    let _ ← arrayOf 0
    loadB sp e fa (if fb = 0 then none else some fb) (BitVec.allOnes 64) none
  | .mma sparse e z =>
    needArray 1 fw
    let _ ← arrayOf (z.setWidth 64)
    multiply sparse e (isZ1 z) (.inl fa) fb (BitVec.allOnes 64) none
  | .send z tc => sendFollow (sendLm .plain z tc fa fb)
  | .jadd =>
    let z := fd.toNat / 2 ^ 16
    sendFollow (if 4 < z then pure 2 else sendLm (.join (fd.toNat % 2 ^ 16)) z 1 fa fb)

/-- The state with a FOLLOWON fault on its way to the issuer of a copy (R331, log 43); the address that it names is open. -/
def State.followFault (s : State) (c : Copy) (core code info : Nat) : State :=
  let token := (Config.tokenBase + s.dist.next) % 2 ^ 32
  let p : CopyPart := { (c.parts.headD ⟨0, c.elems, 0, .done, [], none⟩) with token := token }
  let s1 := { s with dist := { s.dist with next := s.dist.next + 1, spent := s.dist.spent ++ [(token, c.part, c.addr)] }, draws := s.draws + 1 }
  s1.copyFault c p 7 true core code info (Config.freeWord s.draws) p.count

/-- COPYF_FOLLOWON (R334): the follow-on is issued on the destination core, and the copy completes. -/
def execCopyfFollowon (id : Nat) (s : State) : Host.Outcome State Fault Refusal :=
  runEvent s do
    let c ← needSome (s.copyAt id)
    need (c.landed && amState (s.amap c.part c.dact) == 1)
    let f ← needSome (followOf c.fw)
    let (core, idx) ← needSome (s.actorAt c.part c.dact)
    let a ← needSome ((s.core core).actor idx)
    need !a.stopped
    let w := fun i => BitVec.ofNat 64 (bytesAt c.block i 8)
    match followDo f c.fw (w 40) (w 48) (w 56) (s.followCtx core idx) with
    | .ok (_, t) => set ((s.followEnd t core).copyDone c)
    | .error (.trap code i0 _ _) => set ((s.followFault c core code (i0.toNat % 256)).copyDone c)
    | .error _ => need false

end Sys2Proof.Machine
end

