-- ==== Sys2Proof/Machine/Csrs.lean ====
section
/-!
DEFINITION. The control and status registers: their values, their writable fields at each level (R346, R347, R349, R375), and major 0x29 (R348).
-/

namespace Sys2Proof.Machine

/-- A flag as bit n of a number. -/
def bitAt (b : Bool) (n : Nat) : Nat := if b then 2 ^ n else 0

/-- The count of an event on a core: events above 7 read 0 (R375, log 21). -/
def State.eventCount (s : State) (n ev : Nat) : Nat := if ev = 0 then s.time else if ev < 8 then tget 0 (s.core n).counts ev else 0

/-- DBGDATA (R375). -/
def State.dbgData (s : State) : Word :=
  let sel := s.c.dbgsel.toNat
  match sel / 2 ^ 16 with
  | 0 => match (s.c.stream (sel / 2 ^ 12 % 16)).course[sel % 2 ^ 12]? with
    | some e => BitVec.ofNat 64 (e.f % 2 ^ 48 * 2 ^ 16 + e.reason.toNat * 2 ^ 14 + e.id % 2 ^ 10 * 16 + e.loc.toNat)
    | none => 0
  | 1 => BitVec.ofNat 64 (s.eventCount s.cur (sel % 2 ^ 12) % 2 ^ 48 * 2 ^ 16)
  | _ => 0

/-- A field of the acting actor's CSRs, or its reset value where no actor is resident (R408). -/
def State.ofActor {α : Type} (s : State) (d : α) (f : Actor → α) : α := match s.act with
  | some a => f a
  | none => d

/-- A CSR as the acting context reads it (R346).  SELF is the actor address: R7 says that core numbers appear in SELF, but the address of R166
holds none, so the model follows R346 (DESIGN CHOICE, log 68). -/
def State.readCsr (s : State) : Csr → Word
  | .fpx => s.x.fpx.setWidth 64
  | .scb => s.ofActor 1 fun a => a.csr.scb.setWidth 64
  | .lc => s.x.lc
  | .rsp => s.ofActor 0 (fun a => a.csr.rspBase.setWidth 64) <<< 35 ||| s.x.rspTop.setWidth 64 <<< 3
  | .sealctl => s.ofActor 0 fun a => a.csr.sealctl.setWidth 64
  | .seallog => s.ofActor 0 fun a => a.csr.seallog
  | .evt => BitVec.ofNat 64 (s.c.evt.toNat * 2 ^ 56 + s.eventCount s.cur s.c.evt.toNat % 2 ^ 56)
  | .hbudget => s.ofActor 0 fun a => a.csr.hbudget.setWidth 64
  | .age => s.ofActor 0 fun a => a.csr.age.setWidth 64
  | .self => s.ofActor 0 fun a => a.addr.setWidth 64
  | .part => BitVec.ofNat 64 s.c.partNo
  | .w => s.ofActor 0 fun a => BitVec.ofNat 64 a.csr.w
  | .time => BitVec.ofNat 64 s.time
  | .xb => s.c.m.xb.setWidth 64 <<< 13
  | .tcode => s.x.trap.tcode.setWidth 64
  | .tpc => s.x.trap.tpc
  | .tinfo0 => s.x.trap.tinfo0
  | .tinfo1 => s.x.trap.tinfo1
  | .status => BitVec.ofNat 64 (bitAt s.x.trap.tact 2 + bitAt s.x.trap.ppl 1 + bitAt s.x.trap.pl 0)
  | .tvec => s.c.tvec.setWidth 64 <<< 1
  | .ssx0 => s.x.trap.ssx0
  | .ssx1 => s.x.trap.ssx1
  | .ssx2 => s.x.trap.ssx2
  | .ssx3 => s.x.trap.ssx3
  | .lmwin => s.ofActor 0 fun a => a.csr.hi.setWidth 64 <<< 32 ||| a.csr.lo.setWidth 64
  | .actsel => s.x.trap.actsel.setWidth 64
  | .asg => s.ofActor 0 fun a => BitVec.ofNat 64 (bitAt a.csr.asgArr 16 + a.csr.asgSlots.toNat)
  | .ptb => (s.part s.c.partNo).ptb
  | .dbgsel => s.c.dbgsel.setWidth 64
  | .dbgdata => s.dbgData

/-- Whether a CSR may be read at level U (R346). -/
def csrUserReads : Csr → Bool
  | .tcode | .tpc | .tinfo0 | .tinfo1 | .status | .tvec | .ssx0 | .ssx1 | .ssx2 | .ssx3 | .actsel | .asg | .ptb | .dbgsel | .dbgdata => false
  | _ => true
/-- Whether a CSR has a field that a level may write (R346). -/
def csrWritable (sup : Bool) : Csr → Bool
  | .fpx | .scb | .lc | .rsp | .sealctl | .seallog | .evt => true
  | .self | .part | .w | .time | .xb | .ptb | .dbgdata => false
  | _ => sup

/-- The acting context with its trap registers changed. -/
def State.upTrap (s : State) (f : TrapRegs → TrapRegs) : State := s.upX fun x => { x with trap := f x.trap }
/-- The acting actor with its CSRs changed; nothing where none is resident (R408). -/
def State.upCsrs (s : State) (f : ActorCsrs → ActorCsrs) : State := s.upAct fun a => { a with csr := f a.csr }

/-- A write of LC: the count of the top loop entry (R72). -/
def State.writeLc (s : State) (v : Word) : State := s.upX fun x => { x with loops := match x.loops with
  | e :: r => { e with count := v.setWidth 32 } :: r
  | [] => [] }

/-- Whether a write of ASG for the actor at an index gives a slot or the array to a second actor, or takes away an open slot (R349). -/
def Core.asgConflict (c : Core) (idx : Nat) (a : Actor) (slots : BitVec 16) (arr : Bool) : Bool :=
  (c.actors.any fun e => e.1 ≠ idx && match e.2 with
    | some b => (arr && b.csr.asgArr) || b.csr.asgSlots &&& slots ≠ 0
    | none => false)
    || (List.range 16).any fun k => a.csr.asgSlots.getLsbD k && !slots.getLsbD k && (c.stream k).ph != .closed

/-- A write of ASG of the actor at an index of the acting core (R349); ARR is stored on an eave core too, where no array exists and the rules
say nothing of the bit (DESIGN CHOICE, log 68). -/
def State.writeAsg (s : State) (idx : Nat) (v : Word) : State :=
  match s.c.actor idx with
  | none => s
  | some a =>
    if s.c.asgConflict idx a (v.setWidth 16) (v.getLsbD 16) then s
    else s.upC fun c => c.setActor idx (some { a with csr := { a.csr with asgSlots := v.setWidth 16, asgArr := v.getLsbD 16 } })

/-- A write to a CSR at a level: read-only fields and fields not writable there keep their values, as does a field that is given a value which it
does not have (R5, R347).  TCODE[7:0] and SEALLOG.SRC take any value, also one that R351 or R285 gives no meaning (DESIGN CHOICE, log 76). -/
def State.writeCsr (s : State) (sup : Bool) (v : Word) : Csr → State
  | .fpx => s.upX fun x => { x with fpx := v.setWidth 6 }
  | .scb => s.upCsrs fun k => if v.setWidth 2 = (3 : BitVec 2) then k else { k with scb := v.setWidth 2 }
  | .lc => s.writeLc v
  | .rsp =>
    let s1 := s.upX fun x => { x with rspTop := v.extractLsb' 3 16 }
    if sup then s1.upCsrs fun k => { k with rspBase := v.extractLsb' 35 16 } else s1
  | .sealctl => s.upCsrs fun k =>
    let mode := if v.setWidth 2 = (3 : BitVec 2) then k.sealctl &&& 3 else v.setWidth 16 &&& 3
    let lock := (if sup then v.setWidth 16 else k.sealctl) &&& 4
    { k with sealctl := (v.setWidth 16 &&& 0xFF00) ||| lock ||| mode }
  | .seallog => s.upCsrs fun k => { k with seallog := v &&& 0xFFFFF1000007FFFF }
  | .evt => s.upC fun c => { c with evt := v.extractLsb' 56 8 }
  | .hbudget => s.upCsrs fun k => { k with hbudget := v.setWidth 32 }
  | .age => s.upCsrs fun k => { k with age := v.setWidth 16 }
  | .tcode => s.upTrap fun t => { t with tcode := v.setWidth 9 }
  | .tpc => s.upTrap fun t => { t with tpc := v }
  | .tinfo0 => s.upTrap fun t => { t with tinfo0 := v }
  | .tinfo1 => s.upTrap fun t => { t with tinfo1 := v }
  | .status => s.upTrap fun t => { t with tact := v.getLsbD 2, ppl := v.getLsbD 1 }
  | .tvec => s.upC fun c => { c with tvec := v.extractLsb' 1 18 }
  | .ssx0 => s.upTrap fun t => { t with ssx0 := v }
  | .ssx1 => s.upTrap fun t => { t with ssx1 := v }
  | .ssx2 => s.upTrap fun t => { t with ssx2 := v }
  | .ssx3 => s.upTrap fun t => { t with ssx3 := v }
  | .lmwin => s.upCsrs fun k => { k with lo := v.setWidth 7, hi := if 71 < v.toNat / 2 ^ 32 % 128 then k.hi else v.extractLsb' 32 7 }
  | .actsel => s.upTrap fun t => { t with actsel := v.setWidth 4 }
  | .asg => s.writeAsg s.actIdx v
  | .dbgsel => s.upC fun c => { c with dbgsel := v.setWidth 20 }
  | .self | .part | .w | .time | .xb | .ptb | .dbgdata => s

/-- Whether the acting context awaits an AADD.F32, whose reply brings flags (R224). -/
def State.addsOut (s : State) : Bool := s.c.m.far.any fun f => f.ctx == s.curCtx && match f.kind with
  | .atomic 7 _ false (some _) _ _ _ => true
  | _ => false
/-- Whether an earlier instruction of the acting context can still change a CSR: flags of an atomic and of the array's work (R224, R300, R304, R348). -/
def State.csrPending (s : State) : Csr → Bool
  | .fpx => s.addsOut || s.arr.ops.any fun o => o.owner == s.issuer && (5 ≤ o.fn || (o.fn == 3 && !intMode o.fmt (s.arr.bank o.bank)))
  | _ => false

/-- What a CSR instruction does with the old value and its operand (R348): FN 0 reads. -/
def csrNew (fn : Nat) (old g : Word) : Word := match fn with
  | 1 => g
  | 2 => old ||| g
  | 3 => old &&& ~~~g
  | _ => old

/-- PRIV (R347): the record names MAJ, or CSR8 for major 0x29, and the word. -/
def privTrap {α : Type} (n : Nat) (w : Nat) : M α := trapM 0x02 (BitVec.ofNat 64 n) (BitVec.ofNat 64 (w * 2 ^ 32))

/-- A CSR instruction (R347, R348). -/
def csrWith (fn : Nat) (c : Csr) (a d : BitVec 5) (l : BitVec 3) (s : State) : Host.Outcome State Fault Refusal :=
  finish s do
    let sup := s.x.trap.pl
    let w := fn * 2 ^ 29 + c.num.toNat * 2 ^ 21 + a.toNat * 2 ^ 16 + d.toNat * 2 ^ 11 + l.toNat * 2 ^ 8 + 0xA7
    if (!sup && !csrUserReads c) || (fn ≠ 0 && !csrWritable sup c) then privTrap c.num.toNat w
    let r ← issue l.toNat false (if fn = 0 then [] else [gR a])
    let g ← if fn = 0 then pure 0 else readG r a
    waitUntil !(s.csrPending c)
    let old := (← get).readCsr c
    if fn ≠ 0 then modify fun u => u.writeCsr sup (csrNew fn old g) c
    writeVarG d old
    retire 4

/-- CSRR (R348). -/
def execCsrr (c : Csr) (d : BitVec 5) (l : BitVec 3) (s : State) : Host.Outcome State Fault Refusal := csrWith 0 c 0 d l s
/-- CSRW (R348). -/
def execCsrw (c : Csr) (a d : BitVec 5) (l : BitVec 3) (s : State) : Host.Outcome State Fault Refusal := csrWith 1 c a d l s
/-- CSRS (R348). -/
def execCsrs (c : Csr) (a d : BitVec 5) (l : BitVec 3) (s : State) : Host.Outcome State Fault Refusal := csrWith 2 c a d l s
/-- CSRC (R348). -/
def execCsrc (c : Csr) (a d : BitVec 5) (l : BitVec 3) (s : State) : Host.Outcome State Fault Refusal := csrWith 3 c a d l s

/-- ASG_WRITE (R349): what a write of ASG does for the actor at an index of the acting core. -/
def execAsgWrite (idx : BitVec 4) (val : Word) (s : State) : Host.Outcome State Fault Refusal := .next (s.writeAsg idx.toNat val)
/-- LC_WRITE (R72): what a write of LC does to the acting context. -/
def execLcWrite (val : Word) (s : State) : Host.Outcome State Fault Refusal := .next (s.writeLc val)

end Sys2Proof.Machine
end

