-- ==== Sys2Proof/Machine/System.lean ====
section
/-!
DEFINITION. Supervisor instructions: majors 0x2A and 0x2B (R352, R358 to R370).
-/

namespace Sys2Proof.Machine

/-- Issues a supervisor instruction of format R with major 0x2A + m (R345, R347, R376): the registers. -/
def supIssue (m fn b a d : Nat) (l : BitVec 3) (rd : List RegId) : M Regs := do
  let s ← get
  if !s.x.trap.pl then privTrap (0x2A + m) (fn * 2 ^ 29 + b * 2 ^ 21 + a * 2 ^ 16 + d * 2 ^ 11 + l.toNat * 2 ^ 8 + (0x2A + m) * 4 + 3)
  issue l.toNat false rd

/-- Writes a status and goes on. -/
def statusM (d : BitVec 5) (n : Nat) : M Unit := do
  writeVarG d (BitVec.ofNat 64 n)
  retire 4

/-! ## Gangs (R365, R366) -/

/-- The gang of the acting core's partition that an operand names. -/
def State.gangNamed (s : State) (g : Word) : Option Gang :=
  if 2 ^ 32 ≤ g.toNat then none else match s.gangOf g.toNat with
    | some x => if x.part = s.c.partNo then some x else none
    | none => none

/-- Where the resident members of a gang stand. -/
def State.residents (s : State) (g : Gang) : List (Nat × Nat) := g.members.filterMap (s.memberAt g)

/-- The state with every member of a gang halted, the acting context excepted until its instruction is complete (R365). -/
def State.haltGang (s : State) (g : Gang) : State :=
  (s.residents g).foldl (fun u p => u.haltMember p.1 p.2 (some (s.cur, s.curCtx))) s

/-- The state with a stopped gang settled: streams recalled, REL.DV, and the acting context halted if it runs a member (R365). -/
def State.settleGang (s : State) (g : Gang) : State :=
  let s1 := (s.residents g).foldl (fun u p => u.settle p.1 p.2) (s.haltGang g)
  let mine := s.x.firing.any fun f => (s.residents g).contains (s.cur, f.actor)
  (s1.upGang g.id fun g => { g with stopped := true }).upX fun x => if mine then x.halt s.time else x

/-- GSTOP (R365). -/
def execGstop (a d : BitVec 5) (l : BitVec 3) (s : State) : Host.Outcome State Fault Refusal :=
  finish s do
    let r ← supIssue 0 0 0 a.toNat d.toNat l [gR a]
    let x ← readG r a
    match s.gangNamed x with
    | none => statusM d 2
    | some g =>
      if g.stopped then statusM d 1
      else
        let t := s.haltGang g
        if (s.residents g).any fun p => t.memberBusy p.1 p.2 then waitWith t
        else
          modify fun u => u.settleGang g
          statusM d 0

/-- The state after the parked records of an actor that fit now have been replayed in order (R187, R366). -/
def State.replayAll (s : State) (core idx : Nat) : Nat → State
  | 0 => s
  | n + 1 => match s.replayOne core idx with
    | some t => State.replayAll t core idx n
    | none => s

/-- The state with a member running again: it replays its park buffer under the restore fence, and its contexts go on (R366). -/
def State.resumeMember (s : State) (core idx : Nat) : State :=
  match (s.core core).actor idx with
  | none => s
  | some a =>
    let s1 := s.upActor core idx fun a => { a with stopped := false, parking := false, fence := true }
    let s2 := (s1.replayAll core idx (s.parkUsed (s.amap a.part a.addr) / 32)).endReplay core idx
    s2.upCore core fun c => (c.ctxsOf idx).foldl (fun c k => c.setCtx k ((c.ctx k).goOn s.time)) c

/-- GRESUME (R366). -/
def execGresume (a d : BitVec 5) (l : BitVec 3) (s : State) : Host.Outcome State Fault Refusal :=
  finish s do
    let r ← supIssue 0 1 0 a.toNat d.toNat l [gR a]
    let x ← readG r a
    match s.gangNamed x with
    | none => statusM d 2
    | some g =>
      if !g.stopped then statusM d 2
      else if (s.residents g).length ≠ g.members.length || g.members.any (fun m => amState (s.amap g.part m.2.2) == 2) then statusM d 1
      else
        modify fun u => ((s.residents g).foldl (fun u p => u.resumeMember p.1 p.2) u).upGang g.id fun g => { g with stopped := false }
        statusM d 0

/-! ## Images (R367 to R370) -/

/-- The check of CTXSAVE and EVICT: the status that stops them, none where they go on (R368). -/
def State.saveStatus (s : State) (g va : Word) : Option Nat :=
  if 16 ≤ g.toNat || va.toNat % 8192 ≠ 0 then some 2
  else match s.c.actor g.toNat with
    | none => some 2
    | some a =>
      if !s.rangeOk s.c.partNo va.toNat a.imageLen true then some 3
      else if !a.stopped && !(s.c.ctxsOf g.toNat).isEmpty then some 1
      else none

/-- Whether the write of the image of the actor at an index of the acting core waits for a locked line (R249). -/
def State.imageBusy (s : State) (idx va : Nat) : Bool := (s.c.actor idx).any fun a => s.vaBusy s.c.partNo va (a.imageLen / 8)
/-- Whether the read of an image waits for a locked line: of its header, or of the rest (R249). -/
def State.loadBusy (s : State) (va : Nat) : Bool :=
  va % 8192 = 0 && (s.vaBusy s.c.partNo va 16 || s.vaBusy s.c.partNo va
    (match readHeader (((s.distReads s.c.partNo va 16).getD []).map (·.1)) s.c.partNo with
      | some h => (imageBase (h.flags % 2 == 1) + (h.hi - h.lo) * 8192) / 8
      | none => 16))

/-- CTXSAVE (R368). -/
def execCtxsave (b a d : BitVec 5) (l : BitVec 3) (s : State) : Host.Outcome State Fault Refusal :=
  finish s do
    let r ← supIssue 0 2 b.toNat a.toNat d.toNat l [gR a, gR b]
    let g ← readG r a
    let va ← readG r b
    match s.saveStatus g va with
    | some n => statusM d n
    | none =>
      waitUntil (s.saveReady s.cur g.toNat && !s.imageBusy g.toNat va.toNat)
      modify fun u => u.saveActor u.cur g.toNat va.toNat
      statusM d 0

/-- EVICT (R369). -/
def execEvict (b a d : BitVec 5) (l : BitVec 3) (s : State) : Host.Outcome State Fault Refusal :=
  finish s do
    let r ← supIssue 0 4 b.toNat a.toNat d.toNat l [gR a, gR b]
    let g ← readG r a
    let va ← readG r b
    match s.saveStatus g va with
    | some n => statusM d n
    | none =>
      waitUntil (s.saveReady s.cur g.toNat && !s.imageBusy g.toNat va.toNat)
      modify fun u => match u.c.actor g.toNat with
        | some k => (u.parkEntry k u.cur g.toNat).evictActor u.cur g.toNat va.toNat
        | none => u
      statusM d 0

/-- The image that CTXLOAD and RESTORE load, or the status that stops them (R368). -/
def State.loadStatus (s : State) (g va : Word) : Except Nat (ImageHeader × Option Image) :=
  if 16 ≤ g.toNat then .error 2
  else match s.readImage s.c.partNo va.toNat with
    | .error n => .error n
    | .ok x => if Core.roomFor s.cur s.c g.toNat x.1 && s.quadRoom s.cur x.1 then .ok x else .error 1

/-- CTXLOAD (R368). -/
def execCtxload (b a d : BitVec 5) (l : BitVec 3) (s : State) : Host.Outcome State Fault Refusal :=
  finish s do
    let r ← supIssue 0 3 b.toNat a.toNat d.toNat l [gR a, gR b]
    let g ← readG r a
    let va ← readG r b
    waitUntil !(decide (g.toNat < 16) && s.loadBusy va.toNat)
    match s.loadStatus g va with
    | .error n => statusM d n
    | .ok x =>
      modify fun u => u.loadActor va.toNat g.toNat x.1 x.2 false
      statusM d 0

/-- The state after the steps of RESTORE that follow the load: the map entry is resident, and the park buffer that it names is replayed under the
fence (R370). -/
def State.restoreEntry (s : State) (idx : Nat) : State :=
  match s.c.actor idx with
  | none => s
  | some a =>
    let e := s.amap a.part a.addr
    let s1 := s.setAmap a.part a.addr (amMake e 1 s.cur idx)
    if amState e = 0 then s1 else (s1.upActor s.cur idx fun a => { a with fence := true }).endReplay s.cur idx

/-- RESTORE (R370). -/
def execRestore (b a d : BitVec 5) (l : BitVec 3) (s : State) : Host.Outcome State Fault Refusal :=
  finish s do
    let r ← supIssue 0 5 b.toNat a.toNat d.toNat l [gR a, gR b]
    let g ← readG r a
    let va ← readG r b
    waitUntil !(decide (g.toNat < 16) && s.loadBusy va.toNat)
    match s.loadStatus g va with
    | .error n => statusM d n
    | .ok x =>
      modify fun u => (u.loadActor va.toNat g.toNat x.1 x.2 true).restoreEntry g.toNat
      statusM d 0

/-! ## The return from a trap (R352, R353) -/

/-- TRET (R352): it resumes, or ends the firing; in a context without a firing, it frees the context (R353). -/
def execTret (a : BitVec 5) (l : BitVec 3) (s : State) : Host.Outcome State Fault Refusal :=
  finish s do
    let w := 6 * 2 ^ 29 + a.toNat * 2 ^ 16 + l.toNat * 2 ^ 8 + 0xAB
    let r ← supIssue 0 6 0 a.toNat 0 l [gR a]
    let g ← readG r a
    orTrap (g.toNat < 2) 0x01 g (BitVec.ofNat 64 (w * 2 ^ 32 + 4))
    if s.x.firing.isNone then
      modify fun u => (u.upX fun x => { x with mbTrap := false, prevPc := x.pc, trap := { x.trap with pl := false, tact := false } }).upC (·.count 1 1)
    else if g = 0 then
      modify fun u => ((u.upX fun x => { x with prevPc := x.pc }).upC (·.count 1 1)).resumed
    else
      modify fun u => (u.upC (·.count 1 1)).endFiring

/-! ## Translations (R357 to R359) -/

/-- The cores whose cached translations a scope covers (R358). -/
def State.scopeCores (s : State) (sc : Nat) : List Nat :=
  if sc = 0 then [s.cur]
  else if sc = 1 then (if isEave s.cur then [s.cur] else (List.range 16).map fun i => clusterOf s.cur * 16 + i)
  else s.cores.map (·.1)

/-- The state without the cached translations of a scope that p names: in TLBs, in the cores' streams, in translation caches and, from scope 2 on, in
copies (R357, R358). -/
def State.dropTlb (s : State) (sc : Nat) (p : Tlb → Bool) : State :=
  let keep := fun (l : List Tlb) => l.filter fun t => !p t
  let s1 := (s.scopeCores sc).foldl (fun u n => u.upCore n fun c =>
    { c with m := { c.m with tlb := keep c.m.tlb }, streams := c.streams.map fun e => (e.1, { e.2 with tlb := keep e.2.tlb }) }) s
  let ks := if sc = 0 || (sc = 1 && isEave s.cur) then [] else if sc = 1 then [clusterOf s.cur] else s.clusters.map (·.1)
  let s2 := ks.foldl (fun u k => u.upCluster k fun c => { c with tcache := keep c.tcache }) s1
  if sc < 2 then s2 else { s2 with dist := { s2.dist with copies := s2.dist.copies.map fun c => { c with tlb := keep c.tlb } } }

/-- Whether an access that has been translated is still to be performed in a scope (R358): of any page, or of one near an address; among them the write
of an update element that has been read. -/
def State.usesStale (s : State) (sc : Nat) (near : Word → Bool) : Bool :=
  (s.scopeCores sc).any fun n =>
    let c := s.core n
    (c.m.stores.any fun e => e.part == s.c.partNo && near e.va) || (c.m.far.any fun f => f.part == s.c.partNo && near f.va)
      || (c.m.patches.any fun p => p.st.part == s.c.partNo && near p.st.va)
      || (c.partNo == s.c.partNo && c.streams.any fun e => e.2.half.any fun h => near h.va)

/-- TLBINV and TLBINVA (R358): the entries go, and the instruction waits for the accesses that used one. -/
def invalidate (sc : Word) (page : Option Word) (d : BitVec 5) (s : State) : M Unit := do
  if 4 ≤ sc.toNat then statusM d 2
  else
    let p := fun (t : Tlb) => t.part == s.c.partNo && match page with
      | some va => t.serves s.c.partNo va.toNat
      | none => true
    let near := fun (va : Word) => match page with
      | some w => va.toNat / 2 ^ 30 == w.toNat / 2 ^ 30
      | none => true
    let t := s.dropTlb sc.toNat p
    if s.usesStale sc.toNat near then waitWith t
    else
      modify fun u => u.dropTlb sc.toNat p
      statusM d 0

/-- TLBINV (R358). -/
def execTlbinv (b a d : BitVec 5) (l : BitVec 3) (s : State) : Host.Outcome State Fault Refusal :=
  finish s do
    let r ← supIssue 1 0 b.toNat a.toNat d.toNat l [gR a, gR b]
    let va ← readG r a
    let sc ← readG r b
    invalidate sc (some va) d s
/-- TLBINVA (R358). -/
def execTlbinva (a d : BitVec 5) (l : BitVec 3) (s : State) : Host.Outcome State Fault Refusal :=
  finish s do
    let r ← supIssue 1 1 0 a.toNat d.toNat l [gR a]
    let sc ← readG r a
    invalidate sc none d s

/-- What PAGEQ writes for a translation (R359). -/
def State.pageWord (s : State) (part : Nat) : Except Nat Xlat → Word
  | .error why => BitVec.ofNat 64 why
  | .ok x =>
    if x.owner ≠ some part then 3
    else
      let far := s.remote x.pa
      BitVec.ofNat 64 (2 ^ 63 + (if far then 0x1FF else s.homeEave x.pa) * 2 ^ 54 + bitAt (!far && s.slotOfFrame (x.pa % 2 ^ 44 / 8192) != 0) 53
        + x.pa / 2 ^ 13 % 2 ^ 39 * 2 ^ 13 + x.lvl * 2 ^ 11 + bitAt x.wr 10 + bitAt x.hd 9 + x.kslot * 2 ^ 7)

/-- PAGEQ (R359). -/
def execPageq (a d : BitVec 5) (l : BitVec 3) (s : State) : Host.Outcome State Fault Refusal :=
  finish s do
    let r ← supIssue 1 3 0 a.toNat d.toNat l [gR a]
    let va ← readG r a
    let u ← get
    let x : Except Nat Xlat × State := if va.toNat / 2 ^ 56 ≠ 0 then (.error 1, u) else u.translate u.cur u.c.partNo va.toNat
    let busy : Bool := match x.1 with
      | .error 3 => true
      | _ => false
    waitUntil !busy
    set x.2
    writeVarG d (x.2.pageWord u.c.partNo x.1)
    retire 4

/-! ## XB and the actor map (R360, R363) -/

/-- The state with XB of core n at a bound; what is no longer code is zero with seal 0x00 (R360). -/
def State.setXb (s : State) (n b : Nat) : State :=
  s.upCore n fun c =>
    let old := c.m.xb.toNat
    { c with m := { c.m with xb := BitVec.ofNat 6 b, lm := if b < old then c.m.lm.zero (1024 * b) (1024 * (old - b)) else c.m.lm } }

/-- XBSET (R360). -/
def execXbset (a d : BitVec 5) (l : BitVec 3) (s : State) : Host.Outcome State Fault Refusal :=
  finish s do
    let r ← supIssue 1 2 0 a.toNat d.toNat l [gR a]
    let g ← readG r a
    let past : Bool := s.c.actors.any fun e => match e.2 with
      | some k => k.csr.lo.toNat < g.toNat
      | none => false
    if 64 ≤ g.toNat then statusM d 2
    else if s.c.m.xb.toNat < g.toNat && past then statusM d 1
    else
      modify fun u => u.setXb u.cur g.toNat
      statusM d 0

/-- Whether AMAPSET accepts its operands (R363). -/
def State.amapOk (s : State) (g e : Word) : Bool :=
  let cores := (s.part s.c.partNo).cores
  g.toNat / 2 ^ 24 == s.devNum.toNat && g.toNat / 16 % 2 ^ 20 != 0xFFFFF && e.toNat % 8 == 0 && amState e != 3
    && (amState e != 1 || cores.contains (amCore e) || cores.contains (1024 + amCore e))

/-- AMAPSET (R363). -/
def execAmapset (b a d : BitVec 5) (l : BitVec 3) (s : State) : Host.Outcome State Fault Refusal :=
  finish s do
    let r ← supIssue 1 4 b.toNat a.toNat d.toNat l [gR a, gR b]
    let g ← readG r a
    let e ← readG r b
    if s.amapOk g e then
      modify fun u => u.setAmap u.c.partNo (g.setWidth 32) e
      statusM d 0
    else statusM d 2

end Sys2Proof.Machine
end

