-- ==== Sys2Proof/Machine/Device.lean ====
section
/-!
DEFINITION. Bring-up, links, monitors and the ramp limiter (R397 to R404), partitions and their keys (R361, R362), the checkpoint and the
attestation report (R402, R405), and the two events of the instruction stream that name no instruction (R52, R55).
-/

namespace Sys2Proof.Machine

/-! ## Functions -/

/-- The cores that a function is: none for a link (R401). -/
def fnCores : Fn → List Nat
  | .core n => [n]
  | .eave n => [1024 + n]
  | .link _ => []
/-- Whether a function exists: 1,024 cores, 272 eave cores, 8 links (R7, R397). -/
def fnExists : Fn → Bool
  | .core n => n < 1024
  | .eave n => n < 272
  | .link n => n < 8

/-- POWER_ON (R400): the record is verified, and its parts are applied; one that fails holds the slates in reset, and the host is told.  Only a
ZL7400-M has module flash with a record (R1). -/
def execPowerOn (r : Fratre) (genuine : Bool) (s : State) : Host.Outcome State Fault Refusal :=
  runEvent s do
    need (Config.isModule && s.power.record.isNone && !s.power.bootFailed)
    if genuine then set { s with devNum := r.device, power := { s.power with record := some r, held := false } }
    else set ({ s with power := { s.power with bootFailed := true } }.tell .bootFailure)

/-- FUNCTION_READY (R401): a function that has passed its test sets its bit; an eave core of the capacity tier shows that the device has one
(R11, log 18).  A ZL7400-P, which has no record in module flash and no capacity tier, needs no record (R1, log 18). -/
def execFunctionReady (f : Fn) (s : State) : Host.Outcome State Fault Refusal :=
  runEvent s do
    let cap : Bool := match f with
      | .eave n => 64 ≤ n % 68
      | _ => false
    need ((if Config.isModule then s.power.record.isSome && !s.power.held else !cap) && fnExists f && !s.power.ready.contains f
      && !(fnCores f).any fun n => (s.core n).failed)
    set { s with power := { s.power with ready := s.power.ready ++ [f] }, hasCap := s.hasCap || cap }

/-! ## Freeing stages (R361, R401) -/

/-- The stages with a gang for which p holds. -/
def State.stagesOf (s : State) (p : Gang → Bool) : List Nat :=
  (s.dist.stages.filter fun t => s.dist.gangs.any fun g => g.stage == t.key && p g).map (·.key)

/-- The frames that a partition owns on this device (R356). -/
def State.framesOf (s : State) (part : Nat) : List Nat :=
  (s.home.frames.filter fun e => e.2.getLsbD 5 && e.2.toNat % 16 == part && !s.remote (8192 * e.1)).map (·.1)

/-- Whether the memory of a partition uses a function: an eave core that is the home of one of its frames, or a link that a route to a frame of
another device may take (R399, R401, log 44). -/
def State.memoryOn (s : State) (part : Nat) : Fn → Bool
  | .core _ => false
  | .eave n => (s.framesOf part).any fun f => s.homeEave (8192 * f) == n
  | .link l => s.home.frames.any fun e => e.2.getLsbD 5 && e.2.toNat % 16 == part && s.remote (8192 * e.1)
      && s.power.record.any fun r => (tget [] r.routes (devOf (8192 * e.1))).contains l

/-- Whether a gang has a member on one of the cores. -/
def State.gangOn (s : State) (ns : List Nat) (g : Gang) : Bool := (s.residents g).any fun p => ns.contains p.1

/-- The state with every member of a stage halted (R365). -/
def State.haltStage (s : State) (key : Nat) : State :=
  (s.dist.gangs.filter fun g => g.stage == key).foldl (fun u g => (u.residents g).foldl (fun u p => u.haltMember p.1 p.2 none) u) s

/-- Whether a member of a stage has still work to come before its stop is complete. -/
def State.stageMoving (s : State) (key : Nat) : Bool :=
  s.dist.gangs.any fun g => g.stage == key && (s.residents g).any fun p => s.memberBusy p.1 p.2

/-- The state without a stage: its gangs are freed and its messages discarded; the stage does not complete (R361, R401, log 44). -/
def State.dropStage (s : State) (key : Nat) : State :=
  let s1 := (s.dist.gangs.filter fun g => g.stage == key).foldl State.freeGang s
  { s1 with dist := { s1.dist with
      stages := s1.dist.stages.filter fun u => u.key != key
      hw := s1.dist.hw.filter fun m => m.kind != .first key } }

/-- The state with stages stopped, and those freed whose stop is complete. -/
def State.freeStages (s : State) (keys : List Nat) : State :=
  let s1 := keys.foldl State.haltStage s
  keys.foldl (fun u k => if u.stageMoving k then u else u.dropStage k) s1

/-- FUNCTION_FAILURE (R401): the bit is cleared, and the stages that use the function are stopped and freed; repeated while one is left. -/
def execFunctionFailure (f : Fn) (s : State) : Host.Outcome State Fault Refusal :=
  runEvent s do
    let keys := s.stagesOf fun g => s.gangOn (fnCores f) g || s.memoryOn g.part f
    need (s.power.ready.contains f || !keys.isEmpty)
    set ({ s with power := { s.power with ready := s.power.ready.filter (· != f) } }.freeStages keys)

/-! ## Links (R397 to R399) -/

/-- FLIT_RECEIVE (R397): a flit that fails its CRC is retried. -/
def execFlitReceive (link : Nat) (good : Bool) (s : State) : Host.Outcome State Fault Refusal :=
  runEvent s do
    need (s.power.ready.contains (.link link))
    let n := if good then 0 else tget 0 s.power.retries link + 1
    set { s with power := { s.power with retries := tset 0 s.power.retries link n } }

/-- LINK_FAILURE (R399): a link that fails its retry limit leaves the ready set. -/
def execLinkFailure (link : Nat) (s : State) : Host.Outcome State Fault Refusal :=
  runEvent s do
    need (s.power.ready.contains (.link link) && Config.linkRetryLimit < tget 0 s.power.retries link)
    set { s with power := { s.power with ready := s.power.ready.filter (· != Fn.link link), retries := tset 0 s.power.retries link 0 } }

/-! ## Monitors and the ramp limiter (R403, R404) -/

/-- The functions that a monitor watches: the cores of a cluster, named by any of them, or an eave core (R403, log 22). -/
def monitored : Fn → List Fn
  | .core n => (List.range 16).map fun i => .core (16 * clusterOf n + i)
  | .eave n => [.eave n]
  | .link _ => []
/-- The name under which a monitor's reading is kept. -/
def monitorName : Fn → Fn
  | .core n => .core (16 * clusterOf n)
  | f => f

/-- The gangs that use one of some functions, by a member there or by their memory (log 44), and have a member on a core. -/
def State.gangsOn (s : State) (fs : List Fn) : List Gang :=
  s.dist.gangs.filter fun g => !(s.residents g).isEmpty && (s.gangOn (fs.flatMap fnCores) g || fs.any (s.memoryOn g.part))

/-- MONITOR_SAMPLE (R403): the reading; from 105 degrees the function is throttled.  Once a reading has reached 115 the gangs that use the function are
stopped and, when their stop is complete, evicted to the images that the device manager names (log 22), and its bit is cleared. -/
def execMonitorSample (site : MonitorSite) (temp volt proc : Int) (s : State) : Host.Outcome State Fault Refusal :=
  runEvent s do
    let f := site.fn
    let images := site.images
    let fs := monitored f
    let ns := fs.flatMap fnCores
    let name := monitorName f
    let going := s.power.shut.contains name
    need (fnExists f && !fs.isEmpty && (s.time % 24000 == 0 || going))
    let rs := (name, temp, volt, proc) :: s.power.readings.filter fun r => r.1 != name
    let s1 := ns.foldl (fun u n => u.upCore n fun c => { c with throttled := 105 ≤ temp }) { s with power := { s.power with readings := rs } }
    if temp < 115 && !going then set s1
    else
      let gs := s1.gangsOn fs
      let s2 := gs.foldl (fun u g => (u.residents g).foldl (fun u p => u.haltMember p.1 p.2 none) u) s1
      let rest := s2.power.shut.filter (· != name)
      if gs.all fun g => images.any fun x => x.1 == g.id && s2.evictable g x.2 then
        let s3 := gs.foldl (fun u g => match images.find? (·.1 == g.id) with
          | some x => u.evictGang x
          | none => u) s2
        set { s3 with power := { s3.power with shut := rest, ready := s3.power.ready.filter fun g => !fs.contains g } }
      else set { s2 with power := { s2.power with shut := name :: rest } }

/-- RAMP_WINDOW_EXPIRY (R404): the busy count of the window that ends, at most its demand and 12.5 % of peak above the count before. -/
def execRampWindowExpiry (slate demand : Nat) (s : State) : Host.Outcome State Fault Refusal :=
  runEvent s do
    let r := tget (0, 0) s.power.ramp slate
    need (slate < 4 && demand ≤ 256 * 2400 && r.2 + 2400 ≤ s.time)
    let busy := min demand (r.1 + 256 * 2400 / 8)
    set { s with power := { s.power with ramp := tset (0, 0) s.power.ramp slate (busy, r.2 + 2400) } }

/-! ## Partitions (R361, R362) -/

/-- PARTITION_CREATE: FREE to KEYED, with key slot 0. -/
def execPartitionCreate (part : Nat) (s : State) : Host.Outcome State Fault Refusal :=
  runEvent s do
    need (part < 16 && (s.part part).st == .free)
    set (s.upPart part fun _ => { Partition.free with st := .keyed, keys := 1 })

/-- Whether a frame can be assigned (R11, R12, R356): one of HBM outside the reserved frames, or of the capacity tier, whose home takes part; or a
frame of another device, which that device's manager assigns (log 17). -/
def State.frameFree (s : State) (part f : Nat) : Bool :=
  let b := (tget 0 s.home.frames f).toNat
  let n := f % 2 ^ 31
  f < 2 ^ 39 && n < (if s.remote (8192 * f) || s.hasCap then 5 * 2 ^ 26 else 2 ^ 26)
    && (s.remote (8192 * f) || (!(s.power.record.any fun r => r.reserved.contains n) && s.served (1024 * f))) && (b / 32 % 2 == 0 || b % 16 == part)

/-- The state with a frame assigned to a partition; CLR stays as it stands (R362). -/
def State.assignFrame (s : State) (part f : Nat) : State :=
  let b := (tget 0 s.home.frames f).toNat
  { s with home := { s.home with
      frames := tset 0 s.home.frames f (BitVec.ofNat 8 (part + b / 16 % 2 * 16 + 32)), slots := tset 0 s.home.slots f 0 } }

/-- PARTITION_ACTIVATE: the device manager assigns cores, frames, PTB and a park area, and PTB is written into every core. -/
def execPartitionActivate (part : Nat) (p : PartSetup) (s : State) : Host.Outcome State Fault Refusal :=
  runEvent s do
    need ((s.part part).st == .keyed && part < 16 && p.cores.Nodup && p.frames.all (s.frameFree part))
    need (p.cores.all fun n => (n < 1024 || (1024 ≤ n && n < 1296)) && (s.core n).part.isNone)
    need (p.ptb.toNat % 64 == 0 && p.ptb.toNat / 2 ^ 52 == 0 && p.park.Nodup && p.park.all fun a => a % 8192 == 0 && p.frames.contains (a / 8192))
    let s1 := p.frames.foldl (fun u f => u.assignFrame part f) s
    let s2 := p.cores.foldl (fun u n => u.upCore n fun c => { c with part := some part }) s1
    set (s2.upPart part fun q => { q with
      st := .active, cores := p.cores, ptb := p.ptb, park := p.park, aging := p.aging, hbudget := p.hbudget, age := p.age, strict := p.strict
      ways := p.ways, shares := p.shares })

/-- The stages of a partition. -/
def State.partStages (s : State) (part : Nat) : List Nat := (s.dist.stages.filter fun t => t.part == part).map (·.key)

/-- PARTITION_FREE: ACTIVE to STOPPING; the distributor stops and frees every stage, repeated while one is left. -/
def execPartitionFree (part : Nat) (s : State) : Host.Outcome State Fault Refusal :=
  runEvent s do
    let keys := s.partStages part
    need ((s.part part).st == .active || ((s.part part).st == .stopping && !keys.isEmpty))
    set ((s.upPart part fun p => { p with st := .stopping }).freeStages keys)

/-- Whether an actor of a partition is resident on the device. -/
def State.hasActors (s : State) (part : Nat) : Bool := s.cores.any fun e => e.2.actors.any fun a => match a.2 with
  | some k => k.part == part
  | none => false

/-- The state with nothing of the given frames in any cache, and no translation of the partition cached (R357, R362, log 45). -/
def State.forgetFrames (s : State) (part : Nat) (fs : List Nat) : State :=
  let old := fun (t : Tab Line) => t.filter fun e => !fs.contains (e.1 / 1024)
  let tl := fun (l : List Tlb) => l.filter fun t => t.part != part
  { s with
    cores := s.cores.map fun e => (e.1, { e.2 with
      m := { e.2.m with cache := old e.2.m.cache, tlb := tl e.2.m.tlb }, streams := e.2.streams.map fun q => (q.1, { q.2 with tlb := tl q.2.tlb }) })
    dist := { s.dist with copies := s.dist.copies.map fun c => { c with tlb := tl c.tlb } }
    clusters := s.clusters.map fun e => (e.1, { e.2 with cache := old e.2.cache, tcache := tl e.2.tcache }) }

/-- PARTITION_ERASE: when the last actor is freed, the keys are discarded, every frame that the partition owns is cleared and unassigned, and its launch
queues are gone (R361, R394). -/
def execPartitionErase (part : Nat) (s : State) : Host.Outcome State Fault Refusal :=
  runEvent s do
    need ((s.part part).st == .stopping && (s.partStages part).isEmpty && !s.hasActors part)
    let mine := fun (b : Byte) => b.getLsbD 5 && b.toNat % 16 == part
    let fs := (s.home.frames.filter fun e => mine e.2).map (·.1)
    let s1 := s.forgetFrames part fs
    let s2 := { s1 with
      home := { s1.home with
        frames := s1.home.frames.map fun (e : Nat × Byte) => (e.1, if mine e.2 then (e.2 &&& 0x0F) ||| 0x10 else e.2)
        slots := s1.home.slots.filter fun (e : Nat × Nat) => !fs.contains e.1 }
      dist := { s1.dist with queues := s1.dist.queues.filter fun e => e.1 / 16 != part } }
    set (s2.upPart part fun p => { p with st := .erasing, keys := 0, dead := 0, since := s.time })

/-- ERASE_COMPLETE: the partition is FREE, and its cores belong to none. -/
def execEraseComplete (part : Nat) (s : State) : Host.Outcome State Fault Refusal :=
  runEvent s do
    need ((s.part part).st == .erasing)
    let s1 := (s.part part).cores.foldl (fun u n => u.upCore n fun c => { c with part := none }) s
    set (s1.upPart part fun _ => .free)

/-- KEY_SLOT_GENERATE: slots 1 to 3 are generated on request; a discarded slot stays so until ERASING (log 13). -/
def execKeySlotGenerate (part slot : Nat) (s : State) : Host.Outcome State Fault Refusal :=
  runEvent s do
    let p := s.part part
    need ((p.st == .keyed || p.st == .active) && 1 ≤ slot && slot < 4 && !p.keys.getLsbD slot && !p.dead.getLsbD slot)
    set (s.upPart part fun p => { p with keys := p.keys ||| (1 : BitVec 4) <<< slot })

/-- KEY_SLOT_DISCARD: every access through the slot completes as a memory error. -/
def execKeySlotDiscard (part slot : Nat) (s : State) : Host.Outcome State Fault Refusal :=
  runEvent s do
    let p := s.part part
    need (p.st == .active && slot < 4 && p.keys.getLsbD slot)
    set (s.upPart part fun p => { p with keys := p.keys &&& ~~~((1 : BitVec 4) <<< slot), dead := p.dead ||| (1 : BitVec 4) <<< slot })

/-- FRAME_ASSIGN (R362). -/
def execFrameAssign (frame part : Nat) (s : State) : Host.Outcome State Fault Refusal :=
  runEvent s do
    need ((s.part part).st == .active && s.frameFree part frame)
    set (s.assignFrame part frame)

/-! ## The checkpoint and the report (R402, R405) -/

/-- One frame as the checkpoint carries it under a key: its bytes and seals by their place in the frame; of a frame whose own key is discarded, free
data (R361, log 13). -/
def State.ckFrame (s : State) (key : BitVec 512) (f : Nat) : CkFrame :=
  if (tget 0 s.home.frames f).getLsbD 4 then ⟨f, key, true, [], []⟩
  else
    let m := if s.keyDead (1024 * f) then Mem.setGrans .empty (1024 * f) (s.homeGrans (1024 * f) 1024) else s.home.mem
    ⟨f, key, false, (trange m.bytes (8192 * f) (8192 * (f + 1))).map fun e => (e.1 - 8192 * f, e.2),
      (trange m.seals (1024 * f) (1024 * (f + 1))).map fun e => (e.1 - 1024 * f, e.2)⟩

/-- Whether an access to a frame waits for a locked line of it (R249). -/
def State.frameBusy (s : State) (f : Nat) : Bool := (List.range 32).any fun i => s.locked (1024 * f + 32 * i)

/-- CHECKPOINT_EXPORT: refused while a stage of the partition runs, that is, while one of its actors is resident; gangs are evicted before by EVICT
(R369). -/
def execCheckpointExport (req : CkRequest) (s : State) : Host.Outcome State Fault Refusal :=
  runEvent s do
    need ((s.part req.part).st == .active && !(s.framesOf req.part).any s.frameBusy)
    set (if s.hasActors req.part then s.tell .refusedExport else s.tell (.exported ((s.framesOf req.part).map (s.ckFrame req.key))))

/-- The state with a frame of a checkpoint written, decrypted with a key: with another than its own, the data are free (log 13).  Data through a
discarded slot is replaced, so the frame's slot is forgotten. -/
def State.putFrame (s : State) (key : BitVec 512) (k : CkFrame) : State :=
  let f := k.frame
  let m := s.home.mem.zero (1024 * f) 1024
  let b := tget 0 s.home.frames f
  let m1 := k.bytes.foldl (fun m e => m.setByte (8192 * f + e.1 % 8192) e.2) m
  let m2 := k.seals.foldl (fun m e => m.setSeal (1024 * f + e.1 % 1024) e.2) m1
  let free := m.setGrans (1024 * f) ((List.range 1024).map fun i => poisoned (Config.freeWord (i + 2 ^ 50 * s.draws)))
  { s with
    draws := if k.key = key then s.draws else s.draws + 1
    home := { s.home with
      mem := if k.cleared then m else if k.key = key then m2 else free
      frames := tset 0 s.home.frames f (if k.cleared then b ||| 0x10 else b &&& 0xEF), slots := tset 0 s.home.slots f 0 } }

/-- CHECKPOINT_IMPORT: the frames of a fresh partition are written as they were exported. -/
def execCheckpointImport (req : CkRequest) (frames : List CkFrame) (s : State) : Host.Outcome State Fault Refusal :=
  runEvent s do
    need ((s.part req.part).st == .active && (s.partStages req.part).isEmpty && !s.hasActors req.part
      && frames.all fun k => (s.framesOf req.part).contains k.frame && !s.frameBusy k.frame)
    set (frames.foldl (fun u k => u.putFrame req.key k) s)

/-- The code of a partition's state in the report, in the order of R361. -/
def PartState.code : PartState → Nat
  | .free => 0
  | .keyed => 1
  | .active => 2
  | .stopping => 3
  | .erasing => 4

/-- ATTESTATION_REPORT (R402). -/
def execAttestationReport (nonce : Word) (s : State) : Host.Outcome State Fault Refusal :=
  runEvent s do
    let r ← needSome s.power.record
    let states := (List.range 16).map fun n => (s.part n).st.code
    set ({ s with draws := s.draws + 1 }.tell (.attested r.digest Config.firmwareDigest states nonce (Config.signature s.draws)))

/-! ## The instruction stream -/

/-- ILLEGAL_ENCODING (R52, R59): a word, or a halfword, that decodes to no assigned form traps ILLEGAL; which of several failing fields of one cause
TINFO0 reports is open (log 10). -/
def execIllegalEncoding (e : DecodeError) (word : BitVec 32) (half : Bool) (s : State) : Host.Outcome State Fault Refusal :=
  let i := if e.vals.length ≤ 1 then 0 else Config.pickField s.draws % e.vals.length
  let w := if half then word.toNat % 2 ^ 16 else word.toNat
  .next (takeTrap { s with draws := s.draws + 1 } 0x01 (BitVec.ofNat 64 (e.vals.getD i 0)) (BitVec.ofNat 64 (w * 2 ^ 32 + e.cause.toNat)) s.x.pc)

/-- VARIABLE_LATENCY_RESULT (R55): a result that was computed at issue is written to its register, and its readers may go on. -/
def execVariableLatencyResult (core ctx id : Nat) (s : State) : Host.Outcome State Fault Refusal :=
  runEvent s do
    let v ← needSome (((s.core core).ctx ctx).varp.find? fun v => v.id == id)
    let r ← needSome v.res
    set (s.upCore core fun c => c.setCtx ctx ((c.ctx ctx).deliver id r))

end Sys2Proof.Machine
end

