-- ==== Sys2Proof/Machine/Scalar.lean ====
section
/-!
DEFINITION. Scalar arithmetic, immediates and constants: majors 0x01 to 0x07 (R61 to R66).
-/

namespace Sys2Proof.Machine

/-! ## The functions (R64, R65) -/

/-- 1 or 0. -/
def flag (b : Bool) : Word := if b then 1 else 0
/-- The smaller as signed numbers. -/
def minS (a b : Word) : Word := if a.slt b then a else b
/-- The larger as signed numbers. -/
def maxS (a b : Word) : Word := if b.slt a then a else b
/-- The smaller as unsigned numbers. -/
def minN (a b : Word) : Word := if a < b then a else b
/-- The larger as unsigned numbers. -/
def maxN (a b : Word) : Word := if b < a then a else b
/-- The shift amount b[5:0]. -/
def shamt (b : Word) : Nat := b.toNat % 64
/-- The number of leading zero bits among the n low bits. -/
def clzFrom (a : Word) : Nat → Nat
  | 0 => 0
  | n + 1 => if a.getLsbD n then 0 else 1 + clzFrom a n
/-- CLZ (R64). -/
def clz (a : Word) : Nat := clzFrom a 64
/-- The number of one bits among the n low bits. -/
def onesFrom (a : Word) : Nat → Nat
  | 0 => 0
  | n + 1 => (if a.getLsbD n then 1 else 0) + onesFrom a n
/-- POPC (R64). -/
def popc (a : Word) : Nat := onesFrom a 64
/-- MULH.S: bits 127:64 of the exact signed product. -/
def mulhS (a b : Word) : Word := BitVec.ofInt 64 ((a.toInt * b.toInt) / 2 ^ 64)
/-- MULH.N: bits 127:64 of the exact unsigned product. -/
def mulhN (a b : Word) : Word := BitVec.ofNat 64 ((a.toNat * b.toNat) / 2 ^ 64)
/-- DIV.S: rounds toward zero; all ones by zero. -/
def divS (a b : Word) : Word := if b = 0 then BitVec.allOnes 64 else BitVec.ofInt 64 (a.toInt.tdiv b.toInt)
/-- REM.S: the sign of the dividend; the dividend by zero. -/
def remS (a b : Word) : Word := if b = 0 then a else BitVec.ofInt 64 (a.toInt.tmod b.toInt)
/-- DIV.N. -/
def divN (a b : Word) : Word := if b = 0 then BitVec.allOnes 64 else BitVec.ofNat 64 (a.toNat / b.toNat)
/-- REM.N. -/
def remN (a b : Word) : Word := if b = 0 then a else BitVec.ofNat 64 (a.toNat % b.toNat)
/-- BFX: the field of width b[14:8] at b[5:0], sign-extended when b[15] is set (R64). -/
def bfx (a b : Word) : Word :=
  let pos := b.toNat % 64
  let wid := min (b.toNat / 256 % 128) 64
  let f := (a.toNat / 2 ^ pos) % 2 ^ wid
  if b.getLsbD 15 && 0 < wid && f.testBit (wid - 1) then BitVec.ofInt 64 ((f : Int) - 2 ^ wid) else BitVec.ofNat 64 f

/-! ## Shapes -/

/-- Reads g[A] and g[B], checks them in that order and writes a fixed-latency result (R61). -/
def alu2 (lat : Nat) (f : Word → Word → Word) (b a d : BitVec 5) (l : BitVec 3) (s : State) :
    Host.Outcome State Fault Refusal :=
  finish s do
    let r ← issue l.toNat false [gR a, gR b]
    let x ← readG r a
    let y ← readG r b
    writeG lat d (f x y)
    retire 4

/-- As alu2, and reads g[D] last (R61). -/
def alu3 (lat : Nat) (f : Word → Word → Word → Word) (b a d : BitVec 5) (l : BitVec 3) (s : State) :
    Host.Outcome State Fault Refusal :=
  finish s do
    let r ← issue l.toNat false [gR a, gR b, gR d]
    let x ← readG r a
    let y ← readG r b
    let z ← readG r d
    writeG lat d (f x y z)
    retire 4

/-- Reads g[A] and writes a fixed-latency result; len is 2 for a compact form (R53, R61). -/
def alu1 (len : Nat) (f : Word → Word) (a d : BitVec 5) (l : BitVec 3) (s : State) : Host.Outcome State Fault Refusal :=
  finish s do
    let r ← issue l.toNat (len == 2) [gR a]
    let x ← readG r a
    writeG 1 d (f x)
    retire len

/-- A division: reads as alu2, and the result comes later (R62). -/
def aluDiv (f : Word → Word → Word) (b a d : BitVec 5) (l : BitVec 3) (s : State) : Host.Outcome State Fault Refusal :=
  finish s do
    let r ← issue l.toNat false [gR a, gR b]
    let x ← readG r a
    let y ← readG r b
    writeLate (gR d) ((f x y).setWidth 1024) ((sealFn (f x y)).setWidth 128)
    retire 4

/-- The scalar move: value and seal of one register, without a check (R61). -/
def move (len : Nat) (a d : BitVec 5) (l : BitVec 3) (s : State) : Host.Outcome State Fault Refusal :=
  finish s do
    let r ← issue l.toNat (len == 2) [gR a]
    writeGs 1 d (r.gv a.toNat) (r.gsl a.toNat)
    retire len

/-- Writes a constant (R66). -/
def constG (len : Nat) (w : Word) (d : BitVec 5) (l : BitVec 3) (s : State) : Host.Outcome State Fault Refusal :=
  finish s do
    let _ ← issue l.toNat (len == 2) []
    writeG 1 d w
    retire len

/-! ## The instructions -/

/-- ADD (R64). -/
def execAdd (b a d : BitVec 5) (l : BitVec 3) (s : State) : Host.Outcome State Fault Refusal :=
  alu2 1 (fun x y => x + y) b a d l s
/-- SUB (R64). -/
def execSub (b a d : BitVec 5) (l : BitVec 3) (s : State) : Host.Outcome State Fault Refusal :=
  alu2 1 (fun x y => x - y) b a d l s
/-- AND (R64). -/
def execAnd (b a d : BitVec 5) (l : BitVec 3) (s : State) : Host.Outcome State Fault Refusal :=
  alu2 1 (fun x y => x &&& y) b a d l s
/-- OR, and the scalar move when A or B is g0: it copies value and seal without a check (R61). -/
def execOr (b a d : BitVec 5) (l : BitVec 3) (s : State) : Host.Outcome State Fault Refusal :=
  if b = 0 then move 4 a d l s else if a = 0 then move 4 b d l s else alu2 1 (fun x y => x ||| y) b a d l s
/-- XOR (R64). -/
def execXor (b a d : BitVec 5) (l : BitVec 3) (s : State) : Host.Outcome State Fault Refusal :=
  alu2 1 (fun x y => x ^^^ y) b a d l s
/-- ANDN (R64). -/
def execAndn (b a d : BitVec 5) (l : BitVec 3) (s : State) : Host.Outcome State Fault Refusal :=
  alu2 1 (fun x y => x &&& ~~~y) b a d l s
/-- SLL (R64). -/
def execSll (b a d : BitVec 5) (l : BitVec 3) (s : State) : Host.Outcome State Fault Refusal :=
  alu2 1 (fun x y => x <<< shamt y) b a d l s
/-- SRL (R64). -/
def execSrl (b a d : BitVec 5) (l : BitVec 3) (s : State) : Host.Outcome State Fault Refusal :=
  alu2 1 (fun x y => x >>> shamt y) b a d l s
/-- SRA (R64). -/
def execSra (b a d : BitVec 5) (l : BitVec 3) (s : State) : Host.Outcome State Fault Refusal :=
  alu2 1 (fun x y => x.sshiftRight (shamt y)) b a d l s
/-- ROR (R64). -/
def execRor (b a d : BitVec 5) (l : BitVec 3) (s : State) : Host.Outcome State Fault Refusal :=
  alu2 1 (fun x y => x.rotateRight (shamt y)) b a d l s
/-- MIN.S (R64). -/
def execMinS (b a d : BitVec 5) (l : BitVec 3) (s : State) : Host.Outcome State Fault Refusal :=
  alu2 1 (minS) b a d l s
/-- MAX.S (R64). -/
def execMaxS (b a d : BitVec 5) (l : BitVec 3) (s : State) : Host.Outcome State Fault Refusal :=
  alu2 1 (maxS) b a d l s
/-- MIN.N (R64). -/
def execMinN (b a d : BitVec 5) (l : BitVec 3) (s : State) : Host.Outcome State Fault Refusal :=
  alu2 1 (minN) b a d l s
/-- MAX.N (R64). -/
def execMaxN (b a d : BitVec 5) (l : BitVec 3) (s : State) : Host.Outcome State Fault Refusal :=
  alu2 1 (maxN) b a d l s
/-- MUL (R64). -/
def execMul (b a d : BitVec 5) (l : BitVec 3) (s : State) : Host.Outcome State Fault Refusal :=
  alu2 3 (fun x y => x * y) b a d l s
/-- MULH.S (R64). -/
def execMulhS (b a d : BitVec 5) (l : BitVec 3) (s : State) : Host.Outcome State Fault Refusal :=
  alu2 3 (mulhS) b a d l s
/-- MULH.N (R64). -/
def execMulhN (b a d : BitVec 5) (l : BitVec 3) (s : State) : Host.Outcome State Fault Refusal :=
  alu2 3 (mulhN) b a d l s
/-- SEQ (R64). -/
def execSeq (b a d : BitVec 5) (l : BitVec 3) (s : State) : Host.Outcome State Fault Refusal :=
  alu2 1 (fun x y => flag (x == y)) b a d l s
/-- SNE (R64). -/
def execSne (b a d : BitVec 5) (l : BitVec 3) (s : State) : Host.Outcome State Fault Refusal :=
  alu2 1 (fun x y => flag (x != y)) b a d l s
/-- SLT.S (R64). -/
def execSltS (b a d : BitVec 5) (l : BitVec 3) (s : State) : Host.Outcome State Fault Refusal :=
  alu2 1 (fun x y => flag (x.slt y)) b a d l s
/-- SLT.N (R64). -/
def execSltN (b a d : BitVec 5) (l : BitVec 3) (s : State) : Host.Outcome State Fault Refusal :=
  alu2 1 (fun x y => flag (x.ult y)) b a d l s
/-- SLE.S (R64). -/
def execSleS (b a d : BitVec 5) (l : BitVec 3) (s : State) : Host.Outcome State Fault Refusal :=
  alu2 1 (fun x y => flag (x.sle y)) b a d l s
/-- SLE.N (R64). -/
def execSleN (b a d : BitVec 5) (l : BitVec 3) (s : State) : Host.Outcome State Fault Refusal :=
  alu2 1 (fun x y => flag (x.ule y)) b a d l s
/-- BFX (R64). -/
def execBfx (b a d : BitVec 5) (l : BitVec 3) (s : State) : Host.Outcome State Fault Refusal :=
  alu2 1 (bfx) b a d l s
/-- CLZ (R64). -/
def execClz (a d : BitVec 5) (l : BitVec 3) (s : State) : Host.Outcome State Fault Refusal :=
  alu1 4 (fun x => BitVec.ofNat 64 (clz x)) a d l s
/-- POPC (R64). -/
def execPopc (a d : BitVec 5) (l : BitVec 3) (s : State) : Host.Outcome State Fault Refusal :=
  alu1 4 (fun x => BitVec.ofNat 64 (popc x)) a d l s
/-- DIV.S (R64). -/
def execDivS (b a d : BitVec 5) (l : BitVec 3) (s : State) : Host.Outcome State Fault Refusal :=
  aluDiv divS b a d l s
/-- DIV.N (R64). -/
def execDivN (b a d : BitVec 5) (l : BitVec 3) (s : State) : Host.Outcome State Fault Refusal :=
  aluDiv divN b a d l s
/-- REM.S (R64). -/
def execRemS (b a d : BitVec 5) (l : BitVec 3) (s : State) : Host.Outcome State Fault Refusal :=
  aluDiv remS b a d l s
/-- REM.N (R64). -/
def execRemN (b a d : BitVec 5) (l : BitVec 3) (s : State) : Host.Outcome State Fault Refusal :=
  aluDiv remN b a d l s
/-- MADD (R64). -/
def execMadd (b a d : BitVec 5) (l : BitVec 3) (s : State) : Host.Outcome State Fault Refusal :=
  alu3 3 (fun x y z => z + x * y) b a d l s
/-- CSEL: its condition is its destination (R64). -/
def execCsel (b a d : BitVec 5) (l : BitVec 3) (s : State) : Host.Outcome State Fault Refusal :=
  alu3 1 (fun x y z => if z ≠ 0 then x else y) b a d l s
/-- ADDI (R65). -/
def execAddi (i : BitVec 8) (a d : BitVec 5) (l : BitVec 3) (s : State) : Host.Outcome State Fault Refusal :=
  alu1 4 (fun x => x + i.signExtend 64) a d l s
/-- ANDI (R65). -/
def execAndi (i : BitVec 8) (a d : BitVec 5) (l : BitVec 3) (s : State) : Host.Outcome State Fault Refusal :=
  alu1 4 (fun x => x &&& i.signExtend 64) a d l s
/-- ORI (R65). -/
def execOri (i : BitVec 8) (a d : BitVec 5) (l : BitVec 3) (s : State) : Host.Outcome State Fault Refusal :=
  alu1 4 (fun x => x ||| i.signExtend 64) a d l s
/-- XORI (R65). -/
def execXori (i : BitVec 8) (a d : BitVec 5) (l : BitVec 3) (s : State) : Host.Outcome State Fault Refusal :=
  alu1 4 (fun x => x ^^^ i.signExtend 64) a d l s
/-- SLTI (R65). -/
def execSlti (i : BitVec 8) (a d : BitVec 5) (l : BitVec 3) (s : State) : Host.Outcome State Fault Refusal :=
  alu1 4 (fun x => flag (x.slt (i.signExtend 64))) a d l s
/-- SLLI (R65). -/
def execSlli (i : BitVec 6) (a d : BitVec 5) (l : BitVec 3) (s : State) : Host.Outcome State Fault Refusal :=
  alu1 4 (fun x => x <<< i.toNat) a d l s
/-- SRLI (R65). -/
def execSrli (i : BitVec 6) (a d : BitVec 5) (l : BitVec 3) (s : State) : Host.Outcome State Fault Refusal :=
  alu1 4 (fun x => x >>> i.toNat) a d l s
/-- SRAI (R65). -/
def execSrai (i : BitVec 6) (a d : BitVec 5) (l : BitVec 3) (s : State) : Host.Outcome State Fault Refusal :=
  alu1 4 (fun x => x.sshiftRight i.toNat) a d l s
/-- LI (R66). -/
def execLi (i : BitVec 16) (d : BitVec 5) (l : BitVec 3) (s : State) : Host.Outcome State Fault Refusal := constG 4 (i.signExtend 64) d l s
/-- LSH: reads D, shifts it by 16 and ORs the constant (R66). -/
def execLsh (i : BitVec 16) (d : BitVec 5) (l : BitVec 3) (s : State) : Host.Outcome State Fault Refusal :=
  alu1 4 (fun x => x <<< 16 ||| i.setWidth 64) d d l s
/-- C.MOV: the move of OR gd, ga, g0 (R53). -/
def execCMov (a d : BitVec 5) (s : State) : Host.Outcome State Fault Refusal := move 2 a d 0 s
/-- C.ADDI (R53). -/
def execCAddi (i d : BitVec 5) (s : State) : Host.Outcome State Fault Refusal := alu1 2 (fun x => x + i.signExtend 64) d d 0 s
/-- C.LI (R53). -/
def execCLi (i d : BitVec 5) (s : State) : Host.Outcome State Fault Refusal := constG 2 (i.signExtend 64) d 0 s

end Sys2Proof.Machine
end

