-- ==== Sys2Proof/Machine/StreamEvents.lean ====
section
/-!
DEFINITION. The events of streams: elements, row operations of an NBU, moves, patches and acknowledgements (R131, R132, R146 to R161).
-/

namespace Sys2Proof.Machine

/-- The slot of a core that binds slot k, if one runs or is halted (R138). -/
def Core.binder (c : Core) (k : Nat) : Option Nat :=
  (List.range 16).find? fun j => ((c.stream j).ph == .running || (c.stream j).ph == .halted) && (c.stream j).boundSlots.contains k

/-- Whether a stream still reads or performs element e: running, or halted at a later element (R141, R161). -/
def Stream.live (t : Stream) (e : Nat) : Bool := t.ph == .running || (t.ph == .halted && match t.halt with
  | some h => e < h
  | none => false)

/-- The first element of a binding stream that needs an index not yet read (R161). -/
def Stream.needs (t : Stream) : Nat := t.f + t.d.per * (t.idx.filter (·.isSome)).length - t.within

/-- The state with slot k of core n halted at element e (R161). -/
def State.haltSlot (s : State) (n k e : Nat) : State := s.upStream n k fun t => { t with ph := .halted, halt := some e, half := none }

/-- The state with slot k halted at element e, with the streams that bind it (R161). -/
def State.haltChain (s : State) (n k e : Nat) : State :=
  let s1 := s.haltSlot n k e
  match (s.core n).binder k with
  | none => s1
  | some j =>
    let t := (s.core n).stream j
    let h := if t.d.indir && t.d.ixs.toNat == k then t.needs else e
    let s2 := s1.haltSlot n j h
    match (s.core n).binder j with
    | none => s2
    | some i => s2.haltSlot n i (if ((s.core n).stream i).d.indir && ((s.core n).stream i).d.ixs.toNat == j then
        ((s.core n).stream i).needs else h)

/-- The core number that reports for a stream: the eave core at which it runs, else its core (R286). -/
def Stream.reporter (t : Stream) (n : Nat) : Nat := if t.loc = 2 || t.loc = 3 then 1024 + t.locId else n

/-- The state with slot k halted at an element and STREAMFAULT on its way (R161): kind 1 TRANSLATE, 2 PERMIT, 3 memory error. -/
def State.elemFault (s : State) (n k kind e : Nat) (va : Word) (home : Nat) : State :=
  let s1 := s.haltChain n k e
  match (s.core n).slotOwner k with
  | none => s1
  | some (_, a) => s1.sendHw .fault a.part (mb7 a.addr) 0xFFF1 0 0
      (sealed [BitVec.ofNat 64 (k + kind * 256 + ((s.core n).stream k).loc.toNat * 4096), BitVec.ofNat 64 e, va,
        BitVec.ofNat 64 (if kind = 3 then home else 0)]) 0

/-- The translation of va that slot k of core n carries, or has the cluster's walkers find and then carries (R154, R357). -/
def State.streamXlat (s : State) (n k part va : Nat) : Except Nat Xlat × State :=
  match ((s.core n).stream k).tlb.find? (·.serves part va) with
  | some t => (.ok (t.xlat va), s.noteSlot part (t.xlat va))
  | none => match s.walkers n part va with
    | (.error e, u) => (.error e, u)
    | (.ok t, u) => (.ok (t.xlat va), (u.upStream n k fun x => { x with tlb := t :: x.tlb }).noteSlot part (t.xlat va))

/-- Translates an element's address of slot k for the core's partition, with the checks of R161: why it halts, with the home of a memory error, which
a home that takes no part gives (R12, R399); remote frames are checked where they are (log 17).  None while the walk waits for a locked line. -/
def State.place (s : State) (n k : Nat) (va : Word) (write : Bool) : Option (Except (Nat × Nat) Xlat × State) :=
  let part := (s.core n).partNo
  if va.toNat / 2 ^ 56 ≠ 0 then some (.error (1, 0), s)
  else match s.streamXlat n k part va.toNat with
    | (.error 3, _) => none
    | (.error _, _) => some (.error (1, 0), s)
    | (.ok x, u) =>
      if x.owner ≠ some part || (write && !x.wr) then some (.error (2, 0), s)
      else if s.denied part x.pa || u.lostAt (x.pa / 8) then some (.error (3, s.homeEave x.pa), s)
      else some (.ok x, u)

/-- Whether a stream may perform an element where it is (R152): on another device only from the core, at a bank only lines of the bank (R84) that are not
home-direct, at an eave core or NBU only lines whose home it is. -/
def State.placed (s : State) (t : Stream) (x : Xlat) : Bool :=
  match t.loc.toNat with
  | 0 => true
  | 1 => !s.remote x.pa && !x.hd && bankOf (x.pa / 8) == t.locId
  | _ => !s.remote x.pa && s.homeEave x.pa == t.locId

/-- A granule with bits of a source element put in at bit p (R23, R44): the new granule, its seal, and the syndrome when a check failed;
y0 is what the source's check gave.  An element of 64 bits leaves nothing of the old granule, which is then not checked. -/
def bitMerge (old : Word × Byte) (y0 : Byte) (p w v : Nat) : Word × Byte × Byte :=
  let y := if y0 ≠ 0 then y0 else if w = 64 then 0 else syn old.1 old.2
  let m : Word := BitVec.ofNat 64 (2 ^ w - 1) <<< p
  let x := (old.1 &&& ~~~m) ||| (BitVec.ofNat 64 v <<< p &&& m)
  (x, if y = 0 then sealFn x else sealFn x ^^^ 0xA5, y)

/-- The lowest bit of an element in its granule (R23). -/
def bitOf (va : Word) (nib : Nat) : Nat := 8 * (va.toNat % 8) + 4 * nib

/-- The state with one granule written by a stream, whose copies at the core and its cluster are gone (dropCopies): a failed check sends SEALFAULT, which the
home's eave core reports for a merge at home (unit 1) and the place where the stream runs for its arithmetic (R154, R161, R286). -/
def State.streamPut (s : State) (n k unit : Nat) (va : Word) (gr : Nat) (r : Word × Byte × Byte) : State :=
  let s1 := s.homePut gr r.1 r.2.1
  if r.2.2 = 0 then s1 else match (s.core n).slotOwner k with
    | some (_, a) => s1.sealFault a.part a.addr unit (if unit = 1 then 1024 + s.homeEave (8 * gr) else ((s.core n).stream k).reporter n) r.2.2 va 0
    | none => s1

/-- The state with the frontier of slot k moved on by m elements; at the core the record follows at once (R146). -/
def State.passElems (s : State) (n k m : Nat) : State :=
  s.progress n k fun t =>
    let t1 := t.advance m
    if t.loc = 0 then { t1 with frec := t1.f } else t1

/-- The elements of a range that element e starts or continues, when it is passed over (R145). -/
def Stream.skipLeft (t : Stream) (e : Nat) : Nat := match t.skips.find? fun r => r.1 ≤ e && e < r.1 + r.2 with
  | some r => r.1 + r.2 - e
  | none => 0

/-- One index position for an indirect stream: null when it is passed over, else the next value of the index stream (R131, R145); positions
that are then complete count (R132). -/
def State.pullIndex (s : State) (n k : Nat) : M Unit := do
  let t := (s.core n).stream k
  let j := t.d.ixs.toNat
  let ix := (s.core n).stream j
  let p := t.ixpos + t.idx.length
  need (t.d.indir && (match (s.core n).total ix with
    | some m => p < m
    | none => true))
  let take := fun (u : State) (x : Option Word) => u.progress n k fun t => ({ t with idx := t.idx ++ [x] } : Stream).advance 0
  if ix.skipped p || (ix.d.dir == .src && p < ix.f) then set (take s none)
  else
    let e ← needSome (ix.buf.find? (·.e == p))
    let s1 := take (s.progress n j fun ix =>
      let b := { ix with buf := ix.buf.filter (·.e != p) }
      if ix.d.dir == .src then { b.advance (p + 1 - b.f) with frec := p + 1 } else b) (ix.indexValue e)
    let y := syn e.gr e.sl
    set (if y = 0 then s1 else match (s.core n).slotOwner j with
      | some (_, a) => s1.sealFault a.part a.addr 3 (t.reporter n) y (if ix.d.dir == .idx then 0 else e.va) 0
      | none => s1)

/-- Whether an element of slot k that cannot be read is needed now, so that its fault counts: a stream that reads ahead for another
takes the fault when the other needs the element (R161). -/
def Core.wantsNow (c : Core) (k : Nat) : Bool :=
  match c.binder k with
  | none => true
  | some j =>
    let t := c.stream j
    !(t.d.indir && t.d.ixs.toNat == k)
      || ((c.stream k).buf.isEmpty && (if t.d.dir == .src then t.needs ≤ t.read else t.needs ≤ t.f))

/-- A source stream reads its next element at home, as the stores on their way leave it (R141, R157). -/
def State.readElem (s : State) (n k : Nat) (err : Bool) : M Unit := do
  let t := (s.core n).stream k
  let e := t.read
  let q ← needSome (t.addr e)
  need (t.live e && (match (s.core n).total t with
    | some m => e < m
    | none => true))
  match ← needSome (s.place n k q.1 false) with
  | (.error why, u) =>
    need ((s.core n).wantsNow k && !err)
    set (u.elemFault n k why.1 e q.1 why.2)
  | (.ok x, u) =>
    need (s.placed t x && !s.locked (x.pa / 8))
    if err then
      need ((s.core n).wantsNow k)
      set (u.elemFault n k 3 e q.1 (s.homeEave x.pa))
    else
      let o := overlayPatches (x.pa / 8) (u.homeGran (x.pa / 8)) (s.core n).m.patches
      let g := o.1
      let u1 := o.2.foldl (fun v f => v.patchFaults n f.1 [f.2]) (u.visit (x.pa / 8))
      set (u1.upStream n k fun t =>
        { t with read := e + 1, buf := t.buf ++ [⟨e, BitVec.ofNat 64 q.2, g.1, g.2.1, q.1, g.2.2⟩] })

/-- How many held elements of a drain make one whole aligned granule that is one pair of a pushed register (R143). -/
def Stream.moveRun (t : Stream) : Nat :=
  let w := t.d.bits
  let per := 64 / w
  let es := t.buf.take per
  let h := es.headD ⟨0, 0, 0, 0, 0, false⟩
  let base := (t.addr t.f).getD (1, 0)
  let ok := es.length == per && t.d.op = 0 && base.1.toNat % 8 == 0 && base.2 == 0 && es.zipIdx.all fun (e, i) =>
    e.e == t.f + i && e.gr == h.gr && e.sl == h.sl && e.va == h.va && e.val.toNat == h.gr.toNat / 2 ^ (w * i) % 2 ^ w && (match t.addr (t.f + i) with
      | some q => bitOf q.1 q.2 == w * i && q.1.toNat / 8 == base.1.toNat / 8
      | none => false)
  if ok then per else 0

/-- A drain performs its next element at home, or the elements of one whole granule as a move (R143, R154). -/
def State.drainElem (s : State) (n k : Nat) (err : Bool) : M Unit := do
  let t := (s.core n).stream k
  need (t.ph == .running)
  if t.skipLeft t.f ≠ 0 then
    need !err
    set (s.passElems n k (t.skipLeft t.f))
  else
    let e ← needSome (t.buf.find? (·.e == t.f))
    let q ← needSome (t.addr t.f)
    match ← needSome (s.place n k q.1 true) with
    | (.error why, u) =>
      need !err
      set (u.elemFault n k why.1 t.f q.1 why.2)
    | (.ok x, u) =>
      let gr := x.pa / 8
      need (s.placed t x && !s.locked gr)
      if err then set (u.elemFault n k 3 t.f q.1 (s.homeEave x.pa))
      else
        let run := t.moveRun
        let u := u.dropCopies n [gr]
        if run ≠ 0 then
          let s1 := ((u.visit gr).streamPut n k 1 q.1 gr (e.gr, e.sl, 0)).noteWrites n [gr]
          set ((s1.upStream n k fun t => { t with buf := t.buf.drop run }).passElems n k run)
        else
          let v := t.d.drain e.val.toNat
          let r := bitMerge (u.homeGran gr) (syn e.gr e.sl) (bitOf q.1 q.2) t.d.bits v.1
          let s1 := ((u.visit gr).streamPut n k 1 q.1 gr r).noteWrites n [gr]
          set ((s1.upStream n k fun t => { t with buf := t.buf.drop 1, flags := t.flags ||| v.2 }).passElems n k 1)

/-- Whether a store issued while element e was not granted is still on its way, so that e waits for it, or one that has reached the stream is not yet
performed whole (R158). -/
def Core.patchAhead (c : Core) (k e : Nat) : Bool := c.m.patches.any fun p => p.slots.any fun q => q.1 == k && (p.begun || q.2 ≤ e)

/-- The element of a second operand stream that goes with the next element of slot k (R133): its address and nibble. -/
def Core.second (c : Core) (t : Stream) : Option (Word × Nat) :=
  let u := c.stream t.d.slv.toNat
  if u.ph == .running then u.addr u.f else none

/-- The state with the frontier of update slot k moved on by m elements, and that of its second operand stream with it (R133). -/
def State.passBoth (s : State) (n k m : Nat) : State :=
  let t := (s.core n).stream k
  (if t.d.op = 8 then s.passElems n t.d.slv.toNat m else s).passElems n k m

/-- Whether the second stream's element that goes with the next element of an update stream may be accessed where that runs (R152): from the core any, else
none on another device, and at a bank none that is home-direct.  One that cannot be accessed at all may be tried, and halts (R161). -/
def State.secondPlaced (s : State) (n : Nat) (t : Stream) : Bool :=
  t.loc = 0 || match (s.core n).second t with
    | none => false
    | some q => match s.place n t.d.slv.toNat q.1 false with
      | some (.ok x, _) => !s.remote x.pa && (t.loc ≠ 1 || !x.hd)
      | some (.error _, _) => true
      | none => false

/-- An update stream reads its next element, or passes over skipped ones; under SUMR the element is then done (R132, R133, R145, R159). -/
def State.updateRead (s : State) (n k : Nat) (err : Bool) : M Unit := do
  let t := (s.core n).slot k
  need (t.ph == .running && t.f < t.g)
  if t.skipLeft t.f ≠ 0 then
    need !err
    set (s.passBoth n k (min (t.skipLeft t.f) (t.g - t.f)))
  else
    need (!(s.core n).patchAhead k t.f && (t.d.op != 8 || s.secondPlaced n t))
    let q ← needSome (t.addr t.f)
    match ← needSome (s.place n k q.1 (t.d.op != 7)) with
    | (.error why, u) =>
      need !err
      set (u.elemFault n k why.1 t.f q.1 why.2)
    | (.ok x, u) =>
      let gr := x.pa / 8
      need (s.placed t x && !s.locked gr)
      let old := u.homeGran gr
      let v := rawElem t.d old.1 q.1 q.2
      let y := syn old.1 old.2
      if err then set (u.elemFault n k 3 t.f q.1 (s.homeEave x.pa))
      else if t.d.op = 7 then
        let r := t.d.sum t.acc v
        let s1 := (u.visit gr).upStream n k fun t => { t with acc := r.1, flags := t.flags ||| r.2 }
        let s2 := if y = 0 then s1 else match (s.core n).slotOwner k with
          | some (_, a) => s1.sealFault a.part a.addr 3 (t.reporter n) y q.1 0
          | none => s1
        set (s2.passBoth n k 1)
      else set ((u.visit gr).upStream n k fun t => { t with half := some ⟨v, y, gr, q.1, q.2, none⟩ })

/-- The second stream's element that goes with a half-done element of slot k is read, as the stores on their way leave it (R133, R157). -/
def State.updateSecond (s : State) (n k : Nat) (h : Half) (err : Bool) : M Unit := do
  let t := (s.core n).stream k
  let j := t.d.slv.toNat
  let e := ((s.core n).stream j).f
  let q ← needSome ((s.core n).second t)
  match ← needSome (s.place n j q.1 false) with
  | (.error why, u) =>
    need !err
    set (u.elemFault n j why.1 e q.1 why.2)
  | (.ok x, u) =>
    let gr := x.pa / 8
    need (!s.locked gr)
    if err then set (u.elemFault n j 3 e q.1 (s.homeEave x.pa))
    else
      let o := overlayPatches gr (u.homeGran gr) (s.core n).m.patches
      let u1 := o.2.foldl (fun v f => v.patchFaults n f.1 [f.2]) (u.visit gr)
      let h' := { h with second := some (rawElem ((s.core n).stream j).d o.1.1 q.1 q.2, syn o.1.1 o.1.2.1) }
      set (u1.upStream n k fun t => { t with half := some h' })

/-- The result of a half-done element is written at home (R133, R159, R247). -/
def State.updateWrite (s : State) (n k : Nat) (h : Half) (y2 : Nat × Byte) (err : Bool) : M Unit := do
  let t := (s.core n).stream k
  need (!s.locked h.gr)
  if err then set (s.elemFault n k 3 t.f h.va (s.homeEave (8 * h.gr)))
  else
    let a := t.d.apply h.v y2.1
    let s := s.dropCopies n [h.gr]
    let r := bitMerge (s.homeGran h.gr) (if h.y ≠ 0 then h.y else y2.2) (bitOf h.va h.nib) t.d.bits a.1
    let s1 := (s.streamPut n k 3 h.va h.gr r).upStream n k fun t => { t with flags := t.flags ||| a.2, half := none }
    set (s1.passBoth n k 1)

/-- One access of an update stream: it reads its next element, reads the second stream's, or writes the result (R132, R133, R159, R247); err is a memory
error at that access. -/
def State.updateElem (s : State) (n k : Nat) (err : Bool) : M Unit :=
  let t := (s.core n).stream k
  match t.half with
  | none => s.updateRead n k err
  | some h =>
    if t.d.op = 8 then match h.second with
      | none => s.updateSecond n k h err
      | some y => s.updateWrite n k h y err
    else s.updateWrite n k h (0, 0) err

/-- One element of slot k, or one index position that its next element awaits (R131, R159). -/
def State.element (s : State) (n k : Nat) (err : Bool) : M Unit := do
  let t := (s.core n).stream k
  need ((t.ph == .running || t.ph == .halted) && ((s.core n).slotOwner k).isSome)
  let e := if t.d.dir == .src then t.read else t.f
  let second := match (s.core n).binder k with
    | some j => ((s.core n).stream j).d.op == 8 && ((s.core n).stream j).d.slv.toNat == k
    | none => false
  if t.d.indir && (t.addr (if second then t.f else e)).isNone && t.skipLeft e = 0 then
    need (!err && t.live e)
    s.pullIndex n k
  else
    need !second
    match t.d.dir with
    | .src => s.readElem n k err
    | .drn => s.drainElem n k err
    | .upd => s.updateElem n k err
    | .idx => need false

/-- The physical addresses of the elements from lo to hi - 1 of affine slot k; none when one does not translate, or may not be accessed so. -/
def State.elemAddrs (s : State) (n k : Nat) (write : Bool) (lo hi : Nat) : Option (List Nat) :=
  let t := (s.core n).stream k
  (List.range (hi - lo)).mapM fun i => match s.place n k (t.d.addr t.d.base (lo + i)).1 write with
    | some (.ok x, _) => some x.pa
    | _ => none

/-- Whether update slot k may sink into the NBU of the channel of eave core loc: conditions 1 to 5 of R153; the budget of condition 6 is
the choice of the event. -/
def State.nbuOk (s : State) (n k loc : Nat) : Bool :=
  let t := (s.core n).slot k
  let op := t.d.op.toNat
  let w := t.d.bits
  let j := t.d.slv.toNat
  let u := (s.core n).stream j
  t.pin = 0 && !t.d.indir && t.d.dir == .upd && (op = 1 || op = 2 || op = 3 || op = 5 || op = 6 || op = 8)
    && (w == 8 || w == 16 || w == 32) && (t.d.str 0).toNat == w / 8 && loc % 68 < 64
    && match s.elemAddrs n k true t.f t.g with
      | none => false
      | some l => l.all (fun pa => !s.remote pa && s.homeEave pa == loc)
        && (op ≠ 8 || (!u.d.indir && match s.elemAddrs n j false u.f (u.f + (t.g - t.f)) with
              | none => false
              | some l2 => (l.zip l2).all fun (a, b) => b == a ^^^ 0x202000))

/-- STREAM_ELEMENT: a running stream reads, or computes and writes, one element at its location (R159); one in an NBU only where R153 still lets it be
there; err is an uncorrectable error. -/
def execStreamElement (core slot : Nat) (err : Bool) (s : State) : Host.Outcome State Fault Refusal :=
  runEvent s do
    let t := (s.core core).stream slot
    need (t.loc != 3 || t.half.isSome || s.nbuOk core slot t.locId)
    s.element core slot err

/-- One whole element of an update stream: its accesses one after the other. -/
def State.wholeElem (s : State) (core slot : Nat) : Nat → M Unit
  | 0 => set s
  | n + 1 => do
    s.updateElem core slot false
    let u ← get
    if ((u.core core).stream slot).half.isSome then State.wholeElem u core slot n

/-- n elements of an update stream, one after the other (R158). -/
def State.elements (s : State) (core slot : Nat) : Nat → M Unit
  | 0 => set s
  | n + 1 => do
    let t := (s.core core).stream slot
    need (t.ph == .running)
    s.wholeElem core slot 3
    let u ← get
    State.elements u core slot n

/-- NBU_ROW_OPERATION: the elements that one row operation covers, as one step (R153, R158). -/
def execNbuRowOperation (core slot n : Nat) (s : State) : Host.Outcome State Fault Refusal :=
  runEvent s do
    let t := (s.core core).stream slot
    need (t.loc = 3 && t.half.isNone && 0 < n && t.f + n ≤ t.g && s.nbuOk core slot t.locId)
    s.elements core slot n

/-- The reason code of a move and the events that it raises, in order (R147, R155): 0 FLOAT, 1 HOP, 2 SINK, 3 RECALL. -/
def moveKind (old new : BitVec 2) : BitVec 2 × List (BitVec 3) :=
  match old.toNat, new.toNat with
  | _, 0 => (3, [4])
  | 0, 1 => (0, [1])
  | 0, _ => (2, [1, 2])
  | 1, 2 => (2, [2])
  | 2, 3 => (2, [2])
  | 3, 2 => (2, [2])
  | _, _ => (1, [])

/-- STREAM_MOVE: a running stream, with the bound streams that run where it runs, changes its location (R147, R152, R153, R155). -/
def execStreamMove (core slot : Nat) (loc : BitVec 2) (locId : Nat) (s : State) : Host.Outcome State Fault Refusal :=
  runEvent s do
    let t := (s.core core).stream slot
    need (t.ph == .running && t.d.dir != .idx && (s.core core).root slot == slot && ((s.core core).slotOwner slot).isSome)
    need (((s.core core).along slot).all (fun j => pinAllows ((s.core core).stream j).pin loc && ((s.core core).stream j).half.isNone)
      && !(t.loc == loc && t.locId == locId))
    let next := if t.d.dir == .src then t.addr t.read else t.addr t.f
    let place := next.bind fun q => s.place core slot q.1 (t.d.dir != .src && t.d.op != 7)
    let here := match place with
      | some (.ok x, _) => fun (l : BitVec 2) => s.placed { t with loc := l, locId := locId } x
      | _ => fun l => l == 0
    need (match loc.toNat with
      | 0 => locId == coreNumber core && t.loc != 0 && (s.core core).recallable slot
      | 1 => locId < 16 && t.loc != 3 && !isEave core && here 1
      | 2 => t.loc != 3 || t.locId == locId
      | _ => t.loc = 2 && t.locId == locId && s.nbuOk core slot locId)
    need (t.d.op != 8 || s.secondPlaced core { t with loc := loc })
    need (loc.toNat < 2 || here loc || (loc = 2 && t.loc = 3))
    let kind := moveKind t.loc loc
    set (((s.core core).along slot).foldl (fun u j =>
      let u1 := u.moveStream core j loc locId kind.1 (kind.2.headD 0)
      (kind.2.drop 1).foldl (fun v ev => v.streamEvent core j ev) u1) s)

/-- Whether a patch waits: for an earlier access of its context to one of its granules (R95), for an earlier patch, or for an element of one of its
streams that has been read and not written (R157). -/
def Core.patchBehind (c : Core) (p : Patch) : Bool :=
  let grs := p.st.writes.map (·.gr)
  c.earlier (some p.id) p.st.ctx p.st.direct grs
    || (c.m.patches.any fun o => o.id < p.id && (o.st.touches grs || o.slots.any fun a => p.slots.any fun b => a.1 == b.1))
    || p.slots.any fun q => (c.stream q.1).half.isSome

/-- The core with granule i of the store of patch id performed: the patch has reached its streams, and is gone with the last granule. -/
def Core.patchDone (c : Core) (id i : Nat) : Core :=
  { c with m := { c.m with patches := c.m.patches.filterMap fun p =>
      if p.id = id then (if p.st.writes.length ≤ 1 then none
        else some { p with begun := true, st := { p.st with writes := p.st.writes.eraseIdx i } }) else some p } }

/-- STREAM_PATCH_ARRIVAL: a store routed to streams reaches them and is performed at home, a granule at each event, in an order that Config names
(R237); where it arrives among the elements of an update stream decides what it passed (R156 to R158).  Copies go that were filled since its
issue, and stores still in the caches are written back before it (R95, R244, R245). -/
def execStreamPatchArrival (core id : Nat) (s : State) : Host.Outcome State Fault Refusal :=
  runEvent s do
    let c := s.core core
    let p ← needSome (c.m.patches.find? (·.id == id))
    let i := Config.victim s.draws % p.st.writes.length
    let w ← needSome p.st.writes[i]?
    need (!c.patchBehind p && !s.locked w.gr)
    let s1 := (s.upCore core fun c => c.patchDone id i).dropCopies core [w.gr]
    let s2 := if s1.denied p.st.part (8 * w.gr) then s1 else (s1.visit w.gr).homeMerge w p.st.part p.st.addr p.st.va
    set { s2 with draws := s2.draws + 1 }

/-- FRONTIER_ACK: an acknowledgement brings the core's record of the frontier one element closer (R146, log 24). -/
def execFrontierAck (core slot : Nat) (s : State) : Host.Outcome State Fault Refusal :=
  runEvent s do
    let t := (s.core core).stream slot
    need (t.frec < t.f)
    set (s.upStream core slot fun t => { t with frec := t.frec + 1 })

end Sys2Proof.Machine
end

