-- ==== Sys2Proof/Machine/Vector.lean ====
section
/-!
DEFINITION. Vector instructions: majors 0x10 to 0x18 (R103 to R127).  A plan says what every lane of the destination gets; the seal rule of
R107 is written once, over plans.
-/

namespace Sys2Proof.Machine

/-- What one lane of a destination gets: its old value, zero by zeroing, a computed value, or an unchanged copy of a lane of
v[A] (false) or v[B] (true) (R107). -/
inductive LaneW where
  | keep
  | zero
  | res (w : BitVec 32)
  | copy (b : Bool) (lane : Nat)
  deriving DecidableEq, Repr

/-- The vector operands of an instruction: v[A], v[B] and the old v[D], each with its seals. -/
structure VSrc where
  a : Vec
  as : VSeals
  b : Vec
  bs : VSeals
  d : Vec
  ds : VSeals
  deriving DecidableEq, Repr

/-- The vector operands as an instruction reads them. -/
def Regs.src (r : Regs) (a b d : Nat) : VSrc := ⟨r.vv a, r.vsl a, r.vv b, r.vsl b, r.vv d, r.vsl d⟩

/-- The value of lane i of the destination. -/
def LaneW.val (o : VSrc) (i : Nat) : LaneW → BitVec 32
  | .keep => lane o.d i
  | .zero => 0
  | .res w => w
  | .copy b n => lane (if b then o.b else o.a) n

/-- Whether the two lanes of a pair are an unchanged copy of one source pair (R107). -/
def isMove : LaneW → LaneW → Bool
  | .copy p m, .copy q n => p == q && m % 2 == 0 && n == m + 1
  | _, _ => false

/-- Whether a pair is a lane operation (R107). -/
def isLaneOp (x y : LaneW) : Bool :=
  !isMove x y && !(x == .keep && y == .keep) && !(x == .zero && y == .zero)

/-- Pair j of the destination with its seal (R107). -/
def pairOut (o : VSrc) (j : Nat) (x y : LaneW) : Word × Byte :=
  let v := y.val o (2 * j + 1) ++ x.val o (2 * j)
  match x, y with
  | .keep, .keep => (pair o.d j, pairSeal o.ds j)
  | .zero, .zero => (0, 0)
  | .copy p m, .copy _ _ => (v, if isMove x y then pairSeal (if p then o.bs else o.as) (m / 2) else sealFn v)
  | _, _ => (v, sealFn v)

/-- The destination after a plan. -/
def vecOut (o : VSrc) (w : Nat → LaneW) : Vec × VSeals :=
  let l := (List.range 16).map fun j => pairOut o j (w (2 * j)) (w (2 * j + 1))
  (vecOfPairs (l.map (·.1)), vsealsOf (l.map (·.2)))

/-- The pairs for which p holds, ascending. -/
def pairsWhere (p : Nat → Bool) : List Nat := (List.range 16).filter p
/-- The pairs that hold a lane for which act holds. -/
def actPairs (act : Nat → Bool) : List Nat := pairsWhere fun j => act (2 * j) || act (2 * j + 1)
/-- The old destination pairs that a lane operation keeps a lane of (R107). -/
def oldPair (w : Nat → LaneW) (j : Nat) : Bool :=
  isLaneOp (w (2 * j)) (w (2 * j + 1)) && (w (2 * j) == .keep || w (2 * j + 1) == .keep)
/-- Whether lane x copies from pair j of source b. -/
def LaneW.from (b : Bool) (j : Nat) : LaneW → Bool
  | .copy c n => c == b && n / 2 == j
  | _ => false
/-- The pairs of source b that lane operations copy from (R107). -/
def copyPairs (w : Nat → LaneW) (b : Bool) : List Nat :=
  pairsWhere fun j => (List.range 16).any fun i =>
    isLaneOp (w (2 * i)) (w (2 * i + 1)) && ((w (2 * i)).from b j || (w (2 * i + 1)).from b j)

/-- The plan of R106: active lanes as given, the others zero or kept. -/
def masked (act : Nat → Bool) (z : Bool) (f : Nat → LaneW) : Nat → LaneW :=
  fun i => if act i then f i else if z then .zero else .keep

/-- The mask register that K names. -/
def maskReg (k : BitVec 3) : Nat := k.toNat % 4
/-- Whether K selects zeroing (R50). -/
def zeroing (k : BitVec 3) : Bool := k.getLsbD 2
/-- Whether some lane is active. -/
def anyLane (act : Nat → Bool) : Bool := (List.range 32).any act
/-- Whether the old destination is read besides: merging puts active lanes beside lanes that stay (R55, R106, log 11). -/
def merges (k : BitVec 3) (act : Nat → Bool) : Bool := !zeroing k && anyLane act && !(List.range 32).all act
/-- The registers that an instruction reads for its active lanes: rd where some lane is active, and d where it merges; inactive lanes read
nothing (R106). -/
def lanesRead (k : BitVec 3) (rd : List RegId) (d : RegId) (act : Nat → Bool) : List RegId :=
  (if anyLane act then rd else []) ++ (if merges k act then [d] else [])

/-- Runs a vector instruction once its operands are read: checks pas of v[A], pbs of v[B], the old destination pairs that are
operands (pds) or of which a lane is kept, then writes the plan and raises the flags (R107, R108). lat none: the result comes
later.  A plan that keeps every lane writes nothing. -/
def vrun (lat : Option Nat) (a b d : BitVec 5) (o : VSrc) (pas pbs pds : List Nat) (w : Nat → LaneW) (fl : Flags) : M Unit := do
  checkPairs o.a o.as a.toNat pas
  checkPairs o.b o.bs b.toNat pbs
  checkPairs o.d o.ds d.toNat (pairsWhere fun j => pds.contains j || oldPair w j)
  raise fl
  if (List.range 32).all fun i => w i == .keep then pure () else
    match lat with
    | some n => writeV n d (vecOut o w).1 (vecOut o w).2
    | none => writeLate (vR d) (vecOut o w).1 (vecOut o w).2

/-- The lanes under mask register n. -/
def Regs.lanesOf (r : Regs) (n : Nat) : Nat → Bool := fun i => (r.kv n).getLsbD i

/-- The flags that the active lanes raise (R108). -/
def laneFlags (act : Nat → Bool) (f : Nat → Flags) : Flags :=
  orFlags ((List.range 32).map fun i => if act i then f i else 0)

/-- An elementwise instruction on v[A], v[B] when useB, and the old v[D] when useD (R106, R107). -/
def vop (lat : Option Nat) (useB useD compact : Bool) (f : BitVec 32 → BitVec 32 → BitVec 32 → BitVec 32 × Flags)
    (k : BitVec 3) (b a d : BitVec 5) (l : BitVec 3) (s : State) : Host.Outcome State Fault Refusal :=
  finish s do
    let r ← issueLanes l.toNat compact (maskReg k)
      (lanesRead k (vR a :: (if useB then [vR b] else []) ++ (if useD then [vR d] else [])) (vR d))
    let act := r.lanesOf (maskReg k)
    let o := r.src a.toNat b.toNat d.toNat
    let g := fun i => f (lane o.a i) (lane o.b i) (lane o.d i)
    vrun lat a b d o (actPairs act) (if useB then actPairs act else []) (if useD then actPairs act else [])
      (masked act (zeroing k) fun i => .res (g i).1) (laneFlags act fun i => (g i).2)
    retire (if compact then 2 else 4)

/-- A lane result without flags. -/
def quiet (f : BitVec 32 → BitVec 32 → BitVec 32) (a b _ : BitVec 32) : BitVec 32 × Flags := (f a b, 0)
/-- A lane result from encodings. -/
def enc (x : Nat × Flags) : BitVec 32 × Flags := (BitVec.ofNat 32 x.1, x.2)
/-- A function of the two 16-bit elements of each lane (R111). -/
def halves (f : Nat → Nat → Nat → Nat × Flags) (a b d : BitVec 32) : BitVec 32 × Flags :=
  let lo := f (a.toNat % 2 ^ 16) (b.toNat % 2 ^ 16) (d.toNat % 2 ^ 16)
  let hi := f (a.toNat / 2 ^ 16) (b.toNat / 2 ^ 16) (d.toNat / 2 ^ 16)
  (BitVec.ofNat 32 (lo.1 + hi.1 * 2 ^ 16), lo.2 ||| hi.2)
/-- VDOT of a 16-bit format (R112). -/
def dotHalves (f : Fmt) (a b d : BitVec 32) : BitVec 32 × Flags :=
  enc (dotF f d.toNat [(a.toNat % 2 ^ 16, b.toNat % 2 ^ 16), (a.toNat / 2 ^ 16, b.toNat / 2 ^ 16)])
/-- The smaller as signed. -/
def minS32 (a b : BitVec 32) : BitVec 32 := if a.slt b then a else b
/-- The larger as signed. -/
def maxS32 (a b : BitVec 32) : BitVec 32 := if b.slt a then a else b
/-- Byte e of a lane. -/
def laneByte (a : BitVec 32) (e : Nat) : Nat := a.toNat / 2 ^ (8 * e) % 256
/-- The bytes of a lane as S8 (R26). -/
def s8s (a : BitVec 32) : List Int := (List.range 4).map fun e => intOf 8 true (laneByte a e)
/-- VDOTB.S8 (R114). -/
def dotB (a b d : BitVec 32) : BitVec 32 × Flags := (d + BitVec.ofInt 32 (dotI (s8s a) (s8s b)), 0)
/-- The eight Q4X elements of a lane, and whether a byte is bad (R27). -/
def q4s (a : BitVec 32) : List Int × Bool :=
  let q := fun e => q4decode (laneByte a e)
  ((List.range 4).flatMap fun e => [(q e).1, (q e).2.1], (List.range 4).any fun e => (q e).2.2)

/-- Flag Q4BAD. -/
def badFlag (b : Bool) : Flags := if b then fQ4 else 0

/-- A compare into a mask: one bit per active lane (R106, R117). -/
def vcmp (useB : Bool) (p : BitVec 32 → BitVec 32 → Bool) (k : BitVec 3) (b a : BitVec 5) (d l : BitVec 3) (s : State) :
    Host.Outcome State Fault Refusal :=
  finish s do
    let r ← issueLanes l.toNat false (maskReg k) (lanesRead k (vR a :: (if useB then [vR b] else [])) (kR d))
    let act := r.lanesOf (maskReg k)
    let o := r.src a.toNat b.toNat 0
    checkPairs o.a o.as a.toNat (actPairs act)
    checkPairs o.b o.bs b.toNat (if useB then actPairs act else [])
    let old := r.kv d.toNat
    let bitOf := fun i => if act i then p (lane o.a i) (lane o.b i) else if zeroing k then false else old.getLsbD i
    if anyLane act || zeroing k then writeK 2 d (BitVec.ofNat 32 (packNat 1 ((List.range 32).map fun i => if bitOf i then 1 else 0)))
    retire 4

/-- The comparison of two F32 lanes. -/
def cmp32 (a b : BitVec 32) : Option Ordering := cmpF .f32 a.toNat b.toNat

/-- A move or permutation of lanes: checks of v[A] and v[B] by R107, and psB of v[B] besides. -/
def vmoves (d a b : BitVec 5) (o : VSrc) (psB : List Nat) (w : Nat → LaneW) : M Unit :=
  vrun (some 2) a b d o (copyPairs w false) (pairsWhere fun j => psB.contains j || (copyPairs w true).contains j) [] w 0

/-- VMOV and C.VMOV (R116). -/
def vmovWith (compact : Bool) (k : BitVec 3) (a d : BitVec 5) (l : BitVec 3) (s : State) :
    Host.Outcome State Fault Refusal :=
  finish s do
    let r ← issueLanes l.toNat compact (maskReg k) (lanesRead k [vR a] (vR d))
    vmoves d a 0 (r.src a.toNat 0 d.toNat) [] (masked (r.lanesOf (maskReg k)) (zeroing k) fun i => .copy false i)
    retire (if compact then 2 else 4)

/-- Element i of a[0] … a[31], b[0] … b[31] (R118). -/
def seq64 (o : VSrc) (i : Nat) : Nat := if i < 32 then (lane o.a i).toNat else (lane o.b (i - 32)).toNat

/-- Two F32 elements narrowed to a 16-bit format: lane j (R118). -/
def narrow16 (f : Fmt) (o : VSrc) (j : Nat) : BitVec 32 × Flags :=
  let lo := cvt .f32 f (seq64 o (2 * j))
  let hi := cvt .f32 f (seq64 o (2 * j + 1))
  (BitVec.ofNat 32 (hi.1 * 2 ^ 16 + lo.1), lo.2 ||| hi.2)

/-- VCVT.F16.F32 and VCVT.B16.F32 (R118): lanes 0 to 15 come from v[A], the others from v[B]. -/
def vnarrow (f : Fmt) (k : BitVec 3) (b a d : BitVec 5) (l : BitVec 3) (s : State) : Host.Outcome State Fault Refusal :=
  finish s do
    let r ← issueLanes l.toNat false (maskReg k) fun f =>
      (if (List.range 16).any f then [vR a] else []) ++ (if (List.range 16).any fun j => f (16 + j) then [vR b] else []) ++
        lanesRead k [] (vR d) f
    let act := r.lanesOf (maskReg k)
    let o := r.src a.toNat b.toNat d.toNat
    vrun (some 3) a b d o (pairsWhere act) (pairsWhere fun j => act (16 + j)) []
      (masked act (zeroing k) fun j => .res (narrow16 f o j).1) (laneFlags act fun j => (narrow16 f o j).2)
    retire 4

/-- VCVT.F32.F16 and VCVT.F32.B16 (R118): both destinations become visible at the same distance (R104). -/
def vwiden (f : Fmt) (k : BitVec 3) (a d : BitVec 5) (l : BitVec 3) (s : State) : Host.Outcome State Fault Refusal :=
  finish s do
    let e : BitVec 5 := d + 1
    let r ← issueLanes l.toNat false (maskReg k) fun f => lanesRead k [vR a] (vR d) f ++ lanesRead k [] (vR e) f
    let act := r.lanesOf (maskReg k)
    let o := r.src a.toNat 0 d.toNat
    let o2 := r.src a.toNat 0 e.toNat
    let w := fun n => masked act (zeroing k) fun j => .res (BitVec.ofNat 32 (cvt f .f32 (elem o.a 16 (n + j))).1)
    checkPairs o.a o.as a.toNat (pairsWhere fun p => (List.range 32).any fun j => act j && (p == j / 4 || p == 8 + j / 4))
    checkPairs o.d o.ds d.toNat (pairsWhere (oldPair (w 0)))
    checkPairs o2.d o2.ds e.toNat (pairsWhere (oldPair (w 32)))
    if anyLane act || zeroing k then modify fun u => u.upX fun x => x.wrFixed2 3 d.toNat e.toNat (vecOut o (w 0)) (vecOut o2 (w 32))
    retire 4

/-- A reduction: the lanes under the filter, the others as the identity; the result in every lane (R122).  v[A] counts as read also under an empty filter
(DESIGN CHOICE, log 11). -/
def vreduce (ident : Nat) (op : Nat → Nat → Nat × Flags) (k : BitVec 2) (a d : BitVec 5) (l : BitVec 3) (s : State) :
    Host.Outcome State Fault Refusal :=
  finish s do
    let r ← issue l.toNat false [kR k, vR a]
    let act := r.lanesOf k.toNat
    let o := r.src a.toNat 0 d.toNat
    let x := tree op 5 ((List.range 32).map fun i => if act i then (lane o.a i).toNat else ident)
    vrun (some 6) a 0 d o (actPairs act) [] [] (fun _ => .res (BitVec.ofNat 32 x.1)) x.2
    retire 4

/-- VRNG and VRNGF: a function of the Philox word of each lane (R124). -/
def vrandom (f : Nat → BitVec 32) (k : BitVec 3) (a d : BitVec 5) (l : BitVec 3) (s : State) :
    Host.Outcome State Fault Refusal :=
  finish s do
    let r ← issueLanes l.toNat false (maskReg k) (lanesRead k [vR a] (vR d))
    let act := r.lanesOf (maskReg k)
    let o := r.src a.toNat 0 d.toNat
    let base := o.a.toNat % 2 ^ 128
    let key := o.a.toNat / 2 ^ 128 % 2 ^ 64
    let w := fun i => f ((philox ((base + i / 4) % 2 ^ 128) key).getD (i % 4) 0)
    vrun (some 8) a 0 d o (if (List.range 32).any act then [0, 1, 2] else []) [] []
      (masked act (zeroing k) fun i => .res (w i)) 0
    retire 4

/-- A k instruction on two k registers (R125). -/
def kop (f : Mask → Mask → Mask) (b a d l : BitVec 3) (s : State) : Host.Outcome State Fault Refusal :=
  finish s do
    let r ← issue l.toNat false [kR a, kR b]
    writeK 1 d (f (r.kv a.toNat) (r.kv b.toNat))
    retire 4

/-- A k register as a zero-extended g value through f (R125, R126). -/
def kToG (f : Mask → Word) (a : BitVec 3) (d : BitVec 5) (l : BitVec 3) (s : State) : Host.Outcome State Fault Refusal :=
  finish s do
    let r ← issue l.toNat false [kR a]
    writeG 2 d (f (r.kv a.toNat))
    retire 4

/-- The lanes that a compress keeps, ascending (R120). -/
def chosen (p : Nat → Bool) : List Nat := (List.range 32).filter p

/-! ## The instructions -/

/-- VADD.F32 (R110). -/
def execVaddF32 (k : BitVec 3) (b a d : BitVec 5) (l : BitVec 3) (s : State) : Host.Outcome State Fault Refusal :=
  vop (some 4) true false false (fun a b _ => enc (addF .f32 a.toNat b.toNat)) k b a d l s
/-- VSUB.F32 (R110). -/
def execVsubF32 (k : BitVec 3) (b a d : BitVec 5) (l : BitVec 3) (s : State) : Host.Outcome State Fault Refusal :=
  vop (some 4) true false false (fun a b _ => enc (subF .f32 a.toNat b.toNat)) k b a d l s
/-- VMUL.F32 (R110). -/
def execVmulF32 (k : BitVec 3) (b a d : BitVec 5) (l : BitVec 3) (s : State) : Host.Outcome State Fault Refusal :=
  vop (some 4) true false false (fun a b _ => enc (mulF .f32 a.toNat b.toNat)) k b a d l s
/-- VFMA.F32 (R110). -/
def execVfmaF32 (k : BitVec 3) (b a d : BitVec 5) (l : BitVec 3) (s : State) : Host.Outcome State Fault Refusal :=
  vop (some 4) true true false (fun a b d => enc (fmaF .f32 false d.toNat a.toNat b.toNat)) k b a d l s
/-- VFMS.F32 (R110). -/
def execVfmsF32 (k : BitVec 3) (b a d : BitVec 5) (l : BitVec 3) (s : State) : Host.Outcome State Fault Refusal :=
  vop (some 4) true true false (fun a b d => enc (fmaF .f32 true d.toNat a.toNat b.toNat)) k b a d l s
/-- VMIN.F32 (R110). -/
def execVminF32 (k : BitVec 3) (b a d : BitVec 5) (l : BitVec 3) (s : State) : Host.Outcome State Fault Refusal :=
  vop (some 4) true false false (quiet fun a b => BitVec.ofNat 32 (minF .f32 a.toNat b.toNat)) k b a d l s
/-- VMAX.F32 (R110). -/
def execVmaxF32 (k : BitVec 3) (b a d : BitVec 5) (l : BitVec 3) (s : State) : Host.Outcome State Fault Refusal :=
  vop (some 4) true false false (quiet fun a b => BitVec.ofNat 32 (maxF .f32 a.toNat b.toNat)) k b a d l s
/-- VABS.F32 (R110). -/
def execVabsF32 (k : BitVec 3) (a d : BitVec 5) (l : BitVec 3) (s : State) : Host.Outcome State Fault Refusal :=
  vop (some 4) false false false (quiet fun a _ => BitVec.ofNat 32 (absF .f32 a.toNat)) k 0 a d l s
/-- VADD.F16 (R111). -/
def execVaddF16 (k : BitVec 3) (b a d : BitVec 5) (l : BitVec 3) (s : State) : Host.Outcome State Fault Refusal :=
  vop (some 4) true false false (halves fun a b _ => addF .f16 a b) k b a d l s
/-- VMUL.F16 (R111). -/
def execVmulF16 (k : BitVec 3) (b a d : BitVec 5) (l : BitVec 3) (s : State) : Host.Outcome State Fault Refusal :=
  vop (some 4) true false false (halves fun a b _ => mulF .f16 a b) k b a d l s
/-- VFMA.F16 (R111). -/
def execVfmaF16 (k : BitVec 3) (b a d : BitVec 5) (l : BitVec 3) (s : State) : Host.Outcome State Fault Refusal :=
  vop (some 4) true true false (halves fun a b d => fmaF .f16 false d a b) k b a d l s
/-- VDOT.F16 (R112). -/
def execVdotF16 (k : BitVec 3) (b a d : BitVec 5) (l : BitVec 3) (s : State) : Host.Outcome State Fault Refusal :=
  vop (some 4) true true false (dotHalves .f16) k b a d l s
/-- VADD.B16 (R111). -/
def execVaddB16 (k : BitVec 3) (b a d : BitVec 5) (l : BitVec 3) (s : State) : Host.Outcome State Fault Refusal :=
  vop (some 4) true false false (halves fun a b _ => addF .b16 a b) k b a d l s
/-- VMUL.B16 (R111). -/
def execVmulB16 (k : BitVec 3) (b a d : BitVec 5) (l : BitVec 3) (s : State) : Host.Outcome State Fault Refusal :=
  vop (some 4) true false false (halves fun a b _ => mulF .b16 a b) k b a d l s
/-- VFMA.B16 (R111). -/
def execVfmaB16 (k : BitVec 3) (b a d : BitVec 5) (l : BitVec 3) (s : State) : Host.Outcome State Fault Refusal :=
  vop (some 4) true true false (halves fun a b d => fmaF .b16 false d a b) k b a d l s
/-- VDOT.B16 (R112). -/
def execVdotB16 (k : BitVec 3) (b a d : BitVec 5) (l : BitVec 3) (s : State) : Host.Outcome State Fault Refusal :=
  vop (some 4) true true false (dotHalves .b16) k b a d l s
/-- VADD.S32 (R113). -/
def execVaddS32 (k : BitVec 3) (b a d : BitVec 5) (l : BitVec 3) (s : State) : Host.Outcome State Fault Refusal :=
  vop (some 2) true false false (quiet fun a b => a + b) k b a d l s
/-- VSUB.S32 (R113). -/
def execVsubS32 (k : BitVec 3) (b a d : BitVec 5) (l : BitVec 3) (s : State) : Host.Outcome State Fault Refusal :=
  vop (some 2) true false false (quiet fun a b => a - b) k b a d l s
/-- VMUL.S32 (R113). -/
def execVmulS32 (k : BitVec 3) (b a d : BitVec 5) (l : BitVec 3) (s : State) : Host.Outcome State Fault Refusal :=
  vop (some 2) true false false (quiet fun a b => a * b) k b a d l s
/-- VMADD.S32 (R113). -/
def execVmaddS32 (k : BitVec 3) (b a d : BitVec 5) (l : BitVec 3) (s : State) : Host.Outcome State Fault Refusal :=
  vop (some 2) true true false (fun a b d => (d + a * b, 0)) k b a d l s
/-- VMIN.S32 (R113). -/
def execVminS32 (k : BitVec 3) (b a d : BitVec 5) (l : BitVec 3) (s : State) : Host.Outcome State Fault Refusal :=
  vop (some 2) true false false (quiet minS32) k b a d l s
/-- VMAX.S32 (R113). -/
def execVmaxS32 (k : BitVec 3) (b a d : BitVec 5) (l : BitVec 3) (s : State) : Host.Outcome State Fault Refusal :=
  vop (some 2) true false false (quiet maxS32) k b a d l s
/-- VDOTB.S8 (R114). -/
def execVdotbS8 (k : BitVec 3) (b a d : BitVec 5) (l : BitVec 3) (s : State) : Host.Outcome State Fault Refusal :=
  vop (some 2) true true false (dotB) k b a d l s
/-- VDOTQ.Q4X: also reads v[(B + 1) mod 32], which is checked last (R107, R114). -/
def execVdotqQ4x (k : BitVec 3) (b a d : BitVec 5) (l : BitVec 3) (s : State) : Host.Outcome State Fault Refusal :=
  finish s do
    let e : BitVec 5 := b + 1
    let r ← issueLanes l.toNat false (maskReg k) (lanesRead k [vR a, vR b, vR d, vR e] (vR d))
    let act := r.lanesOf (maskReg k)
    let o := r.src a.toNat b.toNat d.toNat
    let b2 := r.vv e.toNat
    let ps := actPairs act
    let w := masked act (zeroing k) fun i =>
      .res (lane o.d i + BitVec.ofInt 32 (dotI (q4s (lane o.a i)).1 (s8s (lane o.b i) ++ s8s (lane b2 i))))
    checkPairs o.a o.as a.toNat ps
    checkPairs o.b o.bs b.toNat ps
    checkPairs o.d o.ds d.toNat ps
    checkPairs b2 (r.vsl e.toNat) e.toNat ps
    raise (laneFlags act fun i => badFlag (q4s (lane o.a i)).2)
    if anyLane act || zeroing k then writeV 2 d (vecOut o w).1 (vecOut o w).2
    retire 4
/-- VAND (R115). -/
def execVand (k : BitVec 3) (b a d : BitVec 5) (l : BitVec 3) (s : State) : Host.Outcome State Fault Refusal :=
  vop (some 2) true false false (quiet fun a b => a &&& b) k b a d l s
/-- VOR (R115). -/
def execVor (k : BitVec 3) (b a d : BitVec 5) (l : BitVec 3) (s : State) : Host.Outcome State Fault Refusal :=
  vop (some 2) true false false (quiet fun a b => a ||| b) k b a d l s
/-- VXOR (R115). -/
def execVxor (k : BitVec 3) (b a d : BitVec 5) (l : BitVec 3) (s : State) : Host.Outcome State Fault Refusal :=
  vop (some 2) true false false (quiet fun a b => a ^^^ b) k b a d l s
/-- VSLL (R115). -/
def execVsll (k : BitVec 3) (b a d : BitVec 5) (l : BitVec 3) (s : State) : Host.Outcome State Fault Refusal :=
  vop (some 2) true false false (quiet fun a b => a <<< (b.toNat % 32)) k b a d l s
/-- VSRL (R115). -/
def execVsrl (k : BitVec 3) (b a d : BitVec 5) (l : BitVec 3) (s : State) : Host.Outcome State Fault Refusal :=
  vop (some 2) true false false (quiet fun a b => a >>> (b.toNat % 32)) k b a d l s
/-- VSRA (R115). -/
def execVsra (k : BitVec 3) (b a d : BitVec 5) (l : BitVec 3) (s : State) : Host.Outcome State Fault Refusal :=
  vop (some 2) true false false (quiet fun a b => a.sshiftRight (b.toNat % 32)) k b a d l s
/-- VSEL: the selector says which source each lane takes (R116). -/
def execVsel (k : BitVec 2) (b a d : BitVec 5) (l : BitVec 3) (s : State) : Host.Outcome State Fault Refusal :=
  finish s do
    let r ← issue l.toNat false [kR k, vR a, vR b]
    vmoves d a b (r.src a.toNat b.toNat d.toNat) [] (fun i => .copy (!r.lanesOf k.toNat i) i)
    retire 4
/-- VMOV (R116). -/
def execVmov (k : BitVec 3) (a d : BitVec 5) (l : BitVec 3) (s : State) : Host.Outcome State Fault Refusal := vmovWith false k a d l s
/-- C.VMOV (R53). -/
def execCVmov (a d : BitVec 5) (s : State) : Host.Outcome State Fault Refusal := vmovWith true 0 a d 0 s
/-- C.VFMA.F32 on v0 to v7 (R53). -/
def execCVfmaF32 (b a d : BitVec 3) (s : State) : Host.Outcome State Fault Refusal :=
  vop (some 4) true true true (fun a b d => enc (fmaF .f32 false d.toNat a.toNat b.toNat)) 0 (b.setWidth 5) (a.setWidth 5)
    (d.setWidth 5) 0 s
/-- VCEQ.F32 (R117). -/
def execVceqF32 (k : BitVec 3) (b a : BitVec 5) (d l : BitVec 3) (s : State) : Host.Outcome State Fault Refusal := vcmp true (fun a b => cmp32 a b == some .eq) k b a d l s
/-- VCLT.F32 (R117). -/
def execVcltF32 (k : BitVec 3) (b a : BitVec 5) (d l : BitVec 3) (s : State) : Host.Outcome State Fault Refusal := vcmp true (fun a b => cmp32 a b == some .lt) k b a d l s
/-- VCLE.F32 (R117). -/
def execVcleF32 (k : BitVec 3) (b a : BitVec 5) (d l : BitVec 3) (s : State) : Host.Outcome State Fault Refusal := vcmp true (fun a b => cmp32 a b == some .lt || cmp32 a b == some .eq) k b a d l s
/-- VCUN.F32 (R117). -/
def execVcunF32 (k : BitVec 3) (b a : BitVec 5) (d l : BitVec 3) (s : State) : Host.Outcome State Fault Refusal := vcmp true (fun a b => cmp32 a b == none) k b a d l s
/-- VCEQ.S32 (R117). -/
def execVceqS32 (k : BitVec 3) (b a : BitVec 5) (d l : BitVec 3) (s : State) : Host.Outcome State Fault Refusal := vcmp true (fun a b => a == b) k b a d l s
/-- VCLT.S32 (R117). -/
def execVcltS32 (k : BitVec 3) (b a : BitVec 5) (d l : BitVec 3) (s : State) : Host.Outcome State Fault Refusal := vcmp true (fun a b => a.slt b) k b a d l s
/-- VCLT.N32 (R117). -/
def execVcltN32 (k : BitVec 3) (b a : BitVec 5) (d l : BitVec 3) (s : State) : Host.Outcome State Fault Refusal := vcmp true (fun a b => a.ult b) k b a d l s
/-- VCNZ (R117). -/
def execVcnz (k : BitVec 3) (a : BitVec 5) (d l : BitVec 3) (s : State) : Host.Outcome State Fault Refusal := vcmp false (fun a _ => a != 0) k 0 a d l s
/-- VCVT.F32.S32 (R118). -/
def execVcvtF32S32 (k : BitVec 3) (a d : BitVec 5) (l : BitVec 3) (s : State) : Host.Outcome State Fault Refusal :=
  vop (some 3) false false false (fun a _ _ => enc (cvt .s32 .f32 a.toNat)) k 0 a d l s
/-- VCVT.S32.F32 (R118). -/
def execVcvtS32F32 (k : BitVec 3) (a d : BitVec 5) (l : BitVec 3) (s : State) : Host.Outcome State Fault Refusal :=
  vop (some 3) false false false (fun a _ _ => enc (cvt .f32 .s32 a.toNat)) k 0 a d l s
/-- VCVT.F16.F32 (R118). -/
def execVcvtF16F32 (k : BitVec 3) (b a d : BitVec 5) (l : BitVec 3) (s : State) : Host.Outcome State Fault Refusal := vnarrow .f16 k b a d l s
/-- VCVT.F32.F16 (R118). -/
def execVcvtF32F16 (k : BitVec 3) (a d : BitVec 5) (l : BitVec 3) (s : State) : Host.Outcome State Fault Refusal := vwiden .f16 k a d l s
/-- VCVT.B16.F32 (R118). -/
def execVcvtB16F32 (k : BitVec 3) (b a d : BitVec 5) (l : BitVec 3) (s : State) : Host.Outcome State Fault Refusal := vnarrow .b16 k b a d l s
/-- VCVT.F32.B16 (R118). -/
def execVcvtF32B16 (k : BitVec 3) (a d : BitVec 5) (l : BitVec 3) (s : State) : Host.Outcome State Fault Refusal := vwiden .b16 k a d l s
/-- VCVT.E4.F32: four elements a lane in lanes 0 to 7, zero in active lanes 8 to 31 (R118). -/
def execVcvtE4F32 (k : BitVec 3) (a d : BitVec 5) (l : BitVec 3) (s : State) : Host.Outcome State Fault Refusal :=
  finish s do
    let r ← issueLanes l.toNat false (maskReg k) fun f => (if (List.range 8).any f then [vR a] else []) ++ lanesRead k [] (vR d) f
    let act := r.lanesOf (maskReg k)
    let o := r.src a.toNat 0 d.toNat
    let g := fun j => (List.range 4).map fun e => cvt .f32 .e4 (lane o.a (4 * j + e)).toNat
    vrun (some 3) a 0 d o (pairsWhere fun p => act (p / 2)) [] []
      (masked act (zeroing k) fun j => .res (if j < 8 then BitVec.ofNat 32 (packNat 8 ((g j).map (·.1))) else 0))
      (laneFlags act fun j => if j < 8 then orFlags ((g j).map (·.2)) else 0)
    retire 4
/-- VCVT.F32.E4: bytes 0 to 31 of v[A] (R118). -/
def execVcvtF32E4 (k : BitVec 3) (a d : BitVec 5) (l : BitVec 3) (s : State) : Host.Outcome State Fault Refusal :=
  finish s do
    let r ← issueLanes l.toNat false (maskReg k) (lanesRead k [vR a] (vR d))
    let act := r.lanesOf (maskReg k)
    let o := r.src a.toNat 0 d.toNat
    vrun (some 3) a 0 d o (pairsWhere fun p => (List.range 32).any fun j => act j && p == j / 8) [] []
      (masked act (zeroing k) fun j => .res (BitVec.ofNat 32 (cvt .e4 .f32 (elem o.a 8 j)).1)) 0
    retire 4
/-- VPERM (R119). -/
def execVperm (k : BitVec 3) (b a d : BitVec 5) (l : BitVec 3) (s : State) : Host.Outcome State Fault Refusal :=
  finish s do
    let r ← issueLanes l.toNat false (maskReg k) (lanesRead k [vR a, vR b] (vR d))
    let act := r.lanesOf (maskReg k)
    let o := r.src a.toNat b.toNat d.toNat
    vmoves d a b o (actPairs act) (masked act (zeroing k) fun i => .copy false ((lane o.b i).toNat % 32))
    retire 4
/-- A lane function of g[A] alone, which is checked once (R119, R120); it is read and checked whatever lanes are active (DESIGN CHOICE, log 11). -/
def vfromG (f : BitVec 32 → Nat → BitVec 32) (k : BitVec 3) (a d : BitVec 5) (l : BitVec 3) (s : State) : Host.Outcome State Fault Refusal :=
  finish s do
    let r ← issueLanes l.toNat false (maskReg k) fun f => gR a :: lanesRead k [] (vR d) f
    let g ← readG r a
    vrun (some 2) 0 0 d (r.src 0 0 d.toNat) [] [] []
      (masked (r.lanesOf (maskReg k)) (zeroing k) fun i => .res (f (g.setWidth 32) i)) 0
    retire 4
/-- VBCST (R119). -/
def execVbcst (k : BitVec 3) (a d : BitVec 5) (l : BitVec 3) (s : State) : Host.Outcome State Fault Refusal := vfromG (fun g _ => g) k a d l s
/-- VIOTA (R120). -/
def execViota (k : BitVec 3) (a d : BitVec 5) (l : BitVec 3) (s : State) : Host.Outcome State Fault Refusal := vfromG (fun g i => g + BitVec.ofNat 32 i) k a d l s
/-- VEXT (R119). -/
def execVext (b a d : BitVec 5) (l : BitVec 3) (s : State) : Host.Outcome State Fault Refusal :=
  finish s do
    let r ← issue l.toNat false [gR b, vR a]
    let g ← readG r b
    let v ← readV r a [g.toNat % 32 / 2]
    writeG 2 d ((lane v (g.toNat % 32)).setWidth 64)
    retire 4
/-- VINS (R119). -/
def execVins (b a d : BitVec 5) (l : BitVec 3) (s : State) : Host.Outcome State Fault Refusal :=
  finish s do
    let r ← issue l.toNat false [gR a, gR b, vR d]
    let x ← readG r a
    let g ← readG r b
    vrun (some 2) 0 0 d (r.src 0 0 d.toNat) [] [] [] (fun i => if i = g.toNat % 32 then .res (x.setWidth 32) else .keep) 0
    retire 4
/-- VCOMP: K[28] selects the fill (R120). -/
def execVcomp (k : BitVec 3) (a d : BitVec 5) (l : BitVec 3) (s : State) : Host.Outcome State Fault Refusal :=
  finish s do
    let r ← issueLanes l.toNat false (maskReg k) fun f => vR a :: (if !zeroing k && !(List.range 32).all f then [vR d] else [])
    let cs := chosen (r.lanesOf (maskReg k))
    vmoves d a 0 (r.src a.toNat 0 d.toNat) []
      (fun i => match cs[i]? with
        | some n => .copy false n
        | none => if zeroing k then .zero else .keep)
    retire 4
/-- VNZSCAN (R120). -/
def execVnzscan (k : BitVec 2) (b a d : BitVec 5) (l : BitVec 3) (s : State) : Host.Outcome State Fault Refusal :=
  finish s do
    let r ← issue l.toNat false [kR k, vR a, gR b]
    let f := r.lanesOf k.toNat
    let g ← readG r b
    let o := r.src a.toNat 0 d.toNat
    let cs := chosen fun i => f i && lane o.a i != 0
    vrun (some 2) a 0 d o (actPairs f) [] []
      (fun i => .res (match cs[i]? with
        | some n => g.setWidth 32 + BitVec.ofNat 32 n
        | none => 0xFFFFFFFF)) 0
    retire 4
/-- VUNPQ: h := g[B][0] selects the half of v[A] (R121). -/
def execVunpq (k : BitVec 3) (b a d : BitVec 5) (l : BitVec 3) (s : State) : Host.Outcome State Fault Refusal :=
  finish s do
    let r ← issueLanes l.toNat false (maskReg k) fun f => gR b :: lanesRead k [vR a] (vR d) f
    let act := r.lanesOf (maskReg k)
    let g ← readG r b
    let o := r.src a.toNat 0 d.toNat
    let h := g.toNat % 2
    let q := fun j e => q4decode (elem o.a 8 (64 * h + 2 * j + e))
    let bytes := fun j => [(q j 0).1, (q j 0).2.1, (q j 1).1, (q j 1).2.1].map (bitsOf 8)
    vrun (some 2) a 0 d o (pairsWhere fun p => (List.range 32).any fun j => act j && p == (64 * h + 2 * j) / 8) [] []
      (masked act (zeroing k) fun j => .res (BitVec.ofNat 32 (packNat 8 (bytes j))))
      (laneFlags act fun j => badFlag ((q j 0).2.2 || (q j 1).2.2))
    retire 4
/-- VRSUM.F32 (R122): the identity is −0.0. -/
def execVrsumF32 (k : BitVec 2) (a d : BitVec 5) (l : BitVec 3) (s : State) : Host.Outcome State Fault Refusal :=
  vreduce 0x80000000 (addF .f32) k a d l s
/-- VRMAX.F32 (R122): the identity is Canon. -/
def execVrmaxF32 (k : BitVec 2) (a d : BitVec 5) (l : BitVec 3) (s : State) : Host.Outcome State Fault Refusal :=
  vreduce (canon .f32) (fun x y => (maxF .f32 x y, 0)) k a d l s
/-- VRSUM.S32 (R122). -/
def execVrsumS32 (k : BitVec 2) (a d : BitVec 5) (l : BitVec 3) (s : State) : Host.Outcome State Fault Refusal :=
  vreduce 0 (fun x y => ((x + y) % 2 ^ 32, 0)) k a d l s
/-- VEXP2.F32 (R123). -/
def execVexp2F32 (k : BitVec 3) (a d : BitVec 5) (l : BitVec 3) (s : State) : Host.Outcome State Fault Refusal :=
  vop none false false false (fun a _ _ => enc (exp2F a.toNat)) k 0 a d l s
/-- VLOG2.F32 (R123). -/
def execVlog2F32 (k : BitVec 3) (a d : BitVec 5) (l : BitVec 3) (s : State) : Host.Outcome State Fault Refusal :=
  vop none false false false (fun a _ _ => enc (log2F a.toNat)) k 0 a d l s
/-- VRCP.F32 (R123). -/
def execVrcpF32 (k : BitVec 3) (a d : BitVec 5) (l : BitVec 3) (s : State) : Host.Outcome State Fault Refusal :=
  vop none false false false (fun a _ _ => enc (rcpF a.toNat)) k 0 a d l s
/-- VRSQRT.F32 (R123). -/
def execVrsqrtF32 (k : BitVec 3) (a d : BitVec 5) (l : BitVec 3) (s : State) : Host.Outcome State Fault Refusal :=
  vop none false false false (fun a _ _ => enc (rsqrtF a.toNat)) k 0 a d l s
/-- VDIV.F32 (R123). -/
def execVdivF32 (k : BitVec 3) (b a d : BitVec 5) (l : BitVec 3) (s : State) : Host.Outcome State Fault Refusal :=
  vop none true false false (fun a b _ => enc (divF a.toNat b.toNat)) k b a d l s
/-- VRNG (R124). -/
def execVrng (k : BitVec 3) (a d : BitVec 5) (l : BitVec 3) (s : State) : Host.Outcome State Fault Refusal := vrandom (fun w => BitVec.ofNat 32 w) k a d l s
/-- VRNGF: (w >> 8) × 2^−24 as F32, exact (R40). -/
def execVrngf (k : BitVec 3) (a d : BitVec 5) (l : BitVec 3) (s : State) : Host.Outcome State Fault Refusal := vrandom (fun w => BitVec.ofNat 32 (rneF .f32 (.fin false (w / 256) (-24))).1) k a d l s
/-- KAND (R125). -/
def execKand (b a d l : BitVec 3) (s : State) : Host.Outcome State Fault Refusal := kop (fun x y => x &&& y) b a d l s
/-- KOR (R125). -/
def execKor (b a d l : BitVec 3) (s : State) : Host.Outcome State Fault Refusal := kop (fun x y => x ||| y) b a d l s
/-- KXOR (R125). -/
def execKxor (b a d l : BitVec 3) (s : State) : Host.Outcome State Fault Refusal := kop (fun x y => x ^^^ y) b a d l s
/-- KNOT (R125). -/
def execKnot (a d l : BitVec 3) (s : State) : Host.Outcome State Fault Refusal := kop (fun x _ => ~~~x) 0 a d l s
/-- KPOP (R125). -/
def execKpop (a : BitVec 3) (d : BitVec 5) (l : BitVec 3) (s : State) : Host.Outcome State Fault Refusal :=
  kToG (fun k => BitVec.ofNat 64 (popc (k.setWidth 64))) a d l s
/-- KMOV from k to k (R126). -/
def execKmovKk (a d l : BitVec 3) (s : State) : Host.Outcome State Fault Refusal := kop (fun x _ => x) 0 a d l s
/-- KMOV from g to k (R126). -/
def execKmovGk (a : BitVec 5) (d l : BitVec 3) (s : State) : Host.Outcome State Fault Refusal :=
  finish s do
    let r ← issue l.toNat false [gR a]
    let g ← readG r a
    writeK 1 d (g.setWidth 32)
    retire 4
/-- KMOV from k to g (R126). -/
def execKmovKg (a : BitVec 3) (d : BitVec 5) (l : BitVec 3) (s : State) : Host.Outcome State Fault Refusal := kToG (fun k => k.setWidth 64) a d l s

end Sys2Proof.Machine
end

