-- ==== Sys2Proof/Machine/Dispatch.lean ====
section
/-!
DEFINITION. The meaning of every instruction and event: one direct call each.
-/

namespace Sys2Proof.Machine

/-- The outcome of an instruction of the acting context, or of an event, in state s. -/
def exec (i : Instr) (s : State) : Host.Outcome State Fault Refusal :=
  match i with
  | .add b a d l => Sys2Proof.Machine.execAdd b a d l s
  | .sub b a d l => Sys2Proof.Machine.execSub b a d l s
  | .and b a d l => Sys2Proof.Machine.execAnd b a d l s
  | .or b a d l => Sys2Proof.Machine.execOr b a d l s
  | .xor b a d l => Sys2Proof.Machine.execXor b a d l s
  | .andn b a d l => Sys2Proof.Machine.execAndn b a d l s
  | .sll b a d l => Sys2Proof.Machine.execSll b a d l s
  | .srl b a d l => Sys2Proof.Machine.execSrl b a d l s
  | .sra b a d l => Sys2Proof.Machine.execSra b a d l s
  | .ror b a d l => Sys2Proof.Machine.execRor b a d l s
  | .minS b a d l => Sys2Proof.Machine.execMinS b a d l s
  | .maxS b a d l => Sys2Proof.Machine.execMaxS b a d l s
  | .minN b a d l => Sys2Proof.Machine.execMinN b a d l s
  | .maxN b a d l => Sys2Proof.Machine.execMaxN b a d l s
  | .clz a d l => Sys2Proof.Machine.execClz a d l s
  | .popc a d l => Sys2Proof.Machine.execPopc a d l s
  | .mul b a d l => Sys2Proof.Machine.execMul b a d l s
  | .mulhS b a d l => Sys2Proof.Machine.execMulhS b a d l s
  | .mulhN b a d l => Sys2Proof.Machine.execMulhN b a d l s
  | .divS b a d l => Sys2Proof.Machine.execDivS b a d l s
  | .divN b a d l => Sys2Proof.Machine.execDivN b a d l s
  | .remS b a d l => Sys2Proof.Machine.execRemS b a d l s
  | .remN b a d l => Sys2Proof.Machine.execRemN b a d l s
  | .madd b a d l => Sys2Proof.Machine.execMadd b a d l s
  | .seq b a d l => Sys2Proof.Machine.execSeq b a d l s
  | .sne b a d l => Sys2Proof.Machine.execSne b a d l s
  | .sltS b a d l => Sys2Proof.Machine.execSltS b a d l s
  | .sltN b a d l => Sys2Proof.Machine.execSltN b a d l s
  | .sleS b a d l => Sys2Proof.Machine.execSleS b a d l s
  | .sleN b a d l => Sys2Proof.Machine.execSleN b a d l s
  | .csel b a d l => Sys2Proof.Machine.execCsel b a d l s
  | .bfx b a d l => Sys2Proof.Machine.execBfx b a d l s
  | .addi imm a d l => Sys2Proof.Machine.execAddi imm a d l s
  | .andi imm a d l => Sys2Proof.Machine.execAndi imm a d l s
  | .ori imm a d l => Sys2Proof.Machine.execOri imm a d l s
  | .xori imm a d l => Sys2Proof.Machine.execXori imm a d l s
  | .slli imm a d l => Sys2Proof.Machine.execSlli imm a d l s
  | .srli imm a d l => Sys2Proof.Machine.execSrli imm a d l s
  | .srai imm a d l => Sys2Proof.Machine.execSrai imm a d l s
  | .slti imm a d l => Sys2Proof.Machine.execSlti imm a d l s
  | .li imm d l => Sys2Proof.Machine.execLi imm d l s
  | .lsh imm d l => Sys2Proof.Machine.execLsh imm d l s
  | .beq o b a => Sys2Proof.Machine.execBeq o b a s
  | .bne o b a => Sys2Proof.Machine.execBne o b a s
  | .bltS o b a => Sys2Proof.Machine.execBltS o b a s
  | .bgeS o b a => Sys2Proof.Machine.execBgeS o b a s
  | .bltN o b a => Sys2Proof.Machine.execBltN o b a s
  | .bgeN o b a => Sys2Proof.Machine.execBgeN o b a s
  | .bkany o a => Sys2Proof.Machine.execBkany o a s
  | .bknone o a => Sys2Proof.Machine.execBknone o a s
  | .j o => Sys2Proof.Machine.execJ o s
  | .call o => Sys2Proof.Machine.execCall o s
  | .loop e a l => Sys2Proof.Machine.execLoop e a l s
  | .jr a l => Sys2Proof.Machine.execJr a l s
  | .callr a l => Sys2Proof.Machine.execCallr a l s
  | .ret l => Sys2Proof.Machine.execRet l s
  | .endFiring l => Sys2Proof.Machine.execEndFiring l s
  | .nop l => Sys2Proof.Machine.execNop l s
  | .trap a l => Sys2Proof.Machine.execTrap a l s
  | .brk l => Sys2Proof.Machine.execBrk l s
  | .ldlS8 o a d l => Sys2Proof.Machine.execLdlS8 o a d l s
  | .ldlN8 o a d l => Sys2Proof.Machine.execLdlN8 o a d l s
  | .ldlS16 o a d l => Sys2Proof.Machine.execLdlS16 o a d l s
  | .ldlN16 o a d l => Sys2Proof.Machine.execLdlN16 o a d l s
  | .ldlS32 o a d l => Sys2Proof.Machine.execLdlS32 o a d l s
  | .ldlN32 o a d l => Sys2Proof.Machine.execLdlN32 o a d l s
  | .ldl64 o a d l => Sys2Proof.Machine.execLdl64 o a d l s
  | .vldl o a d l => Sys2Proof.Machine.execVldl o a d l s
  | .stl8 o a d l => Sys2Proof.Machine.execStl8 o a d l s
  | .stl16 o a d l => Sys2Proof.Machine.execStl16 o a d l s
  | .stl32 o a d l => Sys2Proof.Machine.execStl32 o a d l s
  | .stl64 o a d l => Sys2Proof.Machine.execStl64 o a d l s
  | .vstl o a d l => Sys2Proof.Machine.execVstl o a d l s
  | .vgatl o a d l => Sys2Proof.Machine.execVgatl o a d l s
  | .vscatl o a d l => Sys2Proof.Machine.execVscatl o a d l s
  | .vbcl o a d l => Sys2Proof.Machine.execVbcl o a d l s
  | .ldg32 o a d l => Sys2Proof.Machine.execLdg32 o a d l s
  | .ldg64 o a d l => Sys2Proof.Machine.execLdg64 o a d l s
  | .stg32 o a d l => Sys2Proof.Machine.execStg32 o a d l s
  | .stg64 o a d l => Sys2Proof.Machine.execStg64 o a d l s
  | .vldg o a d l => Sys2Proof.Machine.execVldg o a d l s
  | .vstg o a d l => Sys2Proof.Machine.execVstg o a d l s
  | .freq o a d l => Sys2Proof.Machine.execFreq o a d l s
  | .pfg o a d l => Sys2Proof.Machine.execPfg o a d l s
  | .cwb b a l => Sys2Proof.Machine.execCwb b a l s
  | .cinv b a l => Sys2Proof.Machine.execCinv b a l s
  | .cwbinv b a l => Sys2Proof.Machine.execCwbinv b a l s
  | .cflush b a l => Sys2Proof.Machine.execCflush b a l s
  | .cways a d l => Sys2Proof.Machine.execCways a d l s
  | .cwayq d l => Sys2Proof.Machine.execCwayq d l s
  | .vaddF32 k b a d l => Sys2Proof.Machine.execVaddF32 k b a d l s
  | .vsubF32 k b a d l => Sys2Proof.Machine.execVsubF32 k b a d l s
  | .vmulF32 k b a d l => Sys2Proof.Machine.execVmulF32 k b a d l s
  | .vfmaF32 k b a d l => Sys2Proof.Machine.execVfmaF32 k b a d l s
  | .vfmsF32 k b a d l => Sys2Proof.Machine.execVfmsF32 k b a d l s
  | .vminF32 k b a d l => Sys2Proof.Machine.execVminF32 k b a d l s
  | .vmaxF32 k b a d l => Sys2Proof.Machine.execVmaxF32 k b a d l s
  | .vabsF32 k a d l => Sys2Proof.Machine.execVabsF32 k a d l s
  | .vaddF16 k b a d l => Sys2Proof.Machine.execVaddF16 k b a d l s
  | .vmulF16 k b a d l => Sys2Proof.Machine.execVmulF16 k b a d l s
  | .vfmaF16 k b a d l => Sys2Proof.Machine.execVfmaF16 k b a d l s
  | .vaddB16 k b a d l => Sys2Proof.Machine.execVaddB16 k b a d l s
  | .vmulB16 k b a d l => Sys2Proof.Machine.execVmulB16 k b a d l s
  | .vfmaB16 k b a d l => Sys2Proof.Machine.execVfmaB16 k b a d l s
  | .vdotF16 k b a d l => Sys2Proof.Machine.execVdotF16 k b a d l s
  | .vdotB16 k b a d l => Sys2Proof.Machine.execVdotB16 k b a d l s
  | .vaddS32 k b a d l => Sys2Proof.Machine.execVaddS32 k b a d l s
  | .vsubS32 k b a d l => Sys2Proof.Machine.execVsubS32 k b a d l s
  | .vmulS32 k b a d l => Sys2Proof.Machine.execVmulS32 k b a d l s
  | .vmaddS32 k b a d l => Sys2Proof.Machine.execVmaddS32 k b a d l s
  | .vminS32 k b a d l => Sys2Proof.Machine.execVminS32 k b a d l s
  | .vmaxS32 k b a d l => Sys2Proof.Machine.execVmaxS32 k b a d l s
  | .vdotbS8 k b a d l => Sys2Proof.Machine.execVdotbS8 k b a d l s
  | .vdotqQ4x k b a d l => Sys2Proof.Machine.execVdotqQ4x k b a d l s
  | .vand k b a d l => Sys2Proof.Machine.execVand k b a d l s
  | .vor k b a d l => Sys2Proof.Machine.execVor k b a d l s
  | .vxor k b a d l => Sys2Proof.Machine.execVxor k b a d l s
  | .vsll k b a d l => Sys2Proof.Machine.execVsll k b a d l s
  | .vsrl k b a d l => Sys2Proof.Machine.execVsrl k b a d l s
  | .vsra k b a d l => Sys2Proof.Machine.execVsra k b a d l s
  | .vsel k b a d l => Sys2Proof.Machine.execVsel k b a d l s
  | .vmov k a d l => Sys2Proof.Machine.execVmov k a d l s
  | .vceqF32 k b a d l => Sys2Proof.Machine.execVceqF32 k b a d l s
  | .vcltF32 k b a d l => Sys2Proof.Machine.execVcltF32 k b a d l s
  | .vcleF32 k b a d l => Sys2Proof.Machine.execVcleF32 k b a d l s
  | .vcunF32 k b a d l => Sys2Proof.Machine.execVcunF32 k b a d l s
  | .vceqS32 k b a d l => Sys2Proof.Machine.execVceqS32 k b a d l s
  | .vcltS32 k b a d l => Sys2Proof.Machine.execVcltS32 k b a d l s
  | .vcltN32 k b a d l => Sys2Proof.Machine.execVcltN32 k b a d l s
  | .vcnz k a d l => Sys2Proof.Machine.execVcnz k a d l s
  | .vcvtF32S32 k a d l => Sys2Proof.Machine.execVcvtF32S32 k a d l s
  | .vcvtS32F32 k a d l => Sys2Proof.Machine.execVcvtS32F32 k a d l s
  | .vcvtF16F32 k b a d l => Sys2Proof.Machine.execVcvtF16F32 k b a d l s
  | .vcvtF32F16 k a d l => Sys2Proof.Machine.execVcvtF32F16 k a d l s
  | .vcvtB16F32 k b a d l => Sys2Proof.Machine.execVcvtB16F32 k b a d l s
  | .vcvtF32B16 k a d l => Sys2Proof.Machine.execVcvtF32B16 k a d l s
  | .vcvtE4F32 k a d l => Sys2Proof.Machine.execVcvtE4F32 k a d l s
  | .vcvtF32E4 k a d l => Sys2Proof.Machine.execVcvtF32E4 k a d l s
  | .vperm k b a d l => Sys2Proof.Machine.execVperm k b a d l s
  | .vbcst k a d l => Sys2Proof.Machine.execVbcst k a d l s
  | .vext b a d l => Sys2Proof.Machine.execVext b a d l s
  | .vins b a d l => Sys2Proof.Machine.execVins b a d l s
  | .vcomp k a d l => Sys2Proof.Machine.execVcomp k a d l s
  | .vnzscan k b a d l => Sys2Proof.Machine.execVnzscan k b a d l s
  | .viota k a d l => Sys2Proof.Machine.execViota k a d l s
  | .vunpq k b a d l => Sys2Proof.Machine.execVunpq k b a d l s
  | .vrsumF32 k a d l => Sys2Proof.Machine.execVrsumF32 k a d l s
  | .vrmaxF32 k a d l => Sys2Proof.Machine.execVrmaxF32 k a d l s
  | .vrsumS32 k a d l => Sys2Proof.Machine.execVrsumS32 k a d l s
  | .vexp2F32 k a d l => Sys2Proof.Machine.execVexp2F32 k a d l s
  | .vlog2F32 k a d l => Sys2Proof.Machine.execVlog2F32 k a d l s
  | .vrcpF32 k a d l => Sys2Proof.Machine.execVrcpF32 k a d l s
  | .vrsqrtF32 k a d l => Sys2Proof.Machine.execVrsqrtF32 k a d l s
  | .vdivF32 k b a d l => Sys2Proof.Machine.execVdivF32 k b a d l s
  | .vrng k a d l => Sys2Proof.Machine.execVrng k a d l s
  | .vrngf k a d l => Sys2Proof.Machine.execVrngf k a d l s
  | .kand b a d l => Sys2Proof.Machine.execKand b a d l s
  | .kor b a d l => Sys2Proof.Machine.execKor b a d l s
  | .kxor b a d l => Sys2Proof.Machine.execKxor b a d l s
  | .knot a d l => Sys2Proof.Machine.execKnot a d l s
  | .kpop a d l => Sys2Proof.Machine.execKpop a d l s
  | .kmovKk a d l => Sys2Proof.Machine.execKmovKk a d l s
  | .kmovGk a d l => Sys2Proof.Machine.execKmovGk a d l s
  | .kmovKg a d l => Sys2Proof.Machine.execKmovKg a d l s
  | .sopen imm a slot l => Sys2Proof.Machine.execSopen imm a slot l s
  | .sdim imm b a slot l => Sys2Proof.Machine.execSdim imm b a slot l s
  | .sbase a slot l => Sys2Proof.Machine.execSbase a slot l s
  | .sidx b a slot l => Sys2Proof.Machine.execSidx b a slot l s
  | .sattNone slot l => Sys2Proof.Machine.execSattNone slot l s
  | .sattScale a slot l => Sys2Proof.Machine.execSattScale a slot l s
  | .sattAdds a slot l => Sys2Proof.Machine.execSattAdds a slot l s
  | .sattFmas b a slot l => Sys2Proof.Machine.execSattFmas b a slot l s
  | .sattCvt a slot l => Sys2Proof.Machine.execSattCvt a slot l s
  | .sattMins a slot l => Sys2Proof.Machine.execSattMins a slot l s
  | .sattMaxs a slot l => Sys2Proof.Machine.execSattMaxs a slot l s
  | .sattSumr slot l => Sys2Proof.Machine.execSattSumr slot l s
  | .sattAdd2 a slot l => Sys2Proof.Machine.execSattAdd2 a slot l s
  | .sgo slot l => Sys2Proof.Machine.execSgo slot l s
  | .sclose a slot l => Sys2Proof.Machine.execSclose a slot l s
  | .spin imm slot l => Sys2Proof.Machine.execSpin imm slot l s
  | .spop a slot l => Sys2Proof.Machine.execSpop a slot l s
  | .spopk b a slot l => Sys2Proof.Machine.execSpopk b a slot l s
  | .spush a slot l => Sys2Proof.Machine.execSpush a slot l s
  | .sgrant a f slot l => Sys2Proof.Machine.execSgrant a f slot l s
  | .sfront a slot l => Sys2Proof.Machine.execSfront a slot l s
  | .swaitf a slot l => Sys2Proof.Machine.execSwaitf a slot l s
  | .sevt a slot l => Sys2Proof.Machine.execSevt a slot l s
  | .srecall slot l => Sys2Proof.Machine.execSrecall slot l s
  | .sskip a slot l => Sys2Proof.Machine.execSskip a slot l s
  | .ssave a slot l => Sys2Proof.Machine.execSsave a slot l s
  | .sload a slot l => Sys2Proof.Machine.execSload a slot l s
  | .squery imm a slot l => Sys2Proof.Machine.execSquery imm a slot l s
  | .send z b a d t => Sys2Proof.Machine.execSend z b a d t s
  | .sendr z b a d t => Sys2Proof.Machine.execSendr z b a d t s
  | .sendw z b a d t => Sys2Proof.Machine.execSendw z b a d t s
  | .sendt z b a d t => Sys2Proof.Machine.execSendt z b a d t s
  | .sendv b a d t => Sys2Proof.Machine.execSendv b a d t s
  | .reply z b a d => Sys2Proof.Machine.execReply z b a d s
  | .fwd a d t => Sys2Proof.Machine.execFwd a d t s
  | .sendg z b a d t => Sys2Proof.Machine.execSendg z b a d t s
  | .mbcfg b a d l => Sys2Proof.Machine.execMbcfg b a d l s
  | .mbcnt b a d l => Sys2Proof.Machine.execMbcnt b a d l s
  | .mbmask a d l => Sys2Proof.Machine.execMbmask a d l s
  | .msgf a d l => Sys2Proof.Machine.execMsgf a d l s
  | .tagbind b a d l => Sys2Proof.Machine.execTagbind b a d l s
  | .tagwait a d l => Sys2Proof.Machine.execTagwait a d l s
  | .wret d l => Sys2Proof.Machine.execWret d l s
  | .wq d l => Sys2Proof.Machine.execWq d l s
  | .jcfg b a d l => Sys2Proof.Machine.execJcfg b a d l s
  | .jadd b a d l => Sys2Proof.Machine.execJadd b a d l s
  | .launch b a d l => Sys2Proof.Machine.execLaunch b a d l s
  | .selfq a d l => Sys2Proof.Machine.execSelfq a d l s
  | .gangq a d l => Sys2Proof.Machine.execGangq a d l s
  | .fenceL l => Sys2Proof.Machine.execFenceL l s
  | .rel k l => Sys2Proof.Machine.execRel k l s
  | .acq k l => Sys2Proof.Machine.execAcq k l s
  | .strel k b a l => Sys2Proof.Machine.execStrel k b a l s
  | .ldacq k a d l => Sys2Proof.Machine.execLdacq k a d l s
  | .fenceS l => Sys2Proof.Machine.execFenceS l s
  | .fenceM l => Sys2Proof.Machine.execFenceM l s
  | .fenceA l => Sys2Proof.Machine.execFenceA l s
  | .aaddS32 b a d p c => Sys2Proof.Machine.execAaddS32 b a d p c s
  | .aaddS64 b a d p c => Sys2Proof.Machine.execAaddS64 b a d p c s
  | .aminS32 b a d p c => Sys2Proof.Machine.execAminS32 b a d p c s
  | .amaxS32 b a d p c => Sys2Proof.Machine.execAmaxS32 b a d p c s
  | .aminN32 b a d p c => Sys2Proof.Machine.execAminN32 b a d p c s
  | .axchg b a d p c => Sys2Proof.Machine.execAxchg b a d p c s
  | .acas b a d p c => Sys2Proof.Machine.execAcas b a d p c s
  | .aaddF32 b a d p c => Sys2Proof.Machine.execAaddF32 b a d p c s
  | .aor b a d p c => Sys2Proof.Machine.execAor b a d p c s
  | .aand b a d p c => Sys2Proof.Machine.execAand b a d p c s
  | .axor b a d p c => Sys2Proof.Machine.execAxor b a d p c s
  | .aminN64 b a d p c => Sys2Proof.Machine.execAminN64 b a d p c s
  | .barv a l => Sys2Proof.Machine.execBarv a l s
  | .barw a l => Sys2Proof.Machine.execBarw a l s
  | .barvw a l => Sys2Proof.Machine.execBarvw a l s
  | .barq a d l => Sys2Proof.Machine.execBarq a d l s
  | .watch a d l => Sys2Proof.Machine.execWatch a d l s
  | .waitw b a d l => Sys2Proof.Machine.execWaitw b a d l s
  | .unwatch a l => Sys2Proof.Machine.execUnwatch a l s
  | .mldb b a e l => Sys2Proof.Machine.execMldb b a e l s
  | .mldbs m b a e l => Sys2Proof.Machine.execMldbs m b a e l s
  | .mswap l => Sys2Proof.Machine.execMswap l s
  | .mscale m a l => Sys2Proof.Machine.execMscale m a l s
  | .mzero z l => Sys2Proof.Machine.execMzero z l s
  | .mquad a l => Sys2Proof.Machine.execMquad a l s
  | .mma m b a e z l => Sys2Proof.Machine.execMma m b a e z l s
  | .mmas m b a e z l => Sys2Proof.Machine.execMmas m b a e z l s
  | .moutl b a e z l => Sys2Proof.Machine.execMoutl b a e z l s
  | .mrdz m b a e z l => Sys2Proof.Machine.execMrdz m b a e z l s
  | .mstz m b a e z l => Sys2Proof.Machine.execMstz m b a e z l s
  | .mdrain t m b a e z l => Sys2Proof.Machine.execMdrain t m b a e z l s
  | .mwait z l => Sys2Proof.Machine.execMwait z l s
  | .tlrdef a d l => Sys2Proof.Machine.execTlrdef a d l s
  | .tlrfree a d l => Sys2Proof.Machine.execTlrfree a d l s
  | .copy a d l => Sys2Proof.Machine.execCopy a d l s
  | .copyf a d l => Sys2Proof.Machine.execCopyf a d l s
  | .cpatch b a d l => Sys2Proof.Machine.execCpatch b a d l s
  | .copyq a d l => Sys2Proof.Machine.execCopyq a d l s
  | .ccancel a d l => Sys2Proof.Machine.execCcancel a d l s
  | .pft b a l => Sys2Proof.Machine.execPft b a l s
  | .bbinit b a d l => Sys2Proof.Machine.execBbinit b a d l s
  | .bget b a d l => Sys2Proof.Machine.execBget b a d l s
  | .bpeek b d l => Sys2Proof.Machine.execBpeek b d l s
  | .bskip b a l => Sys2Proof.Machine.execBskip b a l s
  | .bput b a d l => Sys2Proof.Machine.execBput b a d l s
  | .bflush a d l => Sys2Proof.Machine.execBflush a d l s
  | .bgetx b a d l => Sys2Proof.Machine.execBgetx b a d l s
  | .bbpos d l => Sys2Proof.Machine.execBbpos d l s
  | .sealg a d l => Sys2Proof.Machine.execSealg a d l s
  | .sealset b d l => Sys2Proof.Machine.execSealset b d l s
  | .sealchk a d l => Sys2Proof.Machine.execSealchk a d l s
  | .poison d l => Sys2Proof.Machine.execPoison d l s
  | .sealmode a d l => Sys2Proof.Machine.execSealmode a d l s
  | .csrr c d l => Sys2Proof.Machine.execCsrr c d l s
  | .csrw c a d l => Sys2Proof.Machine.execCsrw c a d l s
  | .csrs c a d l => Sys2Proof.Machine.execCsrs c a d l s
  | .csrc c a d l => Sys2Proof.Machine.execCsrc c a d l s
  | .gstop a d l => Sys2Proof.Machine.execGstop a d l s
  | .gresume a d l => Sys2Proof.Machine.execGresume a d l s
  | .ctxsave b a d l => Sys2Proof.Machine.execCtxsave b a d l s
  | .ctxload b a d l => Sys2Proof.Machine.execCtxload b a d l s
  | .evict b a d l => Sys2Proof.Machine.execEvict b a d l s
  | .restore b a d l => Sys2Proof.Machine.execRestore b a d l s
  | .tret a l => Sys2Proof.Machine.execTret a l s
  | .tlbinv b a d l => Sys2Proof.Machine.execTlbinv b a d l s
  | .tlbinva a d l => Sys2Proof.Machine.execTlbinva a d l s
  | .xbset a d l => Sys2Proof.Machine.execXbset a d l s
  | .pageq a d l => Sys2Proof.Machine.execPageq a d l s
  | .amapset b a d l => Sys2Proof.Machine.execAmapset b a d l s
  | .cMov a d => Sys2Proof.Machine.execCMov a d s
  | .cAddi imm d => Sys2Proof.Machine.execCAddi imm d s
  | .cLi imm d => Sys2Proof.Machine.execCLi imm d s
  | .cLdl a d => Sys2Proof.Machine.execCLdl a d s
  | .cStl a b => Sys2Proof.Machine.execCStl a b s
  | .cBeqz o a => Sys2Proof.Machine.execCBeqz o a s
  | .cBnez o a => Sys2Proof.Machine.execCBnez o a s
  | .cJ o => Sys2Proof.Machine.execCJ o s
  | .cEnd => Sys2Proof.Machine.execCEnd s
  | .cRet => Sys2Proof.Machine.execCRet s
  | .cSpop slot d => Sys2Proof.Machine.execCSpop slot d s
  | .cSpush slot a => Sys2Proof.Machine.execCSpush slot a s
  | .cVmov a d => Sys2Proof.Machine.execCVmov a d s
  | .cVfmaF32 b a d => Sys2Proof.Machine.execCVfmaF32 b a d s
  | .cNop => Sys2Proof.Machine.execCNop s
  | .lqrsvRead part queue => Sys2Proof.Machine.execLqrsvRead part queue s
  | .lqtailWrite part queue idx => Sys2Proof.Machine.execLqtailWrite part queue idx s
  | .asgWrite idx val => Sys2Proof.Machine.execAsgWrite idx val s
  | .lcWrite val => Sys2Proof.Machine.execLcWrite val s
  | .messageLanding m => Sys2Proof.Machine.execMessageLanding m s
  | .tagReplyLanding m => Sys2Proof.Machine.execTagReplyLanding m s
  | .hwFaultMessageLanding id => Sys2Proof.Machine.execHwFaultMessageLanding id s
  | .mailboxOverflowTrap core => Sys2Proof.Machine.execMailboxOverflowTrap core s
  | .firingSelection core => Sys2Proof.Machine.execFiringSelection core s
  | .ageExpiry core idx mb => Sys2Proof.Machine.execAgeExpiry core idx mb s
  | .budgetExpiry core ctx => Sys2Proof.Machine.execBudgetExpiry core ctx s
  | .slotHoldExpiry core idx mb holder => Sys2Proof.Machine.execSlotHoldExpiry core idx mb holder s
  | .retrySignal m => Sys2Proof.Machine.execRetrySignal m s
  | .retryBackoffExpiry m => Sys2Proof.Machine.execRetryBackoffExpiry m s
  | .parkAppend m => Sys2Proof.Machine.execParkAppend m s
  | .parkReplayRecord core idx => Sys2Proof.Machine.execParkReplayRecord core idx s
  | .distributorTakeStage part queue => Sys2Proof.Machine.execDistributorTakeStage part queue s
  | .gangPlacement stage gang places tags evict => Sys2Proof.Machine.execGangPlacement stage gang places tags evict s
  | .stageAgingExpiry stage => Sys2Proof.Machine.execStageAgingExpiry stage s
  | .weightReturnArrival id => Sys2Proof.Machine.execWeightReturnArrival id s
  | .hostAccess part va len data => Sys2Proof.Machine.execHostAccess part va len data s
  | .storeQueueDrain core id => Sys2Proof.Machine.execStoreQueueDrain core id s
  | .loadReply core id => Sys2Proof.Machine.execLoadReply core id s
  | .homeFillRequest dst pa evicts => Sys2Proof.Machine.execHomeFillRequest dst pa evicts s
  | .writeBackArrival src fromCore line evicts => Sys2Proof.Machine.execWriteBackArrival src fromCore line evicts s
  | .homeDirectAccess core id err evicts => Sys2Proof.Machine.execHomeDirectAccess core id err evicts s
  | .remoteDeviceAccess core id routed => Sys2Proof.Machine.execRemoteDeviceAccess core id routed s
  | .freqReadAtHome core id err => Sys2Proof.Machine.execFreqReadAtHome core id err s
  | .atomicExecute core id evicts => Sys2Proof.Machine.execAtomicExecute core id evicts s
  | .atomicReply core id => Sys2Proof.Machine.execAtomicReply core id s
  | .pageSwap frame => Sys2Proof.Machine.execPageSwap frame s
  | .streamElement core slot err => Sys2Proof.Machine.execStreamElement core slot err s
  | .nbuRowOperation core slot n => Sys2Proof.Machine.execNbuRowOperation core slot n s
  | .streamMove core slot loc locId => Sys2Proof.Machine.execStreamMove core slot loc locId s
  | .streamPatchArrival core id => Sys2Proof.Machine.execStreamPatchArrival core id s
  | .frontierAck core slot => Sys2Proof.Machine.execFrontierAck core slot s
  | .copyRequest id => Sys2Proof.Machine.execCopyRequest id s
  | .copyPart id part err => Sys2Proof.Machine.execCopyPart id part err s
  | .copyLanding id part => Sys2Proof.Machine.execCopyLanding id part s
  | .copyfFollowon id => Sys2Proof.Machine.execCopyfFollowon id s
  | .matrixLoadComplete core => Sys2Proof.Machine.execMatrixLoadComplete core s
  | .mmaComplete core errs => Sys2Proof.Machine.execMmaComplete core errs s
  | .quadMmaReceive core errs => Sys2Proof.Machine.execQuadMmaReceive core errs s
  | .barrierRelease gang tag => Sys2Proof.Machine.execBarrierRelease gang tag s
  | .waitwTimeout core ctx => Sys2Proof.Machine.execWaitwTimeout core ctx s
  | .rampWindowExpiry slate demand => Sys2Proof.Machine.execRampWindowExpiry slate demand s
  | .monitorSample site temp volt proc => Sys2Proof.Machine.execMonitorSample site temp volt proc s
  | .powerOn r genuine => Sys2Proof.Machine.execPowerOn r genuine s
  | .functionReady f => Sys2Proof.Machine.execFunctionReady f s
  | .functionFailure f => Sys2Proof.Machine.execFunctionFailure f s
  | .flitReceive link good => Sys2Proof.Machine.execFlitReceive link good s
  | .linkFailure link => Sys2Proof.Machine.execLinkFailure link s
  | .partitionCreate part => Sys2Proof.Machine.execPartitionCreate part s
  | .partitionActivate part p => Sys2Proof.Machine.execPartitionActivate part p s
  | .partitionFree part => Sys2Proof.Machine.execPartitionFree part s
  | .partitionErase part => Sys2Proof.Machine.execPartitionErase part s
  | .eraseComplete part => Sys2Proof.Machine.execEraseComplete part s
  | .keySlotGenerate part slot => Sys2Proof.Machine.execKeySlotGenerate part slot s
  | .keySlotDiscard part slot => Sys2Proof.Machine.execKeySlotDiscard part slot s
  | .frameAssign frame part => Sys2Proof.Machine.execFrameAssign frame part s
  | .launchQueueSetup part queue cb base count enable => Sys2Proof.Machine.execLaunchQueueSetup part queue cb base count enable s
  | .checkpointExport req => Sys2Proof.Machine.execCheckpointExport req s
  | .checkpointImport req frames => Sys2Proof.Machine.execCheckpointImport req frames s
  | .attestationReport nonce => Sys2Proof.Machine.execAttestationReport nonce s
  | .illegalEncoding e word half => Sys2Proof.Machine.execIllegalEncoding e word half s
  | .variableLatencyResult core ctx id => Sys2Proof.Machine.execVariableLatencyResult core ctx id s

end Sys2Proof.Machine
end

