-- ==== Sys2Proof/Machine/Fetch.lean ====
section
/-!
DEFINITION. Fetching and running one instruction of a context (R47, R58, R81, R351), which contexts run, and how an instruction is placed
where the next step fetches it.
-/

namespace Sys2Proof.Machine

/-- Whether a context has instructions to run: it holds a firing, or handles a MAILBOX trap without one, and it has not stopped
(R179, R353, R365). -/
def Ctx.live (x : Ctx) : Bool := (x.firing.isSome || x.mbTrap) && !x.halted && !x.dead

/-- What a fetch gives: the address of a halfword that lies at or above XB, or what the bytes decode to. -/
inductive Fetched where
  | beyond (a : Word)
  | bytes (d : Decoded)
  deriving DecidableEq, Repr

/-- The four bytes at the PC of the acting context (R47). -/
def State.codeBytes (s : State) : List Byte := s.c.m.lm.read s.x.pc.toNat 4

/-- Whether the instruction at the PC is a 32-bit one, by bits [1:0] of its first halfword (R47). -/
def State.wide (s : State) : Bool := (s.c.m.lm.byte s.x.pc.toNat).extractLsb' 0 2 == 3

/-- The fetch of the acting context: each halfword is checked against XB (R47, R81). -/
noncomputable def State.fetch (s : State) : Fetched :=
  if s.c.xbAddr ≤ s.x.pc.toNat then .beyond s.x.pc
  else if s.wide && s.c.xbAddr ≤ s.x.pc.toNat + 2 then .beyond (s.x.pc + 2)
  else .bytes (decodeBytes s.codeBytes)

/-- The acting context fetches and runs one instruction: XFETCH first, then ILLEGAL, then the instruction's own meaning (R58). -/
noncomputable def runInstr (s : State) : Host.Outcome State Fault Refusal :=
  match s.fetch with
  | .beyond a => .next (takeTrap s 0x05 a s.x.prevPc s.x.pc)
  | .bytes (.instr i _) => Sys2Proof.Machine.exec i s
  | .bytes (.bad e w h) => Sys2Proof.Machine.exec (.illegalEncoding e w h) s
  | .bytes .short => .next (takeTrap s 0x05 s.x.pc s.x.prevPc s.x.pc)

/-- Whether a matrix follow-on of a landed copy stands before the next instruction of the acting actor (R295, R334). -/
def State.followDue (s : State) : Bool :=
  s.dist.copies.any fun c => c.landed && s.actorAt c.part c.dact == some (s.cur, s.actIdx) && match followOf c.fw with
    | some (.load _ _) | some (.mma _ _ _) => true
    | _ => false

/-- The acting context at an instruction boundary: BUDGET is taken there (R77, R180), else it runs one instruction, after the matrix follow-ons that its
actor counts as having issued (R295, R334). -/
noncomputable def runCtx (s : State) : Host.Outcome State Fault Refusal :=
  match execBudgetExpiry s.cur s.curCtx s with
  | .next t => .next t
  | _ => if s.x.firing.isSome && s.followDue then .next { s with stalled := (s.cur, s.curCtx) :: s.stalled } else runInstr s

/-- Whether a row of the opcode table stands for a part of an instruction: what a pattern without an instruction does (R52), and the writes of ASG and
LC, which happen within CSRW, CSRS and CSRC (R349). -/
def Instr.within (i : Instr) : Bool := match i with
  | .illegalEncoding _ _ _ => true
  | .asgWrite _ _ => true
  | .lcWrite _ => true
  | _ => false

/-- The rows of the opcode table that happen by themselves or from outside: those that no instruction word stands for and that are no part of an
instruction. -/
def Instr.happens (i : Instr) : Bool := encode i = .none && !Instr.within i

/-! ## Placing an instruction -/

/-- Bytes at an address of a memory, one after the other. -/
def Mem.setBytes (m : Mem) (a : Nat) : List Byte → Mem
  | [] => m
  | b :: r => Mem.setBytes (m.setByte a b) (a + 1) r

/-- The actor that withFetchWord makes resident where none is: its window is all LM from 0x2000 (log 8). -/
def placedActor : Actor :=
  { addr := 0, part := 0, gang := 0, stage := 0, rank := 0, csr := { ActorCsrs.reset with lo := 1, hi := 64 }, mbs := [], tags := [], ridge := []
    tlr := [], pub := none, stopped := false, parking := false, fence := false, code := 0, codeLen := 4, recAddr := 0, quads := false }

/-- The firing that withFetchWord gives a context that has nothing to run (log 8). -/
def placedFiring (now : Nat) : Firing :=
  { actor := 0, mb := 0, slots := [], join := false, header := 0, weight := 0, accepted := now, sig := none, forwarded := false, entry := now
    away := 0, awaySince := none }

/-- The acting context made ready to fetch: it runs, its PC lies below XB, nothing else is to happen first (log 8). -/
def State.readyToFetch (s : State) : State :=
  let s1 := { s with feed := [], stalled := [] }
  let s2 := if s.x.live then s1 else
    (s1.upC fun c => if (c.actor 0).isSome then c else c.setActor 0 (some placedActor)).upX fun x =>
      { x with firing := some (placedFiring s.time), halted := false, dead := false }
  if s.x.pc.toNat % 2 = 0 && s.x.pc.toNat + 4 ≤ s.c.xbAddr then s2
  else (s2.upM fun m => { m with xb := if m.xb = 0 then 1 else m.xb }).upX fun x => { x with pc := 0 }

/-- The state with the four bytes of w, the least significant first, at the PC of a context made ready to fetch. -/
def State.placeWord (s : State) (w : Nat) : State :=
  let t := s.readyToFetch
  t.upM fun m => { m with lm := m.lm.setBytes t.x.pc.toNat (wordBytes 4 w) }

end Sys2Proof.Machine
end

