-- ==== Sys2Proof/Machine/Auto.lean ====
section
/-!
DEFINITION. What the machine does when the feed says nothing (log 3): the acting context goes on; when it waits, an event that can happen
happens; then another context goes on; else time passes.
-/

namespace Sys2Proof.Machine

/-- The clean array: no error is met (R311). -/
def noErrors : ArrayErrors := ⟨0, 0, []⟩

/-- The events of one message that is not yet accepted. -/
noncomputable def msgEvents (r : MsgRef) : List Instr := [.messageLanding r, .tagReplyLanding r, .retrySignal r, .retryBackoffExpiry r, .parkAppend r]

/-- The fill that a request of core n for a granule awaits, while its cluster cache lacks the granule. -/
noncomputable def State.fillEvents (s : State) (n gr : Nat) : List Instr :=
  let dst := if isEave n then n else clusterOf n
  let cache := if isEave n then (s.core n).m.cache else (s.cluster dst).cache
  if inCache cache gr then [] else [.homeFillRequest dst (8 * gr) []]

/-- The events of one outstanding request of core n. -/
noncomputable def State.farEvents (s : State) (n : Nat) (f : Far) : List Instr :=
  [.loadReply n f.id, .homeDirectAccess n f.id false [], .remoteDeviceAccess n f.id true, .freqReadAtHome n f.id false,
    .atomicExecute n f.id [], .atomicReply n f.id, .tagReplyLanding (.freq n f.id)]
    ++ (if f.direct then [] else ((granulesOf f.pa f.size).flatMap lineOf).flatMap (s.fillEvents n))

/-- The events of the contexts of core n. -/
noncomputable def Core.ctxEvents (c : Core) (n : Nat) : List Instr :=
  (List.range 4).flatMap fun k =>
    ((c.ctx k).varp.map fun v => Instr.variableLatencyResult n k v.id) ++ [.budgetExpiry n k, .waitwTimeout n k]

/-- The events of the actors of core n. -/
noncomputable def Core.actorEvents (c : Core) (n : Nat) : List Instr :=
  (List.range 16).flatMap fun i => match c.actor i with
    | none => []
    | some a => (a.mbs.flatMap fun b => (b.2.holds.map fun h => Instr.slotHoldExpiry n i b.1 h.2.1) ++ [.ageExpiry n i b.1]) ++ [.parkReplayRecord n i]

/-- The events of core n. -/
noncomputable def State.coreEvents (s : State) (n : Nat) (c : Core) : List Instr :=
  c.ctxEvents n
    ++ (c.m.stores.flatMap fun e => Instr.storeQueueDrain n e.id :: (if e.direct then [] else e.writes.flatMap fun w => if w.mask = 0xFF then [] else s.fillEvents n w.gr))
    ++ c.m.far.flatMap (s.farEvents n)
    ++ (c.m.patches.map fun p => Instr.streamPatchArrival n p.id)
    ++ (c.outbound.flatMap fun m => msgEvents (.out n m.id))
    ++ ((List.range 16).flatMap fun k => [Instr.streamElement n k false, .frontierAck n k])
    ++ [.matrixLoadComplete n, .mmaComplete n noErrors, .quadMmaReceive n noErrors]
    ++ c.actorEvents n ++ [.mailboxOverflowTrap n, .firingSelection n]

/-- The events of the distributor, the copies, the gangs and the partitions. -/
noncomputable def State.deviceEvents (s : State) : List Instr :=
  (s.dist.hw.flatMap fun m => msgEvents (.hw m.id) ++ [.hwFaultMessageLanding m.id])
    ++ (s.dist.queues.map fun q => Instr.distributorTakeStage (q.1 / 16) (q.1 % 16))
    ++ (s.dist.stages.map fun t => Instr.stageAgingExpiry t.key)
    ++ (s.dist.returns.map fun r => Instr.weightReturnArrival r.1)
    ++ (s.dist.copies.flatMap fun c => Instr.copyRequest c.id ::
        ((List.range c.parts.length).flatMap fun p => [Instr.copyPart c.id p none, .copyLanding c.id p]) ++ [.copyfFollowon c.id])
    ++ (s.dist.gangs.flatMap fun g => (List.range g.tags.length).map fun t => Instr.barrierRelease g.id t)
    ++ (s.dist.parts.flatMap fun p => [Instr.partitionErase p.1, .eraseComplete p.1])

/-- Every event that the machine tries by itself, in the order in which it tries them; the rest need a choice from outside. -/
noncomputable def State.events (s : State) : List Instr := (s.cores.flatMap fun e => s.coreEvents e.1 e.2) ++ s.deviceEvents

/-- The state after the first event of a list that can happen. -/
def State.firstEvent (s : State) : List Instr → Option State
  | [] => none
  | i :: r => match Sys2Proof.Machine.exec i s with
    | .next t => some t
    | _ => State.firstEvent s r

/-- The first context that runs and does not wait. -/
def State.nextCtx (s : State) : Option (Nat × Nat) :=
  (s.cores.flatMap fun e => (List.range 4).map fun k => (e.1, k)).find? fun p => ((s.core p.1).ctx p.2).live && !s.stalled.contains p

/-- The state after n cycles. -/
def State.later (s : State) (n : Nat) : State := { s with time := s.time + n }
/-- The state in which context k of core n acts, and no longer waits. -/
def State.focus (s : State) (n k : Nat) : State := { s with cur := n, curCtx := k, stalled := s.stalled.filter (· != (n, k)) }
/-- The state in which no context is known to wait. -/
def State.stirred (s : State) : State := { s with stalled := [] }

/-- Whether the acting context goes on. -/
def State.goesOn (s : State) : Bool := s.x.live && !s.stalled.contains (s.cur, s.curCtx)

/-- One step without the feed. -/
noncomputable def autoStep (s : State) : Host.Outcome State Fault Refusal :=
  if s.goesOn then runCtx s
  else match s.firstEvent s.events with
    | some t => .next t.stirred
    | none => match s.nextCtx with
      | some (n, k) => runCtx (s.focus n k)
      | none => .next s.stirred

/-- One move of the feed: a context that runs executes one instruction, or an event that can happen on its own happens. -/
noncomputable def feedStep (m : Move) (s : State) : Host.Outcome State Fault Refusal :=
  match m with
  | .run n k dt =>
    let t := (s.later dt).focus n k
    if t.x.live then runCtx t else .next t
  | .event i dt =>
    if Instr.happens i then match Sys2Proof.Machine.exec i (s.later dt) with
      | .next t => .next t.stirred
      | .fault r => .fault r
      | .refused r => .refused r
    else .refused .notEnabled

end Sys2Proof.Machine
end

