-- ==== Sys2Proof/Machine/Step.lean ====
section
/-!
DEFINITION. One step of the machine: the head of the feed if there is one, else what the machine does by itself one cycle later (log 3).
-/

namespace Sys2Proof.Machine

/-- One step. -/
noncomputable def step (s : State) : Host.Outcome State Fault Refusal :=
  match s.feed with
  | m :: r => feedStep m { s with feed := r }
  | [] => autoStep (s.later 1)

/-- The state with an instruction, given by its low nbits bits, stored where step fetches its next instruction. -/
def State.withFetchWord (s : State) (nbits w : Nat) : State := s.placeWord (w % 2 ^ nbits)

end Sys2Proof.Machine
end

