-- ==== Sys2Proof/Safety.lean ====
section
/-!
DEFINITION. The terms in which statements about the machine are made: when an instruction can read its operands, what it then reads, what a step
that goes on leaves, and the invariants of the machine.
-/

namespace Sys2Proof.Machine

/-! ## Reading operands -/

/-- The acting context can read registers rd with an instruction of stall count l: no variable-latency result is awaited, and in check mode
none is short of its distance (R55). -/
def State.readyFor (s : State) (l : Nat) (compact : Bool) (rd : List RegId) : Bool :=
  !(rd.any fun r => s.x.varp.any (·.reg == r)) && !(s.scbMode == 2 && !compact && rd.any fun r => (s.x.aged (1 + l)).pend.any (·.reg == r))
/-- The registers as that instruction reads them: in trust mode a register short of its distance reads its old value (R55). -/
def State.seen (s : State) (l : Nat) (compact : Bool) : Regs :=
  if s.scbMode = 0 && !compact then oldValues s.x.regs (s.x.aged (1 + l)).pend else s.x.regs
/-- The state once the instruction's cost has counted towards the distances (R54). -/
def State.issued (s : State) (l : Nat) : State := s.upX fun y => y.aged (1 + l)
/-- g[n] passes its seal check; g0 is not checked (R61). -/
def Regs.clean (r : Regs) (n : Nat) : Bool := n == 0 || syn (r.gv n) (r.gsl n) == 0
/-- The listed pairs of v[n] pass their seal checks (R107). -/
def Regs.cleanV (r : Regs) (n : Nat) (ps : List Nat) : Bool := ps.all fun j => syn (pair (r.vv n) j) (pairSeal (r.vsl n) j) == 0
/-- n bytes at a may be accessed at the alignment: aligned, data of the context's window, with no MSTZ of the context still to write (R79, R80, R89, R240, R295). -/
def State.lmOk (s : State) (a : Word) (n align : Nat) : Bool :=
  a.toNat % align == 0 && s.c.xbAddr ≤ a.toNat && s.lmInside a.toNat n && !s.c.storesLm s.curCtx

/-- The same for a load, which also waits for a payload that is still landing (R82). -/
def State.loadOk (s : State) (a : Word) (n align : Nat) : Bool := s.lmOk a n align && !s.landingAt a.toNat n

/-! ## What is left unchanged -/

/-- No register. -/
def noReg : Nat → Bool := fun _ => false
/-- Register d and no other. -/
def oneReg {n : Nat} (d : BitVec n) : Nat → Bool := fun k => k == d.toNat
/-- Every g register but those that p names reads as before, with its seal. -/
def Regs.sameG (r t : Regs) (p : Nat → Bool) : Prop := ∀ n, p n = false → t.gv n = r.gv n ∧ t.gsl n = r.gsl n
/-- Every v register but those that p names reads as before, with its seals. -/
def Regs.sameV (r t : Regs) (p : Nat → Bool) : Prop := ∀ n, p n = false → t.vv n = r.vv n ∧ t.vsl n = r.vsl n
/-- Every k register but those that p names reads as before. -/
def Regs.sameK (r t : Regs) (p : Nat → Bool) : Prop := ∀ n, p n = false → t.kv n = r.kv n
/-- g[d] holds w with seal sl; a write to g0 is discarded (R50). -/
def Regs.holdsG (r : Regs) (d : Nat) (w : Word) (sl : Byte) : Prop := r.gv d = (if d = 0 then 0 else w) ∧ r.gsl d = if d = 0 then 0 else sl
/-- Everything outside the acting core is as before; the model's own counters may have advanced (log 4, log 43). -/
structure State.sameOutside (s t : State) : Prop where
  rest : { t with cores := s.cores, draws := s.draws, dist := { t.dist with next := s.dist.next } } = s
  cores : ∀ n, n ≠ s.cur → t.core n = s.core n
/-- The other contexts of the acting core are as before. -/
def State.sameContexts (s t : State) : Prop := ∀ k, k ≠ s.curCtx → t.c.ctx k = s.c.ctx k
/-- All state but the acting context is as before, and one instruction is counted (R375). -/
structure State.sameButCtx (s t : State) : Prop where
  outside : s.sameOutside t
  contexts : s.sameContexts t
  core : { t.c with ctxs := s.c.ctxs } = s.c.count 1 1
/-- All state but the acting context and the LM of its core is as before, and one instruction is counted. -/
structure State.sameButLm (s t : State) : Prop where
  outside : s.sameOutside t
  contexts : s.sameContexts t
  core : { t.c with ctxs := s.c.ctxs, m := { t.c.m with lm := s.c.m.lm } } = s.c.count 1 1
/-- The context is as before but for data registers, results in flight, FPX, the PC, the loop stack, and the model's notes of a wait that has ended. -/
def Ctx.kept (x y : Ctx) : Prop :=
  y = { x with
    regs := y.regs, fpx := y.fpx, pc := y.pc, prevPc := y.prevPc, loops := y.loops, pend := y.pend, varp := y.varp
    loadG := y.loadG, swapWait := y.swapWait, swait := y.swait, barvSent := y.barvSent, waitw := y.waitw }
/-- The loop stack and the address with which an instruction of len bytes goes on in sequential flow (R70). -/
def State.onward (s : State) (len : Nat) : List LoopEntry × Word := endCheck s.cd s.x.pc (s.x.pc + BitVec.ofNat 64 len) s.x.loops
/-- The acting context went on to q with loop stack l: it did not trap and does not wait. -/
structure State.wentOn (s t : State) (q : Word) (l : List LoopEntry) : Prop where
  pc : t.x.pc = q
  prev : t.x.prevPc = s.x.pc
  loops : t.x.loops = l
  trap : t.x.trap = s.x.trap
  stalled : t.stalled = s.stalled
/-- The acting context went on in sequential flow after an instruction of len bytes (R70). -/
def State.wentOnBy (s t : State) (len : Nat) : Prop := s.wentOn t (s.onward len).2 (s.onward len).1
/-- Of the acting context only the registers that g, v and k name were written, flags fl were added to FPX, and it went on after len bytes. -/
structure State.wroteRegs (s t : State) (len : Nat) (fl : BitVec 6) (g v k : Nat → Bool) : Prop where
  kept : s.x.kept t.x
  flags : t.x.fpx = s.x.fpx ||| fl
  g : s.x.regs.sameG t.x.regs g
  v : s.x.regs.sameV t.x.regs v
  k : s.x.regs.sameK t.x.regs k
  on : s.wentOnBy t len

/-! ## Invariants -/

/-- Every memory of the machine is in canonical form: home memory and the LM of each core. -/
def State.memoryOk (s : State) : Prop := Memory.wf s.home.mem = true ∧ ∀ n, Memory.wf (s.core n).m.lm = true

end Sys2Proof.Machine
end

