-- ==== Sys2Proof/Certificates/Slice0/Obligations.lean ====
section
/-!
DEFINITION. The statements made about the machine.  A completion says under which conditions on the state and the operands an instruction
goes on, what it writes, and that nothing else changes; the conditions are written with the terms of Sys2Proof.Safety.
-/

open Sys2Proof Sys2Proof.Machine

/-! ## Scalar arithmetic -/

namespace Sys2Proof.Claims

/-- The instruction completes after len bytes and writes w with seal sl to g[d], and nothing else changes. -/
def writesG (i : Instr) (s : State) (len : Nat) (d : BitVec 5) (w : Word) (sl : Byte) : Prop :=
  ∃ t, exec i s = .next t ∧ s.sameButCtx t ∧ s.wroteRegs t len 0 (oneReg d) noReg noReg ∧ t.x.regs.holdsG d.toNat w sl
/-- 1 when p holds, else 0. -/
def oneIf (p : Prop) [Decidable p] : Word := if p then 1 else 0
/-- The functions of two operands of R64 but OR and the divisions: form, latency (R62) and result. -/
def scalarTwo : List ((BitVec 5 → BitVec 5 → BitVec 5 → BitVec 3 → Instr) × (Word → Word → Word)) :=
  [(.add, fun a b => BitVec.ofNat 64 (a.toNat + b.toNat)),
   (.sub, fun a b => BitVec.ofInt 64 ((a.toNat : Int) - b.toNat)),
   (.and, fun a b => a &&& b),
   (.xor, fun a b => a ^^^ b),
   (.andn, fun a b => a &&& ~~~b),
   (.sll, fun a b => BitVec.ofNat 64 (a.toNat * 2 ^ (b.toNat % 64))),
   (.srl, fun a b => BitVec.ofNat 64 (a.toNat / 2 ^ (b.toNat % 64))),
   (.sra, fun a b => BitVec.ofInt 64 (a.toInt / 2 ^ (b.toNat % 64))),
   (.ror, fun a b => BitVec.ofNat 64 (a.toNat / 2 ^ (b.toNat % 64)) ||| BitVec.ofNat 64 (a.toNat * 2 ^ (64 - b.toNat % 64))),
   (.minS, fun a b => if a.toInt ≤ b.toInt then a else b),
   (.maxS, fun a b => if a.toInt ≤ b.toInt then b else a),
   (.minN, fun a b => if a.toNat ≤ b.toNat then a else b),
   (.maxN, fun a b => if a.toNat ≤ b.toNat then b else a),
   (.mul, fun a b => BitVec.ofNat 64 (a.toNat * b.toNat)),
   (.mulhS, fun a b => BitVec.ofInt 64 (a.toInt * b.toInt / 2 ^ 64)),
   (.mulhN, fun a b => BitVec.ofNat 64 (a.toNat * b.toNat / 2 ^ 64)),
   (.seq, fun a b => oneIf (a.toNat = b.toNat)),
   (.sne, fun a b => oneIf (a.toNat ≠ b.toNat)),
   (.sltS, fun a b => oneIf (a.toInt < b.toInt)),
   (.sltN, fun a b => oneIf (a.toNat < b.toNat)),
   (.sleS, fun a b => oneIf (a.toInt ≤ b.toInt)),
   (.sleN, fun a b => oneIf (a.toNat ≤ b.toNat)),
   (.bfx, fun a b =>
      let pos := b.toNat % 64
      let wid := min (b.toNat / 2 ^ 8 % 128) 64
      let f : Nat := a.toNat / 2 ^ pos % 2 ^ wid
      if b.getLsbD 15 = true ∧ 0 < wid ∧ 2 ^ (wid - 1) ≤ f then BitVec.ofInt 64 ((f : Int) - 2 ^ wid) else BitVec.ofNat 64 f)]
/-- The functions of one operand of R64. -/
def scalarOne : List ((BitVec 5 → BitVec 5 → BitVec 3 → Instr) × (Word → Word)) :=
  [(.clz, fun a => if a = 0 then 64 else BitVec.ofNat 64 (63 - Nat.log2 a.toNat)),
   (.popc, fun a => BitVec.ofNat 64 ((List.range 64).filter fun i => a.getLsbD i).length)]
/-- The functions of R64 that also read their destination. -/
def scalarThree : List ((BitVec 5 → BitVec 5 → BitVec 5 → BitVec 3 → Instr) × (Word → Word → Word → Word)) :=
  [(.madd, fun a b c => BitVec.ofNat 64 (c.toNat + a.toNat * b.toNat)),
   (.csel, fun a b c => if c.toNat = 0 then b else a)]
/-- The divisions of R64. -/
def scalarDiv : List ((BitVec 5 → BitVec 5 → BitVec 5 → BitVec 3 → Instr) × (Word → Word → Word)) :=
  [(.divS, fun a b => if b = 0 then 0xFFFFFFFFFFFFFFFF else if a.toInt = -2 ^ 63 ∧ b.toInt = -1 then 0x8000000000000000
      else BitVec.ofInt 64 (a.toInt.tdiv b.toInt)),
   (.remS, fun a b => if b = 0 then a else if a.toInt = -2 ^ 63 ∧ b.toInt = -1 then 0
      else BitVec.ofInt 64 (a.toInt - b.toInt * a.toInt.tdiv b.toInt)),
   (.divN, fun a b => if b = 0 then 0xFFFFFFFFFFFFFFFF else BitVec.ofNat 64 (a.toNat / b.toNat)),
   (.remN, fun a b => if b = 0 then a else BitVec.ofInt 64 (a.toNat - b.toNat * (a.toNat / b.toNat : Nat)))]

end Sys2Proof.Claims
open Sys2Proof.Claims

/-- DIV.S, DIV.N, REM.S and REM.N (R62, R64): when no operand is awaited and both pass their seal checks the instruction completes and traps
nothing, the divisor 0 included; its result, the quotient or remainder of R64 with a fresh seal, is awaited in g[D], of which no
earlier result is left, until the event of R55 writes it; nothing is awaited when D is 0, and no register, flag, special register or memory changes. -/
def Obligations.DivisionResults : Prop :=
  ∀ r ∈ scalarDiv, ∀ (b a d : BitVec 5) (l : BitVec 3) (s : State),
    s.readyFor l.toNat false [gR a, gR b] = true → (s.seen l.toNat false).clean a.toNat = true → (s.seen l.toNat false).clean b.toNat = true →
    let w := r.2 ((s.seen l.toNat false).gv a.toNat) ((s.seen l.toNat false).gv b.toNat)
    ∃ t, exec (r.1 b a d l) s = .next t ∧ s.sameButCtx t ∧ s.wroteRegs t 4 0 noReg noReg noReg ∧
      (d = 0 → t.x.varp = s.x.varp) ∧
      (d ≠ 0 → (t.x.varp.any fun e => e.reg == gR d && e.res == some (w.setWidth 1024, (sealFn w).setWidth 128)) = true ∧
        (t.x.varp.filter fun e => e.reg == gR d).length = 1 ∧ (t.x.pend.any (·.reg == gR d)) = false)

/-- ADD to XOR, ANDN, the shifts, MIN, MAX, MUL, MULH, the comparisons and BFX (R61, R64): when no operand is awaited and both pass their
seal checks, the instruction completes, g[D] holds the function of g[A] and g[B] with a fresh seal (nothing is written when D is 0), and no other register,
no flag of FPX, no special register and no memory changes. CLZ and POPC read g[A]; MADD and CSEL read g[A], g[B] and their destination (R61, R64). When no operand is awaited and each passes its
seal check, the instruction completes, g[D] holds the result with a fresh seal, and nothing else changes. OR with B = 0 or A = 0, and C.MOV, copy the value and the seal of the other operand to g[D]; they check nothing, so an operand with a failing
seal is copied too, and make no new seal (R43, R53, R61). OR of two registers other than g0 checks both and writes a fresh seal. Nothing
else changes. -/
def Obligations.ScalarArithmeticResults : Prop :=
  (
  ∀ r ∈ scalarTwo, ∀ (b a d : BitVec 5) (l : BitVec 3) (s : State),
    s.readyFor l.toNat false [gR a, gR b] = true → (s.seen l.toNat false).clean a.toNat = true → (s.seen l.toNat false).clean b.toNat = true →
    let w := r.2 ((s.seen l.toNat false).gv a.toNat) ((s.seen l.toNat false).gv b.toNat)
    writesG (r.1 b a d l) s 4 d w (sealFn w)
  ) ∧
  (
  (∀ r ∈ scalarOne, ∀ (a d : BitVec 5) (l : BitVec 3) (s : State),
    s.readyFor l.toNat false [gR a] = true → (s.seen l.toNat false).clean a.toNat = true →
    let w := r.2 ((s.seen l.toNat false).gv a.toNat)
    writesG (r.1 a d l) s 4 d w (sealFn w)) ∧
  (∀ r ∈ scalarThree, ∀ (b a d : BitVec 5) (l : BitVec 3) (s : State),
    s.readyFor l.toNat false [gR a, gR b, gR d] = true → (s.seen l.toNat false).clean a.toNat = true →
    (s.seen l.toNat false).clean b.toNat = true → (s.seen l.toNat false).clean d.toNat = true →
    let w := r.2 ((s.seen l.toNat false).gv a.toNat) ((s.seen l.toNat false).gv b.toNat) ((s.seen l.toNat false).gv d.toNat)
    writesG (r.1 b a d l) s 4 d w (sealFn w))
  ) ∧
  (
  ∀ (b a d : BitVec 5) (l : BitVec 3) (s : State),
    (s.readyFor l.toNat false [gR a] = true →
      writesG (.or 0 a d l) s 4 d ((s.seen l.toNat false).gv a.toNat) ((s.seen l.toNat false).gsl a.toNat)) ∧
    (b ≠ 0 → s.readyFor l.toNat false [gR b] = true →
      writesG (.or b 0 d l) s 4 d ((s.seen l.toNat false).gv b.toNat) ((s.seen l.toNat false).gsl b.toNat)) ∧
    (s.readyFor 0 true [gR a] = true → writesG (.cMov a d) s 2 d (s.x.regs.gv a.toNat) (s.x.regs.gsl a.toNat)) ∧
    (b ≠ 0 → a ≠ 0 → s.readyFor l.toNat false [gR a, gR b] = true → (s.seen l.toNat false).clean a.toNat = true →
      (s.seen l.toNat false).clean b.toNat = true →
      let w := (s.seen l.toNat false).gv a.toNat ||| (s.seen l.toNat false).gv b.toNat
      writesG (.or b a d l) s 4 d w (sealFn w))
  )

namespace Sys2Proof.Claims

/-- The functions of major 0x05 with IMM8 as a signed number (R65). -/
def immediates : List ((BitVec 8 → BitVec 5 → BitVec 5 → BitVec 3 → Instr) × (Word → BitVec 8 → Word)) :=
  [(.addi, fun a i => BitVec.ofInt 64 (a.toInt + i.toInt)),
   (.andi, fun a i => a &&& BitVec.ofInt 64 i.toInt),
   (.ori, fun a i => a ||| BitVec.ofInt 64 i.toInt),
   (.xori, fun a i => a ^^^ BitVec.ofInt 64 i.toInt),
   (.slti, fun a i => oneIf (a.toInt < i.toInt))]
/-- The shifts of major 0x05 (R65). -/
def immediateShifts : List ((BitVec 6 → BitVec 5 → BitVec 5 → BitVec 3 → Instr) × (Word → Nat → Word)) :=
  [(.slli, fun a sh => BitVec.ofNat 64 (a.toNat * 2 ^ sh)),
   (.srli, fun a sh => BitVec.ofNat 64 (a.toNat / 2 ^ sh)),
   (.srai, fun a sh => BitVec.ofInt 64 (a.toInt / 2 ^ sh))]

end Sys2Proof.Claims

/-- ADDI, ANDI, ORI, XORI, SLTI with the sign-extended IMM8 and SLLI, SRLI, SRAI with IMM8[5:0] (R61, R65): when g[A] is not awaited and
passes its seal check the instruction completes, g[D] holds the result with a fresh seal, and nothing else changes. A shift word with IMM8[7:6]
not 0 is no instruction. LI writes the sign-extended IMM16 and reads nothing; LSH shifts g[D] left by 16 and ORs the zero-extended IMM16 (R66); C.LI and C.ADDI are LI and
ADDI of one register with a five-bit signed constant (R53). Each completes when the register it reads is not awaited and passes its seal
check, writes a fresh seal, and changes nothing else. -/
def Obligations.ImmediateAndConstantResults : Prop :=
  (
  (∀ r ∈ immediates, ∀ (i : BitVec 8) (a d : BitVec 5) (l : BitVec 3) (s : State),
    s.readyFor l.toNat false [gR a] = true → (s.seen l.toNat false).clean a.toNat = true →
    let w := r.2 ((s.seen l.toNat false).gv a.toNat) i
    writesG (r.1 i a d l) s 4 d w (sealFn w)) ∧
  (∀ r ∈ immediateShifts, ∀ (i : BitVec 6) (a d : BitVec 5) (l : BitVec 3) (s : State),
    s.readyFor l.toNat false [gR a] = true → (s.seen l.toNat false).clean a.toNat = true →
    let w := r.2 ((s.seen l.toNat false).gv a.toNat) i.toNat
    writesG (r.1 i a d l) s 4 d w (sealFn w)) ∧
  (∀ w : BitVec 32, fld w 0 2 = 3 → fld w 2 6 = 5 → 4 ≤ (fld w 29 3).toNat → (fld w 29 3).toNat ≤ 6 → fld w 27 2 ≠ 0 →
    ∀ i, decode32 w ≠ .ok i)
  ) ∧
  (
  ∀ (i : BitVec 16) (j d : BitVec 5) (l : BitVec 3) (s : State),
    (let w := BitVec.ofInt 64 i.toInt
     s.readyFor l.toNat false [] = true → writesG (.li i d l) s 4 d w (sealFn w)) ∧
    (let w := BitVec.ofInt 64 j.toInt
     s.readyFor 0 true [] = true → writesG (.cLi j d) s 2 d w (sealFn w)) ∧
    (s.readyFor l.toNat false [gR d] = true → (s.seen l.toNat false).clean d.toNat = true →
      let w := BitVec.ofNat 64 (((s.seen l.toNat false).gv d.toNat).toNat * 2 ^ 16 + i.toNat)
      writesG (.lsh i d l) s 4 d w (sealFn w)) ∧
    (s.readyFor 0 true [gR d] = true → s.x.regs.clean d.toNat = true →
      let w := BitVec.ofInt 64 ((s.x.regs.gv d.toNat).toInt + j.toInt)
      writesG (.cAddi j d) s 2 d w (sealFn w))
  )

/-- After ADD (latency 1) or MUL (latency 3) in trust mode with no earlier result in flight, an instruction with stall count m that comes next
reads the new g[D] when 1 + m reaches the latency and the value g[D] held before when it does not (R54, R55, R62); in check mode that
instruction is not ready to read g[D] before its latency. -/
def Obligations.TrustDistance : Prop :=
  ∀ r ∈ [(Instr.add, 1), (Instr.mul, 3)], ∀ (b a d : BitVec 5) (l : BitVec 3) (s t : State) (m : Nat),
    s.readyFor l.toNat false [gR a, gR b] = true → (s.seen l.toNat false).clean a.toNat = true → (s.seen l.toNat false).clean b.toNat = true →
    d ≠ 0 → s.x.pend = [] → s.x.varp = [] → exec (r.1 b a d l) s = .next t →
    (s.scbMode = 0 → (t.seen m false).gv d.toNat = if r.2 ≤ 1 + m then t.x.regs.gv d.toNat else s.x.regs.gv d.toNat) ∧
    (s.scbMode = 2 → t.readyFor m false [gR d] = decide (r.2 ≤ 1 + m))

/-! ## Control flow and traps -/

namespace Sys2Proof.Claims

/-- Of the whole state only the PC, the loop stack and the distances of results in flight may differ, and one instruction is counted. -/
structure onlyFlow (s t : State) : Prop where
  rest : s.sameButCtx t
  kept : s.x.kept t.x
  regs : t.x.regs = s.x.regs
  fpx : t.x.fpx = s.x.fpx
  varp : t.x.varp = s.x.varp
/-- The loop stack after a taken transfer to target: entries pushed at this call depth whose body does not hold target are popped (R71). -/
def popped (s : State) (target : Word) : List LoopEntry :=
  s.x.loops.dropWhile fun e => decide (e.depth = s.cd) && !decide (e.start.toNat ≤ target.toNat ∧ target.toNat < e.fin.toNat)
/-- The branch completes: to PC + 2 off by the rule on taken transfers when take holds, else in sequential flow after len bytes. -/
def branches (i : Instr) (s : State) (take : Prop) (off : Int) (len : Nat) : Prop :=
  ∃ t, exec i s = .next t ∧ onlyFlow s t ∧
    (take → let q := s.x.pc + BitVec.ofInt 64 (2 * off)
      s.wentOn t q (popped s q)) ∧ (¬ take → s.wentOnBy t len)
/-- The branches of R67 on two g registers. -/
def branchesTwo : List ((BitVec 11 → BitVec 5 → BitVec 5 → Instr) × (Word → Word → Prop)) :=
  [(.beq, fun a b => a = b), (.bne, fun a b => a ≠ b), (.bltS, fun a b => a.toInt < b.toInt), (.bgeS, fun a b => b.toInt ≤ a.toInt),
   (.bltN, fun a b => a.toNat < b.toNat), (.bgeN, fun a b => b.toNat ≤ a.toNat)]

end Sys2Proof.Claims

/-- BEQ, BNE, BLT, BGE on two checked g registers, BKANY and BKNONE on a k register and C.BEQZ and C.BNEZ on one g register (R53, R67): when the
registers are not awaited and pass their seal checks, the branch completes, goes to PC + 2 sext(OFF) by the rule on taken transfers (R71) when
its condition holds and on in sequential flow (R70) when it does not, and changes nothing but the PC and the loop stack. J and C.J go to PC + 2 sext(OFF), JR to g[A], by the rule on taken transfers (R68, R71), and nothing else changes; J and C.J always complete, JR when
g[A] is not awaited, passes its seal check and is even; an odd g[A] traps ALIGN with the target in TINFO0. -/
def Obligations.BranchAndJumpResults : Prop :=
  (
  (∀ r ∈ branchesTwo, ∀ (o : BitVec 11) (b a : BitVec 5) (s : State),
    s.readyFor 0 false [gR a, gR b] = true → (s.seen 0 false).clean a.toNat = true → (s.seen 0 false).clean b.toNat = true →
    branches (r.1 o b a) s (r.2 ((s.seen 0 false).gv a.toNat) ((s.seen 0 false).gv b.toNat)) o.toInt 4) ∧
  (∀ (o : BitVec 11) (a : BitVec 3) (s : State), s.readyFor 0 false [kR a] = true →
    branches (.bkany o a) s ((s.seen 0 false).kv a.toNat ≠ 0) o.toInt 4 ∧ branches (.bknone o a) s ((s.seen 0 false).kv a.toNat = 0) o.toInt 4) ∧
  (∀ (o a : BitVec 5) (s : State), s.readyFor 0 true [gR a] = true → s.x.regs.clean a.toNat = true →
    branches (.cBeqz o a) s (s.x.regs.gv a.toNat = 0) o.toInt 2 ∧ branches (.cBnez o a) s (s.x.regs.gv a.toNat ≠ 0) o.toInt 2)
  ) ∧
  (
  (∀ (o : BitVec 23) (s : State), s.readyFor 0 false [] = true →
    ∃ t, exec (.j o) s = .next t ∧ onlyFlow s t ∧
      s.wentOn t (s.x.pc + BitVec.ofInt 64 (2 * o.toInt)) (popped s (s.x.pc + BitVec.ofInt 64 (2 * o.toInt)))) ∧
  (∀ (o : BitVec 10) (s : State), s.readyFor 0 true [] = true →
    ∃ t, exec (.cJ o) s = .next t ∧ onlyFlow s t ∧
      s.wentOn t (s.x.pc + BitVec.ofInt 64 (2 * o.toInt)) (popped s (s.x.pc + BitVec.ofInt 64 (2 * o.toInt)))) ∧
  (∀ (a : BitVec 5) (l : BitVec 3) (s : State), s.readyFor l.toNat false [gR a] = true → (s.seen l.toNat false).clean a.toNat = true →
    let q := (s.seen l.toNat false).gv a.toNat
    (q.toNat % 2 = 0 → ∃ t, exec (.jr a l) s = .next t ∧ onlyFlow s t ∧ s.wentOn t q (popped s q)) ∧
    (q.toNat % 2 = 1 → exec (.jr a l) s = .next (takeTrap s 0x03 q 0 s.x.pc) ∧ exec (.callr a l) s = .next (takeTrap s 0x03 q 0 s.x.pc)))
  )

namespace Sys2Proof.Claims

/-- The call completes at q with ret pushed: as the newest of the return stack; where it held sixteen, its oldest goes to LM at TOP with a
fresh seal and TOP advances by 8 bytes (R74). -/
def calls (i : Instr) (s : State) (q ret : Word) : Prop :=
  ∃ t, exec i s = .next t ∧ s.wentOn t q s.x.loops ∧ t.x.regs = s.x.regs ∧ t.x.fpx = s.x.fpx ∧ t.x.firing = s.x.firing ∧ s.sameButLm t ∧
    (s.x.rstack.length < 16 → t.x.rstack = ret :: s.x.rstack ∧ t.x.rspTop = s.x.rspTop ∧ t.c.m = s.c.m) ∧
    (16 ≤ s.x.rstack.length →
      t.x.rstack = ret :: s.x.rstack.dropLast ∧ t.x.rspTop = s.x.rspTop + 1 ∧
      t.c.m.lm.gran s.x.rspTop.toNat = s.x.rstack.getLastD 0 ∧ t.c.m.lm.sealOf s.x.rspTop.toNat = sealFn (s.x.rstack.getLastD 0) ∧
      (∀ a, a < 8 * s.x.rspTop.toNat ∨ 8 * s.x.rspTop.toNat + 8 ≤ a → t.c.m.lm.byte a = s.c.m.lm.byte a) ∧
      (∀ g, g ≠ s.x.rspTop.toNat → t.c.m.lm.sealOf g = s.c.m.lm.sealOf g))
/-- The spill slot may be written as an STL.64 writes it. -/
def mayspill (s : State) : Prop := 16 ≤ s.x.rstack.length → s.lmOk (s.x.rspTop.setWidth 64 <<< 3) 8 8 = true

end Sys2Proof.Claims

namespace Sys2Proof.Claims

/-- The loop stack and PC after a return to q with call depth cd after it: every deeper entry is popped, then the end check runs with p = q - 4 (R71). -/
def afterReturn (s : State) (cd : Int) (q : Word) : List LoopEntry × Word :=
  endCheck cd (q - 4) q (s.x.loops.filter fun e => decide (e.depth ≤ cd))
/-- What RET and C.RET do (R74). -/
def returns (i : Instr) (s : State) : Prop :=
  (∀ q r, s.x.rstack = q :: r → q.toNat % 2 = 0 →
    ∃ t, exec i s = .next t ∧ s.sameButCtx t ∧ t.x.rstack = r ∧ t.x.rspTop = s.x.rspTop ∧ t.x.regs = s.x.regs ∧ t.x.fpx = s.x.fpx ∧
      t.x.firing = s.x.firing ∧ s.wentOn t (afterReturn s (s.cd - 1) q).2 (afterReturn s (s.cd - 1) q).1) ∧
  (s.x.rstack = [] → s.rspBase.toNat < s.x.rspTop.toNat → s.loadOk ((s.x.rspTop - 1).setWidth 64 <<< 3) 8 8 = true →
    let gr := (s.x.rspTop - 1).toNat
    let q := s.c.m.lm.gran gr
    syn q (s.c.m.lm.sealOf gr) = 0 → q.toNat % 2 = 0 →
    ∃ t, exec i s = .next t ∧ s.sameButCtx t ∧ t.x.rstack = [] ∧ t.x.rspTop = s.x.rspTop - 1 ∧ t.x.regs = s.x.regs ∧ t.x.fpx = s.x.fpx ∧
      t.x.firing = s.x.firing ∧ s.wentOn t (afterReturn s (s.cd - 1) q).2 (afterReturn s (s.cd - 1) q).1) ∧
  (s.x.rstack = [] → s.rspBase.toNat < s.x.rspTop.toNat → s.loadOk ((s.x.rspTop - 1).setWidth 64 <<< 3) 8 8 = true →
    let gr := (s.x.rspTop - 1).toNat
    let q := s.c.m.lm.gran gr
    syn q (s.c.m.lm.sealOf gr) = 0 → q.toNat % 2 = 1 → exec i s = .next (takeTrap s 0x03 q 0 s.x.pc)) ∧
  (s.x.rstack = [] → s.x.rspTop.toNat ≤ s.rspBase.toNat → exec i s = .next (takeTrap s 0x0C 0 s.rsp s.x.pc)) ∧
  (∀ q r, s.x.rstack = q :: r → q.toNat % 2 = 1 → exec i s = .next (takeTrap s 0x03 q 0 s.x.pc))

end Sys2Proof.Claims

/-- CALL goes to PC + 2 sext(OFF23) and CALLR to an even g[A]; both push PC + 4, and pop no loop entry (R68, R71, R74). With fewer than sixteen return
addresses held, memory is unchanged; with sixteen, the oldest is written with its seal to the eight LM bytes at TOP, when they may be
written, every other byte and seal of LM is unchanged, and TOP advances. No register and no flag changes. RET and C.RET take the newest return address, or with none held in hardware the one that LM holds below TOP, checked (R74); they pop every loop entry
deeper than the call depth that results and run the end check with q the address (R70, R71). No register, flag or byte of memory changes. With nothing to
return to they trap RSEMPTY with RSP in TINFO1, and an odd address, held in hardware or read from LM, traps ALIGN with it in TINFO0; then nothing else has
changed. -/
def Obligations.CallAndReturnResults : Prop :=
  (
  (∀ (o : BitVec 23) (s : State), s.readyFor 0 false [] = true → mayspill s →
    calls (.call o) s (s.x.pc + BitVec.ofInt 64 (2 * o.toInt)) (s.x.pc + 4)) ∧
  (∀ (a : BitVec 5) (l : BitVec 3) (s : State), s.readyFor l.toNat false [gR a] = true → (s.seen l.toNat false).clean a.toNat = true →
    ((s.seen l.toNat false).gv a.toNat).toNat % 2 = 0 → mayspill s →
    calls (.callr a l) s ((s.seen l.toNat false).gv a.toNat) (s.x.pc + 4))
  ) ∧
  (
  (∀ (l : BitVec 3) (s : State), s.readyFor l.toNat false [] = true → returns (.ret l) s) ∧
  (∀ s : State, s.readyFor 0 true [] = true → returns .cRet s)
  )

/-- LOOP with fewer than four entries reads and checks g[A] (R69): a count g[A][31:0] other than 0 pushes the entry (PC + 4, E, count, call depth)
and goes on at PC + 4, a count of 0 goes on in sequential flow with successor E = PC + 2 END11, the end check of R70 applying to both. With four
entries it traps LOOPDEPTH, whatever the count. Nothing else changes. The end check with p the instruction's address and q its sequential successor (R70): with no entry the PC is q; a top entry of another depth, whose
body does not hold p, or whose end q has not reached, leaves everything and the PC is q; a top entry on its last pass (count at most 1) is
popped and the next is tested with the same p and q; otherwise its count is one less and the PC is its start, so that a body of count N closes N - 1 times
before it is left. -/
def Obligations.LoopResultsAndEndCheck : Prop :=
  (
  ∀ (e : BitVec 11) (a : BitVec 5) (l : BitVec 3) (s : State), s.readyFor l.toNat false [gR a] = true →
    let n := ((s.seen l.toNat false).gv a.toNat).setWidth 32
    let fin := s.x.pc + BitVec.ofNat 64 (2 * e.toNat)
    (s.x.loops.length < 4 → (s.seen l.toNat false).clean a.toNat = true → n = 0 →
      ∃ t, exec (.loop e a l) s = .next t ∧ onlyFlow s t ∧ s.wentOn t (endCheck s.cd s.x.pc fin s.x.loops).2 (endCheck s.cd s.x.pc fin s.x.loops).1) ∧
    (s.x.loops.length < 4 → (s.seen l.toNat false).clean a.toNat = true → n ≠ 0 →
      let ls : List LoopEntry := ⟨s.x.pc + 4, fin, n, s.cd⟩ :: s.x.loops
      ∃ t, exec (.loop e a l) s = .next t ∧ onlyFlow s t ∧ s.wentOn t (endCheck s.cd s.x.pc (s.x.pc + 4) ls).2 (endCheck s.cd s.x.pc (s.x.pc + 4) ls).1) ∧
    (4 ≤ s.x.loops.length → exec (.loop e a l) s = .next (takeTrap s 0x0D 0 s.x.lc s.x.pc))
  ) ∧
  (
  ∀ (cd : Int) (p q : Word) (e : LoopEntry) (ls : List LoopEntry),
    endCheck cd p q [] = ([], q) ∧
    ((e.depth ≠ cd ∨ ¬ (e.start.toNat ≤ p.toNat ∧ p.toNat < e.fin.toNat) ∨ q.toNat < e.fin.toNat) → endCheck cd p q (e :: ls) = (e :: ls, q)) ∧
    (e.depth = cd → e.start.toNat ≤ p.toNat → p.toNat < e.fin.toNat → e.fin.toNat ≤ q.toNat →
      (e.count.toNat ≤ 1 → endCheck cd p q (e :: ls) = endCheck cd p q ls) ∧
      (∀ n, 1 < n → e.count = BitVec.ofNat 32 n → n < 2 ^ 32 →
        endCheck cd p q (e :: ls) = ({ e with count := BitVec.ofNat 32 (n - 1) } :: ls, e.start)))
  )

/-- NOP and C.NOP change nothing but the PC (R75). TRAP takes SOFT with g[A], whose seal is not checked, in TINFO0 and PC + 4 in TINFO1; BRK takes
BREAK with TINFO0 = 0 and PC + 4 in TINFO1; TPC is the address of the instruction itself, whose cost counts towards the distances of R54 (R390). END and C.END end the firing (R76): the registers, FPX, the loop stack, the return stack and every result in flight are discarded, the context is
left without a firing at level U with no trap active; loads of the context no longer wait for a result; its watch entries are free (R233); a slot that an ordinary firing
consumed is free again; stores, stream work, LM, home memory and the other contexts are as before.  That END does the same at level S and in a context
without a firing, which it leaves at level U with TACT 0, is the model's choice (log 68): R76 names no level. -/
def Obligations.NopTrapBreakAndEndResults : Prop :=
  (
  ∀ (a : BitVec 5) (l : BitVec 3) (s : State),
    (s.readyFor l.toNat false [] = true → ∃ t, exec (.nop l) s = .next t ∧ onlyFlow s t ∧ s.wentOnBy t 4) ∧
    (s.readyFor 0 true [] = true → ∃ t, exec .cNop s = .next t ∧ onlyFlow s t ∧ s.wentOnBy t 2) ∧
    (s.readyFor l.toNat false [gR a] = true →
      exec (.trap a l) s = .next (takeTrap (s.issued l.toNat) 0x13 ((s.seen l.toNat false).gv a.toNat) (s.x.pc + 4) s.x.pc)) ∧
    (s.readyFor l.toNat false [] = true → exec (.brk l) s = .next (takeTrap (s.issued l.toNat) 0x14 0 (s.x.pc + 4) s.x.pc))
  ) ∧
  (
  ∀ (i : Instr) (s : State), ((∃ l : BitVec 3, i = .endFiring l ∧ s.readyFor l.toNat false [] = true) ∨ (i = .cEnd ∧ s.readyFor 0 true [] = true)) →
    ∃ t, exec i s = .next t ∧ t.x.regs = .zero ∧ t.x.fpx = 0 ∧ t.x.loops = [] ∧ t.x.rstack = [] ∧ t.x.pend = [] ∧ t.x.varp = [] ∧
      t.x.firing = none ∧ t.x.trap = { s.x.trap with pl := false, tact := false } ∧ t.stalled = s.stalled ∧
      s.sameOutside t ∧ s.sameContexts t ∧ t.c.m.lm = s.c.m.lm ∧ t.c.m.stores = s.c.m.stores ∧ t.c.streams = s.c.streams ∧ t.c.outbound = s.c.outbound ∧
      (∀ r ∈ t.c.m.far, r.ctx = s.curCtx → ∀ reg, r.kind ≠ .load reg) ∧ (∀ w ∈ t.c.m.watch, w.2.ctx ≠ s.curCtx) ∧
      (∀ f a, s.x.firing = some f → f.join = false → s.c.actor f.actor = some a → ∀ n ∈ f.slots,
        ∃ a', t.c.actor f.actor = some a' ∧ tget .free (tget .disabled a'.mbs f.mb).slots n = .free)
  )

/-- Taking a trap with TACT clear (R350) saves the code with the level it came from in TCODE, the PC given in TPC and the information in TINFO0 and TINFO1,
sets PPL to the level, the level to S and TACT, names the firing's actor in ACTSEL and goes to the entry that TVEC gives; a vector result on its way has been written (R105), and but for that
registers, flags, stacks, results in flight and memory are as before. With TACT set (R353) the context stops for good, the core reports a failure, and the trap registers stay. -/
def Obligations.TrapEntry : Prop :=
  ∀ (s : State) (code : Nat) (i0 i1 tpc : Word), code < 256 →
    let t := takeTrap s code i0 i1 tpc
    (s.x.trap.tact = false →
      t.x.trap.pl = true ∧ t.x.trap.ppl = s.x.trap.pl ∧ t.x.trap.tact = true ∧
      t.x.trap.tcode = BitVec.ofNat 9 (code + if s.x.trap.pl then 256 else 0) ∧ t.x.trap.tpc = tpc ∧ t.x.trap.tinfo0 = i0 ∧ t.x.trap.tinfo1 = i1 ∧
      t.x.pc = BitVec.ofNat 64 (2 * s.c.tvec.toNat) ∧
      (∀ f, s.x.firing = some f → t.x.trap.actsel = BitVec.ofNat 4 f.actor) ∧
      (t.x.trap.ssx0 = s.x.trap.ssx0 ∧ t.x.trap.ssx1 = s.x.trap.ssx1 ∧ t.x.trap.ssx2 = s.x.trap.ssx2 ∧ t.x.trap.ssx3 = s.x.trap.ssx3) ∧
      { t.x with trap := s.x.trap, pc := s.x.pc, firing := s.x.firing, loadG := s.x.loadG, swapWait := s.x.swapWait, swait := s.x.swait } = s.x.vecDone ∧
      (∀ e ∈ t.x.varp, e.vector = none) ∧ ((∀ e ∈ s.x.varp, e.vector = none) → s.x.vecDone = s.x) ∧
      s.sameOutside t ∧ s.sameContexts t ∧ { t.c with ctxs := s.c.ctxs } = s.c) ∧
    (s.x.trap.tact = true →
      t.x.dead = true ∧ t.c.failed = true ∧ t.power.failures = s.power.failures ++ [s.cur] ∧ t.x.trap = s.x.trap ∧
      { t.x with dead := s.x.dead } = s.x.vecDone ∧ t.home = s.home)

/-! ## Local memory -/

namespace Sys2Proof.Claims

/-- The n bytes at address a as a little-endian number (R23). -/
def bytesAt (m : Mem) (a : Nat) : Nat → Nat
  | 0 => 0
  | n + 1 => (m.byte a).toNat + 256 * bytesAt m (a + 1) n
/-- The value of n loaded bytes, extended by the sign or by zeros to 64 bits. -/
def extended (v n : Nat) (signed : Bool) : Word := if signed = true ∧ 2 ^ (8 * n - 1) ≤ v then BitVec.ofInt 64 ((v : Int) - 2 ^ (8 * n)) else BitVec.ofNat 64 v
/-- g[A] + sext(OFF8) × s, modulo 2^64 (R88). -/
def address (base : Word) (o : BitVec 8) (n : Nat) : Word := BitVec.ofInt 64 ((base.toNat : Int) + o.toInt * n)
/-- The syndrome that the granule holding a carries (R45, R89). -/
def carried (m : Mem) (a : Nat) : Byte := syn (m.gran (a / 8)) (m.sealOf (a / 8))
/-- The scalar loads of R89: form, bytes, whether signed. -/
def localLoads : List ((BitVec 8 → BitVec 5 → BitVec 5 → BitVec 3 → Instr) × Nat × Bool) :=
  [(.ldlS8, 1, true), (.ldlN8, 1, false), (.ldlS16, 2, true), (.ldlN16, 2, false), (.ldlS32, 4, true), (.ldlN32, 4, false), (.ldl64, 8, false)]
/-- The scalar stores of R90: form, bytes. -/
def localStores : List ((BitVec 8 → BitVec 5 → BitVec 5 → BitVec 3 → Instr) × Nat) := [(.stl8, 1), (.stl16, 2), (.stl32, 4), (.stl64, 8)]
/-- log2 of the access size, or 7 for 128 bytes (R102). -/
def sizeField (n : Nat) : Nat := if n = 128 then 7 else Nat.log2 n

end Sys2Proof.Claims

namespace Sys2Proof.Claims

/-- Of the acting context only the PC, the loop stack and the distances change. -/
structure flowOnly (s t : State) (len : Nat) : Prop where
  kept : s.x.kept t.x
  regs : t.x.regs = s.x.regs
  fpx : t.x.fpx = s.x.fpx
  on : s.wentOnBy t len
/-- The store completes after len bytes: the n bytes at ad become those of v, their granule has seal sl, and no other byte or seal of LM and nothing else
changes. -/
def storesLm (i : Instr) (s : State) (len ad n : Nat) (v : Nat) (sl : Mem → Byte) : Prop :=
  ∃ t, exec i s = .next t ∧ s.sameButLm t ∧ flowOnly s t len ∧
    (∀ j, j < n → t.c.m.lm.byte (ad + j) = BitVec.ofNat 8 (v / 2 ^ (8 * j))) ∧
    (∀ a, a < ad ∨ ad + n ≤ a → t.c.m.lm.byte a = s.c.m.lm.byte a) ∧
    t.c.m.lm.sealOf (ad / 8) = sl t.c.m.lm ∧ (∀ g, g ≠ ad / 8 → t.c.m.lm.sealOf g = s.c.m.lm.sealOf g)

end Sys2Proof.Claims

/-- LDL.S8 to LDL.64 and C.LDL (R53, R88, R89): when g[A] is not awaited and passes its seal check and the bytes at g[A] + sext(OFF8) s are aligned
data of the window, not awaited from an MSTZ or a landing, the load completes; g[D] holds the bytes read little-endian, extended by the sign or by
zeros, with the seal of the value XOR the syndrome of the granule, for LDL.64 the granule's own seal; nothing else changes, no byte of memory among it. STL.8 to STL.64 and C.STL (R53, R88, R90): when the registers are not awaited, g[A] passes its seal check and the bytes addressed are aligned data of
the window, the store completes. STL.64 and C.STL move g[D] and its seal to the granule and check neither; a narrower store, when g[D] and the old granule
pass their checks, replaces its bytes by the low bytes of g[D] and seals the new granule. Every other byte and seal of LM, every register and everything
else is unchanged. -/
def Obligations.LocalMemoryResults : Prop :=
  (
  (∀ r ∈ localLoads, ∀ (o : BitVec 8) (a d : BitVec 5) (l : BitVec 3) (s : State),
    s.readyFor l.toNat false [gR a] = true → (s.seen l.toNat false).clean a.toNat = true →
    let ad := address ((s.seen l.toNat false).gv a.toNat) o r.2.1
    s.loadOk ad r.2.1 r.2.1 = true →
    let w := extended (bytesAt s.c.m.lm ad.toNat r.2.1) r.2.1 r.2.2
    writesG (r.1 o a d l) s 4 d w (if r.2.1 = 8 then s.c.m.lm.sealOf (ad.toNat / 8) else sealFn w ^^^ carried s.c.m.lm ad.toNat)) ∧
  (∀ (a d : BitVec 5) (s : State), s.readyFor 0 true [gR a] = true → s.x.regs.clean a.toNat = true →
    let ad := s.x.regs.gv a.toNat
    s.loadOk ad 8 8 = true →
    writesG (.cLdl a d) s 2 d (BitVec.ofNat 64 (bytesAt s.c.m.lm ad.toNat 8)) (s.c.m.lm.sealOf (ad.toNat / 8)))
  ) ∧
  (
  (∀ r ∈ localStores, ∀ (o : BitVec 8) (a d : BitVec 5) (l : BitVec 3) (s : State),
    s.readyFor l.toNat false [gR a, gR d] = true → (s.seen l.toNat false).clean a.toNat = true →
    let ad := address ((s.seen l.toNat false).gv a.toNat) o r.2
    s.lmOk ad r.2 r.2 = true → (r.2 < 8 → (s.seen l.toNat false).clean d.toNat = true ∧ carried s.c.m.lm ad.toNat = 0) →
    storesLm (r.1 o a d l) s 4 ad.toNat r.2 ((s.seen l.toNat false).gv d.toNat).toNat
      (fun m => if r.2 = 8 then (s.seen l.toNat false).gsl d.toNat else sealFn (m.gran (ad.toNat / 8)))) ∧
  (∀ (a b : BitVec 5) (s : State), s.readyFor 0 true [gR a, gR b] = true → s.x.regs.clean a.toNat = true → s.lmOk (s.x.regs.gv a.toNat) 8 8 = true →
    storesLm (.cStl a b) s 2 (s.x.regs.gv a.toNat).toNat 8 (s.x.regs.gv b.toNat).toNat (fun _ => s.x.regs.gsl b.toNat))
  )

namespace Sys2Proof.Claims

/-- The instruction completes after len bytes and writes v[d] and its seals, and nothing else changes. -/
def writesV (i : Instr) (s : State) (len : Nat) (fl : BitVec 6) (d : BitVec 5) (w : Vec) (sl : VSeals) : Prop :=
  ∃ t, exec i s = .next t ∧ s.sameButCtx t ∧ s.wroteRegs t len fl noReg (oneReg d) noReg ∧ t.x.regs.vv d.toNat = w ∧ t.x.regs.vsl d.toNat = sl

end Sys2Proof.Claims

/-- When the registers are not awaited, g[A] passes its check and the 128 bytes (VBCL: the 4 bytes) addressed are aligned data of the window, not
awaited from an MSTZ or, for a load, a landing: VLDL moves them with their 16 seals to v[D]; VSTL moves v[D] and its seals to them, every
other byte and seal of LM unchanged; VBCL writes the word in every lane, the seal of each pair being that of the pair XOR the
syndrome of the granule (R91). Nothing else changes. When the registers are not awaited and pass their checks, the base g[A] + 128 sext(OFF8) is a multiple of 4 and the word of every lane i at the base plus
the offset in lane i of v[D] is aligned data of the window: VGATL completes with each word in its lane, each pair of which carries 0xA5 if
either granule does, else the first other syndrome (R92); VSCATL, when every old granule passes its check, completes with lane i of
v[(D + 1) mod 32] stored at its address unless a higher lane names that address, each written granule freshly sealed, and every other byte and seal of LM
unchanged. Nothing else changes. -/
def Obligations.VectorLocalMemoryResults : Prop :=
  (
  ∀ (o : BitVec 8) (a d : BitVec 5) (l : BitVec 3) (s : State),
    s.readyFor l.toNat false [gR a] = true → (s.seen l.toNat false).clean a.toNat = true →
    let ad := address ((s.seen l.toNat false).gv a.toNat) o 128
    let aw := address ((s.seen l.toNat false).gv a.toNat) o 4
    (s.loadOk ad 128 128 = true → ∃ w sl, writesV (.vldl o a d l) s 4 0 d w sl ∧
      ∀ j, j < 16 → pair w j = s.c.m.lm.gran (ad.toNat / 8 + j) ∧ pairSeal sl j = s.c.m.lm.sealOf (ad.toNat / 8 + j)) ∧
    (s.readyFor l.toNat false [gR a, vR d] = true → s.lmOk ad 128 128 = true →
      ∃ t, exec (.vstl o a d l) s = .next t ∧ s.sameButLm t ∧ flowOnly s t 4 ∧
        (∀ j, j < 16 → t.c.m.lm.gran (ad.toNat / 8 + j) = pair ((s.seen l.toNat false).vv d.toNat) j ∧
          t.c.m.lm.sealOf (ad.toNat / 8 + j) = pairSeal ((s.seen l.toNat false).vsl d.toNat) j) ∧
        (∀ b, b < ad.toNat ∨ ad.toNat + 128 ≤ b → t.c.m.lm.byte b = s.c.m.lm.byte b) ∧
        (∀ g, g < ad.toNat / 8 ∨ ad.toNat / 8 + 16 ≤ g → t.c.m.lm.sealOf g = s.c.m.lm.sealOf g)) ∧
    (s.loadOk aw 4 4 = true → ∃ w sl, writesV (.vbcl o a d l) s 4 0 d w sl ∧
      (∀ i, i < 32 → lane w i = BitVec.ofNat 32 (bytesAt s.c.m.lm aw.toNat 4)) ∧
      ∀ j, j < 16 → pairSeal sl j = sealFn (pair w j) ^^^ carried s.c.m.lm aw.toNat)
  ) ∧
  (
  ∀ (o : BitVec 8) (a d : BitVec 5) (l : BitVec 3) (s : State),
    let e : BitVec 5 := d + 1
    let r := s.seen l.toNat false
    let ad := fun i => address (r.gv a.toNat) o 128 + (lane (r.vv d.toNat) i).setWidth 64
    r.clean a.toNat = true → r.cleanV d.toNat (List.range 16) = true → (address (r.gv a.toNat) o 128).toNat % 4 = 0 →
    (s.readyFor l.toNat false [gR a, vR d] = true → (∀ i, i < 32 → s.loadOk (ad i) 4 4 = true) →
      ∃ w sl, writesV (.vgatl o a d l) s 4 0 d w sl ∧
        (∀ i, i < 32 → lane w i = BitVec.ofNat 32 (bytesAt s.c.m.lm (ad i).toNat 4)) ∧
        ∀ j, j < 16 → let y := carried s.c.m.lm (ad (2 * j)).toNat
          let z := carried s.c.m.lm (ad (2 * j + 1)).toNat
          pairSeal sl j = sealFn (pair w j) ^^^ (if y = 0xA5 ∨ z = 0xA5 then 0xA5 else if y = 0 then z else y)) ∧
    (s.readyFor l.toNat false [gR a, vR d, vR e] = true → r.cleanV e.toNat (List.range 16) = true →
      (∀ i, i < 32 → s.lmOk (ad i) 4 4 = true ∧ carried s.c.m.lm (ad i).toNat = 0) →
      ∃ t, exec (.vscatl o a d l) s = .next t ∧ s.sameButLm t ∧ flowOnly s t 4 ∧
        (∀ i, i < 32 → (∀ k, i < k → k < 32 → ad k ≠ ad i) → bytesAt t.c.m.lm (ad i).toNat 4 = (lane (r.vv e.toNat) i).toNat) ∧
        (∀ b, (∀ i, i < 32 → b < (ad i).toNat ∨ (ad i).toNat + 4 ≤ b) → t.c.m.lm.byte b = s.c.m.lm.byte b) ∧
        (∀ i, i < 32 → t.c.m.lm.sealOf ((ad i).toNat / 8) = sealFn (t.c.m.lm.gran ((ad i).toNat / 8))) ∧
        (∀ g, (∀ i, i < 32 → g ≠ (ad i).toNat / 8) → t.c.m.lm.sealOf g = s.c.m.lm.sealOf g))
  )

/-! ## Global memory -/

namespace Sys2Proof.Claims

/-- The global loads of R93: form, bytes, destination. -/
def globalLoads : List ((BitVec 8 → BitVec 5 → BitVec 5 → BitVec 3 → Instr) × Nat × (BitVec 5 → RegId)) :=
  [(.ldg32, 4, gR), (.ldg64, 8, gR), (.vldg, 128, vR)]
/-- The global stores of R93. -/
def globalStores : List ((BitVec 8 → BitVec 5 → BitVec 5 → BitVec 3 → Instr) × Nat × (BitVec 5 → RegId)) :=
  [(.stg32, 4, gR), (.stg64, 8, gR), (.vstg, 128, vR)]
/-- Home memory, its frames, LM, the core cache and every other core and context are as before; translation may have filled its buffers (R357). -/
structure memorySame (s t : State) : Prop where
  home : t.home.mem = s.home.mem ∧ t.home.frames = s.home.frames ∧ t.home.locks = s.home.locks
  cores : ∀ n, n ≠ s.cur → t.core n = s.core n
  contexts : s.sameContexts t
  lm : t.c.m.lm = s.c.m.lm
  actors : t.c.actors = s.c.actors
/-- An access of the acting core to va that translation and permission allow (R93, R356). -/
def reaches (s : State) (va : Word) (write : Bool) (x : Xlat) : Prop :=
  va.toNat < 2 ^ 56 ∧ (s.translate s.cur s.c.partNo va.toNat).1 = .ok x ∧ x.owner = some s.c.partNo ∧ (write = true → x.wr = true)
/-- A granule of a cache stands at home with its value and seal, unless the home refuses the partition or takes no part (R84, R356, R399). -/
def atHome (s t : State) (g : Nat) (q : Line) : Prop :=
  s.denied q.part (8 * g) = false → s.lostAt g = false → t.home.mem.gran g = q.val ∧ t.home.mem.sealOf g = q.sl
/-- A granule that the acting core writes back stands, with its value and seal, dirty in the cluster cache or at home; an eave core has it at home (R83, R407). -/
def wroteBack (s t : State) (g : Nat) (q : Line) : Prop :=
  (isEave s.cur = false ∧ ∃ r, cacheAt (t.cluster (clusterOf s.cur)).cache g = some r ∧ r.val = q.val ∧ r.sl = q.sl ∧ r.dirty = true) ∨ atHome s t g q
/-- The granules that n bytes at physical address pa touch. -/
def granulesAt (pa n : Nat) : List Nat := (List.range ((n + 7) / 8)).map fun i => pa / 8 + i
/-- Nothing holds a load of n bytes at va, pa back: no update stream with the grants as they stood at its issue, no
earlier access of the context to its granules through the same aperture, no locked line (R86, R95). -/
def unheld (s : State) (va : Word) (pa n : Nat) (hd : Bool) : Prop :=
  s.c.streamHolds va n (s.x.loadG.getD s.c.grants) = false ∧ s.c.pendingAt s.curCtx hd (granulesAt pa n) = false ∧ ∀ g ∈ granulesAt pa n, s.locked g = false

end Sys2Proof.Claims

/-- LDG.32, LDG.64 and VLDG at an aligned address that translates to a page of the core's partition, with nothing holding them back (R93, R95). When every granule
is valid in the core cache and the page is cached, the load completes with the granules' value: for LDG.64 and VLDG a move with their seals, for LDG.32 the
zero-extended word with its carried syndrome. Otherwise, with a miss entry free, it completes with one request on its way and the register awaited. No
other register, no flag, no LM byte and no byte of home memory changes. STG.32, STG.64 and VSTG at an aligned address that translates to a writable page of the core's partition and to no locked line (R93). When no running
stream of the core matches and the queue has room, the store completes and stands last in the queue with the physical granules, byte masks and data of the register
as it reads, whole granules with their seals for STG.64 and VSTG. When streams match, it is routed to them with the grants at its issue (R156), and the queue
is unchanged; the copies of its granules at the core and in its cluster are gone, a dirty one written back to home first (R214, R244), for a home-direct page
too (the model's choice, log 75: R85 and R156 differ); for a cached page the granules are noted for releases (R213).  No register, no flag and no byte of LM
changes, and home memory only by such a write-back. -/
def Obligations.GlobalMemoryResults : Prop :=
  (
  ∀ r ∈ globalLoads, ∀ (o : BitVec 8) (a d : BitVec 5) (l : BitVec 3) (s : State) (x : Xlat),
    s.readyFor l.toNat false [gR a] = true → (s.seen l.toNat false).clean a.toNat = true →
    let n := r.2.1
    let va := address ((s.seen l.toNat false).gv a.toNat) o n
    va.toNat % n = 0 → reaches s va false x → unheld s va x.pa n x.hd →
    (x.hd = false → (∀ g ∈ granulesAt x.pa n, inCache s.c.m.cache g = true) →
      ∃ t, exec (r.1 o a d l) s = .next t ∧ memorySame s t ∧ t.c.m.cache = s.c.m.cache ∧ t.c.m.far = s.c.m.far ∧
        s.wroteRegs t 4 0 (fun k => r.2.2 d == .g k) (fun k => r.2.2 d == .v k) noReg ∧
        ∀ lines : List Line, (granulesAt x.pa n).mapM (cacheAt s.c.m.cache) = some lines →
          (n = 128 → ∀ j, j < 16 → ∃ q, lines[j]? = some q ∧ pair (t.x.regs.vv d.toNat) j = q.val ∧ pairSeal (t.x.regs.vsl d.toNat) j = q.sl) ∧
          (n = 8 → ∀ q, lines[0]? = some q → t.x.regs.holdsG d.toNat q.val q.sl) ∧
          (n = 4 → ∀ q, lines[0]? = some q → let w := BitVec.ofNat 64 (q.val.toNat / 2 ^ (8 * (x.pa % 8)) % 2 ^ 32)
            t.x.regs.holdsG d.toNat w (sealFn w ^^^ syn q.val q.sl))) ∧
    ((x.hd = true ∨ ∃ g ∈ granulesAt x.pa n, inCache s.c.m.cache g = false) → s.c.misses < 16 →
      ∃ t f, exec (r.1 o a d l) s = .next t ∧ memorySame s t ∧ t.c.m.cache = s.c.m.cache ∧ s.wroteRegs t 4 0 noReg noReg noReg ∧
        t.c.m.far = s.c.m.far ++ [f] ∧ f.kind = .load (r.2.2 d) ∧ f.ctx = s.curCtx ∧ f.va = va ∧ f.pa = x.pa ∧ f.size = n ∧ f.direct = x.hd ∧
        f.reply = none ∧ ((r.2.2 d).fixed = false → ⟨f.id, r.2.2 d, none, false⟩ ∈ t.x.varp))
  ) ∧
  (
  ∀ r ∈ globalStores, ∀ (o : BitVec 8) (a d : BitVec 5) (l : BitVec 3) (s : State) (x : Xlat),
    s.readyFor l.toNat false [gR a, r.2.2 d] = true → (s.seen l.toNat false).clean a.toNat = true →
    let n := r.2.1
    let va := address ((s.seen l.toNat false).gv a.toNat) o n
    va.toNat % n = 0 → reaches s va true x → (∀ g ∈ granulesAt x.pa n, s.locked g = false) →
    let good := fun (e : StoreEntry) => e.ctx = s.curCtx ∧ e.va = va ∧ e.direct = x.hd ∧ e.writes.map (·.gr) = granulesAt x.pa n ∧
      (n = 128 → ∀ j, j < 16 → e.writes[j]? = some ⟨x.pa / 8 + j, 0xFF, pair ((s.seen l.toNat false).vv d.toNat) j, pairSeal ((s.seen l.toNat false).vsl d.toNat) j⟩) ∧
      (n = 8 → e.writes = [⟨x.pa / 8, 0xFF, (s.seen l.toNat false).gv d.toNat, (s.seen l.toNat false).gsl d.toNat⟩]) ∧
      (n = 4 → ∃ w, e.writes = [w] ∧ w.mask = BitVec.ofNat 8 (15 * 2 ^ (x.pa % 8)) ∧
        w.data = BitVec.ofNat 64 (((s.seen l.toNat false).gv d.toNat).toNat * 2 ^ (8 * (x.pa % 8))) ∧
        syn w.data w.sl = syn ((s.seen l.toNat false).gv d.toNat) ((s.seen l.toNat false).gsl d.toNat))
    (s.c.matchSlots va n = [] → s.c.m.stores.length < 16 →
      ∃ t e, exec (r.1 o a d l) s = .next t ∧ memorySame s t ∧ flowOnly s t 4 ∧ t.c.m.cache = s.c.m.cache ∧ t.c.m.far = s.c.m.far ∧
        t.c.m.patches = s.c.m.patches ∧ t.c.m.stores = s.c.m.stores ++ [e] ∧ good e) ∧
    (s.c.matchSlots va n ≠ [] →
      ∃ t p, exec (r.1 o a d l) s = .next t ∧ s.sameContexts t ∧ t.c.m.lm = s.c.m.lm ∧ flowOnly s t 4 ∧ t.c.m.far = s.c.m.far ∧ t.c.m.stores = s.c.m.stores ∧
        t.c.m.patches = s.c.m.patches ++ [p] ∧ p.slots = s.c.matchSlots va n ∧ p.begun = false ∧ good p.st ∧
        ((∀ g ∈ granulesAt x.pa n, s.dirtyCopy s.cur g = false) → memorySame s t) ∧
        (x.hd = false → t.c.m.pcl = s.c.m.pcl.union ⟨false, granulesAt x.pa n⟩ ∧ t.c.m.pdv = s.c.m.pdv.union ⟨false, granulesAt x.pa n⟩) ∧
        ∀ g ∈ granulesAt x.pa n, s.locked g = false → inCache t.c.m.cache g = false ∧
          (isEave s.cur = false → inCache (t.cluster (clusterOf s.cur)).cache g = false) ∧
          ((s.c.m.cache.map (·.1)).Nodup → ∀ q, cacheAt s.c.m.cache g = some q → q.dirty = true → atHome s t g q))
  )

/-- A scalar LM load or store, VLDL, VSTL or VBCL whose registers are not awaited and whose g[A] passes its check traps ALIGN when its address is not a multiple
of its size, else XREAD when it lies below XB, else LMBOUND when it lies outside the window or outside data LM; TINFO0 is the address, TINFO1 holds KIND (0
load, 1 store) and SIZE (R101, R102), TPC the instruction, and but for the trap nothing changes.  VGATL and VSCATL, whose registers pass their checks, trap ALIGN
on a base that is no multiple of 4 (R88; that it comes before the lanes and with SIZE 7 is an inference, log 29); else the first lane in ascending order that
is not aligned to 4, lies below XB or outside the window or data LM traps so, with LANE, ELEM and SIZE 2 (R92, R102). A global load, store or FREQ whose registers are not awaited and whose g[A] passes its check traps ALIGN when its address is not a multiple of its size;
else TRANSLATE when an address bit above 55 is set or the walk finds no mapping (it waits for a locked line of the tables, R249); else PERMIT when the frame is not the partition's or a store finds the page not
writable (R93, R101). TINFO0 is the address and TINFO1 holds KIND, GLOBAL and SIZE (R102); but for the trap nothing changes. -/
def Obligations.AccessFaultOrders : Prop :=
  (
  ∀ (o : BitVec 8) (a d : BitVec 5) (l : BitVec 3) (s : State),
    ∀ r ∈ localLoads.map (fun r => (r.1, r.2.1, 0)) ++ localStores.map (fun r => (r.1, r.2, 1)) ++ [(.vldl, 128, 0), (.vstl, 128, 1), (.vbcl, 4, 0)],
    s.readyFor l.toNat false [gR a, gR d, vR d] = true → (s.seen l.toNat false).clean a.toNat = true →
    let ad := address ((s.seen l.toNat false).gv a.toNat) o r.2.1
    let trap := fun code => takeTrap s code ad (BitVec.ofNat 64 (64 * r.2.2 + sizeField r.2.1)) s.x.pc
    (ad.toNat % r.2.1 ≠ 0 → exec (r.1 o a d l) s = .next (trap 0x03)) ∧
    (ad.toNat % r.2.1 = 0 → ad.toNat < s.c.xbAddr → exec (r.1 o a d l) s = .next (trap 0x06)) ∧
    (ad.toNat % r.2.1 = 0 → s.c.xbAddr ≤ ad.toNat → s.lmInside ad.toNat r.2.1 = false → exec (r.1 o a d l) s = .next (trap 0x04))
  ) ∧
  (
  ∀ (o : BitVec 8) (a d : BitVec 5) (l : BitVec 3) (s : State), ∀ r ∈ [(Instr.vgatl, 0), (.vscatl, 1)],
    let e : BitVec 5 := d + 1
    let q := s.seen l.toNat false
    let base := address (q.gv a.toNat) o 128
    let ad := fun i => base + (lane (q.vv d.toNat) i).setWidth 64
    let good := fun i => (ad i).toNat % 4 = 0 ∧ s.c.xbAddr ≤ (ad i).toNat ∧ s.lmInside (ad i).toNat 4 = true
    s.readyFor l.toNat false ([gR a, vR d] ++ if r.2 = 1 then [vR e] else []) = true → q.clean a.toNat = true → q.cleanV d.toNat (List.range 16) = true →
      (r.2 = 1 → q.cleanV e.toNat (List.range 16) = true) →
    (base.toNat % 4 ≠ 0 → exec (r.1 o a d l) s = .next (takeTrap s 0x03 base (BitVec.ofNat 64 (64 * r.2 + 7)) s.x.pc)) ∧
    (base.toNat % 4 = 0 → s.c.storesLm s.curCtx = false → ∀ i, i < 32 → (∀ j, j < i → good j) →
      let trap := fun code => takeTrap s code (ad i) (BitVec.ofNat 64 (256 * i + 64 * r.2 + 18)) s.x.pc
      ((ad i).toNat % 4 ≠ 0 → exec (r.1 o a d l) s = .next (trap 0x03)) ∧
      ((ad i).toNat % 4 = 0 → (ad i).toNat < s.c.xbAddr → exec (r.1 o a d l) s = .next (trap 0x06)) ∧
      ((ad i).toNat % 4 = 0 → s.c.xbAddr ≤ (ad i).toNat → s.lmInside (ad i).toNat 4 = false → exec (r.1 o a d l) s = .next (trap 0x04)))
  ) ∧
  (
  ∀ (o : BitVec 8) (a d : BitVec 5) (l : BitVec 3) (s : State),
    ∀ r ∈ globalLoads.map (fun r => (r.1, r.2.1, 0)) ++ globalStores.map (fun r => (r.1, r.2.1, 1)) ++ [(.freq, 128, 3)],
    s.readyFor l.toNat false [gR a, gR d, vR d] = true → (s.seen l.toNat false).clean a.toNat = true →
    let va := address ((s.seen l.toNat false).gv a.toNat) o r.2.1
    let trap := fun code => Host.Outcome.next (takeTrap s code va (BitVec.ofNat 64 (64 * r.2.2 + 32 + sizeField r.2.1)) s.x.pc)
    (va.toNat % r.2.1 ≠ 0 → exec (r.1 o a d l) s = trap 0x03) ∧
    (va.toNat % r.2.1 = 0 → (2 ^ 56 ≤ va.toNat ∨ ∃ e, e ≠ 3 ∧ (s.translate s.cur s.c.partNo va.toNat).1 = .error e) → exec (r.1 o a d l) s = trap 0x07) ∧
    (va.toNat % r.2.1 = 0 → va.toNat < 2 ^ 56 → ∀ x, (s.translate s.cur s.c.partNo va.toNat).1 = .ok x →
      (x.owner ≠ some s.c.partNo ∨ (r.2.2 = 1 ∧ x.wr = false)) → exec (r.1 o a d l) s = trap 0x08)
  )

/-- FREQ at an aligned address that translates to a page of the core's partition (R96): with a reply tag of the actor free, the lowest is taken, a read of the
128 bytes at the home is on its way for it, and g[D] holds its number with a fresh seal; with none free, or no actor, g[D] holds 16 and nothing is sent.
PFG goes on whatever its address, its translation and the state of the miss table are (R97), once no line of the tables that it walks is locked (R249); it
writes no register. -/
def Obligations.FarReadAndPrefetchResults : Prop :=
  (∀ (o : BitVec 8) (a d : BitVec 5) (l : BitVec 3) (s : State) (x : Xlat),
    s.readyFor l.toNat false [gR a] = true → (s.seen l.toNat false).clean a.toNat = true →
    let va := address ((s.seen l.toNat false).gv a.toNat) o 128
    va.toNat % 128 = 0 → reaches s va false x →
    (∀ k tg, s.act = some k → tg < 16 → (k.tag tg).used = false → (∀ u, u < tg → (k.tag u).used = true) →
      ∃ t f, exec (.freq o a d l) s = .next t ∧ s.wroteRegs t 4 0 (oneReg d) noReg noReg ∧
        t.x.regs.holdsG d.toNat (BitVec.ofNat 64 tg) (sealFn (BitVec.ofNat 64 tg)) ∧ t.c.m.far = s.c.m.far ++ [f] ∧ f.kind = .freq tg ∧
        f.pa = x.pa ∧ f.size = 128 ∧ f.direct = true ∧ t.home.mem = s.home.mem ∧ t.c.m.lm = s.c.m.lm ∧
        ∃ k', t.act = some k' ∧ k'.tag tg = { Tag.free with used := true, out := true, far := true }) ∧
    ((s.act = none ∨ ∃ k, s.act = some k ∧ ∀ u, u < 16 → (k.tag u).used = true) →
      ∃ t, exec (.freq o a d l) s = .next t ∧ memorySame s t ∧ s.wroteRegs t 4 0 (oneReg d) noReg noReg ∧ t.c.m.far = s.c.m.far ∧
        t.x.regs.holdsG d.toNat 16 (sealFn 16))) ∧
  (∀ (o : BitVec 8) (a : BitVec 5) (lvl : Bool) (l : BitVec 3) (s : State), s.readyFor l.toNat false [gR a] = true →
    let va := (address ((s.seen l.toNat false).gv a.toNat) o 128).toNat / 128 * 128
    (va < 2 ^ 56 → (s.translate s.cur s.c.partNo va).1 ≠ .error 3) →
    ∃ t, exec (.pfg o a lvl l) s = .next t ∧ memorySame s t ∧ flowOnly s t 4 ∧ t.c.m.cache = s.c.m.cache ∧ t.c.m.stores = s.c.m.stores)

/-- CWB, CINV, CWBINV and CFLUSH on [g[A], g[A] + g[B]) complete when the registers are not awaited and pass their checks, no walk of the range meets a locked
line of the tables (R249), and no locked line or full bank holds a write-back back (R98). CWB leaves every granule of the core cache valid with its value, those of lines in the range clean. CINV, CWBINV and
CFLUSH leave of the core cache exactly the granules outside the lines of the range, and those of lines that a queued store will write. Each dirty granule that CWB, CWBINV or CFLUSH writes back is with its value and seal in the cluster cache or at home, at home
of an eave core and after CFLUSH of a line that it takes out of the cluster cache; a core that is no eave core, with room in the banks of its cluster cache, has
each that CWB or CWBINV writes back in that cache. CINV leaves the cluster caches and home memory as they are. CFLUSH of such a core writes home the
dirty granules of the cluster cache in the 256-byte lines of the range that no queued store will write, and leaves none of them in that cache; for the whole-cache
form it leaves none of those dirty. No register, flag or byte of LM changes.
CWAYS with g[A] = n, not awaited and passing its check, completes (R99): n equal to the count writes 0; n above 7 writes 1; n above the count with HI below 64 + n writes
2; these change nothing else. Any other n, when nothing holds the write-back of the ways taken back and no earlier MSTZ of the context has LM to write, sets the count to n, the granules of the
ways taken leave the core cache, dirty ones written back, every byte and
seal of the ways converted or given back reads zero, every other byte and seal of LM is as before, no outstanding fill is assigned to a converted way, and g[D] holds 0.
CWAYQ completes, writes COUNT and LIMIT with a fresh seal and changes nothing else (R100). -/
def Obligations.CacheAndWayResults : Prop :=
  (
  ∀ (b a : BitVec 5) (l : BitVec 3) (s : State),
    s.readyFor l.toNat false [gR a, gR b] = true → (s.seen l.toNat false).clean a.toNat = true → (s.seen l.toNat false).clean b.toNat = true →
    let va := ((s.seen l.toNat false).gv a.toNat).toNat
    let len := ((s.seen l.toNat false).gv b.toNat).toNat
    let k := clusterOf s.cur
    let near := fun gr => s.lineInRange va len 4 (gr / 4)
    let gone := fun gr => near gr && !s.c.storeTo 4 gr
    let same := fun (t : State) => flowOnly s t 4 ∧ t.c.m.lm = s.c.m.lm ∧ t.c.m.stores = s.c.m.stores ∧ s.sameContexts t
    let left := fun (t : State) => t.c.m.cache = s.c.m.cache.filter fun e => !gone e.1
    let back := fun (t : State) (p : Nat → Bool) => (s.c.m.cache.map (·.1)).Nodup → ∀ e ∈ s.c.m.cache, e.2.dirty = true → p e.1 = true → wroteBack s t e.1 e.2
    let sent := fun (t : State) (p : Nat → Bool) => isEave s.cur = false → (s.c.m.cache.map (·.1)).Nodup →
      (∀ n, (bankLines (s.cluster k).cache n).length + s.c.m.cache.length ≤ 1024) → ∀ e ∈ s.c.m.cache, e.2.dirty = true → p e.1 = true →
      ∃ q, cacheAt (t.cluster k).cache e.1 = some q ∧ q.val = e.2.val ∧ q.sl = e.2.sl
    let flushed := fun gr => s.lineInRange va len 32 (gr / 32) && !s.c.storeTo 32 gr
    s.walkHeld va len = false →
    (s.maintainBlocked va len false false = false → ∃ t, exec (.cwb b a l) s = .next t ∧ same t ∧ back t near ∧ sent t near ∧
      t.c.m.cache = s.c.m.cache.map (fun e => if near e.1 = true then (e.1, { e.2 with dirty := false }) else e)) ∧
    (∃ t, exec (.cinv b a l) s = .next t ∧ same t ∧ left t ∧ t.clusters = s.clusters ∧ t.home.mem = s.home.mem) ∧
    (s.maintainBlocked va len true false = false → ∃ t, exec (.cwbinv b a l) s = .next t ∧ same t ∧ left t ∧ back t gone ∧ sent t gone) ∧
    (s.maintainBlocked va len true true = false → ∃ t, exec (.cflush b a l) s = .next t ∧ same t ∧ left t ∧ back t gone ∧
      (isEave s.cur = false → (∀ e ∈ (t.cluster k).cache, flushed e.1 = true → len = 2 ^ 64 - 1 ∧ e.2.dirty = false) ∧
        ((s.c.m.cache.map (·.1)).Nodup → ∀ e ∈ s.c.m.cache, e.2.dirty = true → gone e.1 = true → flushed e.1 = true → atHome s t e.1 e.2) ∧
        (((s.cluster k).cache.map (·.1)).Nodup → ∀ e ∈ (s.cluster k).cache, e.2.dirty = true → flushed e.1 = true →
          (∀ c ∈ s.c.m.cache, c.1 = e.1 → c.2.dirty = false ∨ gone e.1 = false) → atHome s t e.1 e.2)))
  ) ∧
  (
  ∀ (a d : BitVec 5) (l : BitVec 3) (s : State),
    (s.readyFor l.toNat false [] = true →
      let w := BitVec.ofNat 64 ((if s.hi ≤ 64 then 0 else if s.hi ≤ 71 then s.hi - 64 else 7) * 16 + s.c.m.ways)
      writesG (.cwayq d l) s 4 d w (sealFn w)) ∧
    (s.readyFor l.toNat false [gR a] = true → (s.seen l.toNat false).clean a.toNat = true →
      let n := ((s.seen l.toNat false).gv a.toNat).toNat
      (n = s.c.m.ways → writesG (.cways a d l) s 4 d 0 (sealFn 0)) ∧
      (n ≠ s.c.m.ways → 7 < n → writesG (.cways a d l) s 4 d 1 (sealFn 1)) ∧
      (s.c.m.ways < n → n ≤ 7 → s.hi < 64 + n → writesG (.cways a d l) s 4 d 2 (sealFn 2)) ∧
      (n ≤ 7 → n ≠ s.c.m.ways → (s.c.m.ways < n → 64 + n ≤ s.hi ∧ s.cleanHeld s.cur (inWays s.c.m.cache (8 - n)) = false) →
        s.c.storesLm s.curCtx = false → s.c.m.ways ≤ 7 →
        ∃ t, exec (.cways a d l) s = .next t ∧ s.wroteRegs t 4 0 (oneReg d) noReg noReg ∧ t.x.regs.holdsG d.toNat 0 (sealFn 0) ∧ t.c.m.ways = n ∧
          (∀ f ∈ t.c.m.far, ∀ e ∈ f.ways, e.2 < 8 - n) ∧
          (t.c.m.cache = if s.c.m.ways < n then s.c.m.cache.filter fun e => !inWays s.c.m.cache (8 - n) e.1 else s.c.m.cache) ∧
          (s.c.m.ways < n → (s.c.m.cache.map (·.1)).Nodup → ∀ e ∈ s.c.m.cache, e.2.dirty = true → 8 - n ≤ e.2.way → wroteBack s t e.1 e.2) ∧
          let lo := 0x80000 + 8192 * min n s.c.m.ways
          let hi := 0x80000 + 8192 * max n s.c.m.ways
          (∀ b, (lo ≤ b ∧ b < hi → t.c.m.lm.byte b = 0) ∧ (b < lo ∨ hi ≤ b → t.c.m.lm.byte b = s.c.m.lm.byte b)) ∧
          (∀ g, (lo ≤ 8 * g ∧ 8 * g < hi → t.c.m.lm.sealOf g = 0) ∧ (8 * g < lo ∨ hi ≤ 8 * g → t.c.m.lm.sealOf g = s.c.m.lm.sealOf g))))
  )

/-! ## Vectors and masks -/

namespace Sys2Proof.Claims

/-- Whether lane i is active under the governing mask that K names (R106). -/
def active (r : Regs) (k : BitVec 3) (i : Nat) : Bool := (r.kv (k.toNat % 4)).getLsbD i
/-- The pairs that hold an active lane. -/
def livePairs (r : Regs) (k : BitVec 3) : List Nat := (List.range 16).filter fun j => active r k (2 * j) || active r k (2 * j + 1)
/-- The pairs of which one lane is active and the other kept. -/
def splitPairs (r : Regs) (k : BitVec 3) : List Nat :=
  (List.range 16).filter fun j => decide (k.toNat < 4) && (active r k (2 * j) != active r k (2 * j + 1))
/-- Whether some lane is active. -/
def someActive (r : Regs) (k : BitVec 3) : Bool := (List.range 32).any (active r k)
/-- The registers that an instruction under K reads besides the mask: rd for its active lanes and, where merging keeps some lanes beside
them, the old destination d; with no active lane, none (R55, R106). -/
def reads (r : Regs) (k : BitVec 3) (rd : List RegId) (d : RegId) : List RegId :=
  if someActive r k = true then rd ++ (if k.toNat < 4 ∧ (List.range 32).all (active r k) = false then [d] else []) else []
/-- The registers from which lanes are kept: as the instruction reads them; as they stand when merging finds no active lane, since it then
reads and writes nothing (R106). -/
def keptFrom (s : State) (l : Nat) (compact : Bool) (k : BitVec 3) : Regs :=
  let r := s.seen l compact
  if k.toNat < 4 ∧ someActive r k = false then s.x.regs else r
/-- Destination lanes under a mask: active ones as f gives them, the others zero when zeroing, else as before; each pair with a written lane is
sealed anew, a pair of zeroed lanes has seal 0x00, an untouched pair keeps its seal (R106, R107). -/
structure laneResults (r : Regs) (k : BitVec 3) (old new : Vec) (os ns : VSeals) (f : Nat → BitVec 32) : Prop where
  lanes : ∀ i, i < 32 → lane new i = if active r k i = true then f i else if 4 ≤ k.toNat then 0 else lane old i
  seals : ∀ j, j < 16 → pairSeal ns j = if j ∈ livePairs r k then sealFn (pair new j) else if 4 ≤ k.toNat then 0 else pairSeal os j
/-- The flags that active lanes raise. -/
def raised (r : Regs) (k : BitVec 3) (f : Nat → Flags) : Flags := (List.range 32).foldl (fun x i => if active r k i = true then x ||| f i else x) 0
/-- A lane function: its result and its flags from the lanes of v[A], v[B] and the old v[D]. -/
abbrev LaneFn := BitVec 32 → BitVec 32 → BitVec 32 → BitVec 32 × Flags
/-- What an elementwise instruction does whose lane function reads v[A], v[B] when useB, and the old v[D] when useD. -/
def elementwise (i : Instr) (len : Nat) (compact : Bool) (useB useD : Bool) (f : LaneFn) (k : BitVec 3) (b a d : BitVec 5) (l : Nat) (s : State) : Prop :=
  let r := s.seen l compact
  let o := keptFrom s l compact k
  s.readyFor l compact (.k (k.toNat % 4) :: reads r k (vR a :: (if useB then [vR b] else []) ++ (if useD then [vR d] else [])) (vR d)) = true →
  r.cleanV a.toNat (livePairs r k) = true → (useB = true → r.cleanV b.toNat (livePairs r k) = true) →
  r.cleanV d.toNat (if useD then livePairs r k else splitPairs r k) = true →
  let g := fun i => f (lane (r.vv a.toNat) i) (lane (r.vv b.toNat) i) (lane (r.vv d.toNat) i)
  ∃ w sl, writesV i s len (raised r k fun i => (g i).2) d w sl ∧ laneResults r k (o.vv d.toNat) w (o.vsl d.toNat) sl fun i => (g i).1
/-- A lane function without flags. -/
def plain (f : BitVec 32 → BitVec 32 → BitVec 32) : LaneFn := fun a b _ => (f a b, 0)
/-- Byte e of a lane as S8. -/
def byteS (x : BitVec 32) (e : Nat) : Int := (x.extractLsb' (8 * e) 8).toInt
/-- The integer, logic and shift functions of R113 and R115, and VDOTB.S8 of R114: form, whether the old v[D] is read, lane function. -/
def vectorIntegers : List ((BitVec 3 → BitVec 5 → BitVec 5 → BitVec 5 → BitVec 3 → Instr) × Bool × LaneFn) :=
  [(.vaddS32, false, plain fun a b => BitVec.ofInt 32 (a.toInt + b.toInt)),
   (.vsubS32, false, plain fun a b => BitVec.ofInt 32 (a.toInt - b.toInt)),
   (.vmulS32, false, plain fun a b => BitVec.ofNat 32 (a.toNat * b.toNat)),
   (.vmaddS32, true, fun a b d => (BitVec.ofNat 32 (d.toNat + a.toNat * b.toNat), 0)),
   (.vminS32, false, plain fun a b => if a.toInt ≤ b.toInt then a else b),
   (.vmaxS32, false, plain fun a b => if a.toInt ≤ b.toInt then b else a),
   (.vand, false, plain fun a b => a &&& b),
   (.vor, false, plain fun a b => a ||| b),
   (.vxor, false, plain fun a b => a ^^^ b),
   (.vsll, false, plain fun a b => BitVec.ofNat 32 (a.toNat * 2 ^ (b.toNat % 32))),
   (.vsrl, false, plain fun a b => BitVec.ofNat 32 (a.toNat / 2 ^ (b.toNat % 32))),
   (.vsra, false, plain fun a b => BitVec.ofInt 32 (a.toInt / 2 ^ (b.toNat % 32))),
   (.vdotbS8, true, fun a b d => (BitVec.ofInt 32 (d.toInt + byteS a 0 * byteS b 0 + byteS a 1 * byteS b 1 + byteS a 2 * byteS b 2 + byteS a 3 * byteS b 3), 0))]

end Sys2Proof.Claims

/-- VADD.S32 to VMAX.S32 wrap modulo 2^32 and raise no flag (R113), VAND to VSRA take the shift amount from b[4:0] (R115), and VDOTB.S8 accumulates four
S8 products (R114). When no register read is awaited and the pairs with an active lane, and under merging the destination pairs kept in part, pass their
seal checks, the instruction completes: active lanes hold the function, the others are zero or kept, every pair with an active lane is sealed anew (they
are lane operations even when b is zero), FPX gains nothing, and nothing else changes. -/
def Obligations.VectorIntegerResults : Prop :=
  ∀ r ∈ vectorIntegers, ∀ (k : BitVec 3) (b a d : BitVec 5) (l : BitVec 3) (s : State),
    elementwise (r.1 k b a d l) 4 false true r.2.1 r.2.2 k b a d l.toNat s

namespace Sys2Proof.Claims

/-- A result as the encoding of a lane with its flags. -/
def fl (x : Nat × Flags) : BitVec 32 × Flags := (BitVec.ofNat 32 x.1, x.2)
/-- The two 16-bit elements of each lane, lo in bits 15:0 (R111). -/
def twoHalves (f : Nat → Nat → Nat → Nat × Flags) : LaneFn := fun a b d =>
  let lo := f (a.extractLsb' 0 16).toNat (b.extractLsb' 0 16).toNat (d.extractLsb' 0 16).toNat
  let hi := f (a.extractLsb' 16 16).toNat (b.extractLsb' 16 16).toNat (d.extractLsb' 16 16).toNat
  (BitVec.ofNat 32 (hi.1 * 65536 + lo.1), lo.2 ||| hi.2)
/-- The two products of a lane summed with the F32 accumulator, rounded once (R112). -/
def dot2 (e : Fmt) : LaneFn := fun a b d => fl (dotF e d.toNat [((a.extractLsb' 0 16).toNat, (b.extractLsb' 0 16).toNat),
  ((a.extractLsb' 16 16).toNat, (b.extractLsb' 16 16).toNat)])
/-- The functions of majors 0x10 and 0x11 of two or three vector registers (R110 to R112), in terms of the rounded operations of R28 and R32. -/
def vectorFloats : List ((BitVec 3 → BitVec 5 → BitVec 5 → BitVec 5 → BitVec 3 → Instr) × Bool × LaneFn) :=
  [(.vaddF32, false, fun a b _ => fl (addF .f32 a.toNat b.toNat)),
   (.vsubF32, false, fun a b _ => fl (subF .f32 a.toNat b.toNat)),
   (.vmulF32, false, fun a b _ => fl (mulF .f32 a.toNat b.toNat)),
   (.vfmaF32, true, fun a b d => fl (fmaF .f32 false d.toNat a.toNat b.toNat)),
   (.vfmsF32, true, fun a b d => fl (fmaF .f32 true d.toNat a.toNat b.toNat)),
   (.vminF32, false, fun a b _ => fl (minF .f32 a.toNat b.toNat, 0)),
   (.vmaxF32, false, fun a b _ => fl (maxF .f32 a.toNat b.toNat, 0)),
   (.vaddF16, false, twoHalves fun a b _ => addF .f16 a b),
   (.vmulF16, false, twoHalves fun a b _ => mulF .f16 a b),
   (.vfmaF16, true, twoHalves fun a b d => fmaF .f16 false d a b),
   (.vaddB16, false, twoHalves fun a b _ => addF .b16 a b),
   (.vmulB16, false, twoHalves fun a b _ => mulF .b16 a b),
   (.vfmaB16, true, twoHalves fun a b d => fmaF .b16 false d a b),
   (.vdotF16, true, dot2 .f16),
   (.vdotB16, true, dot2 .b16)]
/-- A NaN in F32. -/
def nan32 (x : BitVec 32) : Bool := decide (0x7F800000 < x.toNat % 2 ^ 31)

end Sys2Proof.Claims

/-- The functions of majors 0x10 and 0x11, C.VFMA.F32 and VABS.F32 (R53, R110 to R112): under the conditions of the integer functions each completes, active lanes hold the
rounded operation of R28 to R32 on their elements, FPX gains exactly the flags of the active lanes (R108), and nothing else changes. VABS.F32 clears bit 31, gives
0x7FC00000 for a NaN and raises nothing. -/
def Obligations.VectorFloatResults : Prop :=
  (∀ r ∈ vectorFloats, ∀ (k : BitVec 3) (b a d : BitVec 5) (l : BitVec 3) (s : State),
    elementwise (r.1 k b a d l) 4 false true r.2.1 r.2.2 k b a d l.toNat s) ∧
  (∀ (k : BitVec 3) (a d : BitVec 5) (l : BitVec 3) (s : State),
    elementwise (.vabsF32 k a d l) 4 false false false (fun x _ _ => (if nan32 x = true then 0x7FC00000 else x &&& 0x7FFFFFFF, 0)) k 0 a d l.toNat s) ∧
  (∀ (b a d : BitVec 3) (s : State), elementwise (.cVfmaF32 b a d) 2 true true true (fun x y z => fl (fmaF .f32 false z.toNat x.toNat y.toNat)) 0
    (b.setWidth 5) (a.setWidth 5) (d.setWidth 5) 0 s)

namespace Sys2Proof.Claims

/-- A lane's F32 value as a place in the IEEE order, −0 and +0 in one place. -/
def place (x : BitVec 32) : Int := if x.getLsbD 31 then -((x.toNat % 2 ^ 31 : Nat) : Int) else x.toNat
/-- The compares of R117 on two vector registers. -/
def vectorCompares : List ((BitVec 3 → BitVec 5 → BitVec 5 → BitVec 3 → BitVec 3 → Instr) × (BitVec 32 → BitVec 32 → Prop)) :=
  [(.vceqF32, fun a b => nan32 a = false ∧ nan32 b = false ∧ place a = place b),
   (.vcltF32, fun a b => nan32 a = false ∧ nan32 b = false ∧ place a < place b),
   (.vcleF32, fun a b => nan32 a = false ∧ nan32 b = false ∧ place a ≤ place b),
   (.vcunF32, fun a b => nan32 a = true ∨ nan32 b = true),
   (.vceqS32, fun a b => a = b),
   (.vcltS32, fun a b => a.toInt < b.toInt),
   (.vcltN32, fun a b => a.toNat < b.toNat)]
/-- The instruction completes and writes k[d], and nothing else changes. -/
def writesK (i : Instr) (s : State) (d : BitVec 3) (w : Mask) : Prop :=
  ∃ t, exec i s = .next t ∧ s.sameButCtx t ∧ s.wroteRegs t 4 0 noReg noReg (oneReg d) ∧ t.x.regs.kv d.toNat = w
/-- The compare writes bit i of k[d], d not 0, as p says for an active lane; an inactive bit is cleared when zeroing, else kept. -/
def compares (i : Instr) (s : State) (l : Nat) (k : BitVec 3) (d : BitVec 3) (p : Nat → Prop) : Prop :=
  ∃ w, writesK i s d w ∧ ∀ j, j < 32 → (w.getLsbD j = true ↔ if active (s.seen l false) k j = true then p j
    else k.toNat < 4 ∧ ((keptFrom s l false k).kv d.toNat).getLsbD j = true)

end Sys2Proof.Claims

/-- VCEQ, VCLT, VCLE and VCUN on F32, VCEQ, VCLT on integers and VCNZ (R117): when no register read is awaited and the pairs with an active lane pass their checks,
the instruction completes; bit i of k[D] is set for an active lane exactly when the comparison holds (a NaN compares with nothing, −0 equals +0), an inactive
bit is cleared when zeroing and kept when merging. A failing pair traps SEAL or POISON instead
when SEALMODE directs failures to traps. No flag is raised, no seal is written, and nothing else changes. -/
def Obligations.VectorCompareResults : Prop :=
  (∀ c ∈ vectorCompares, ∀ (k : BitVec 3) (b a : BitVec 5) (d l : BitVec 3) (s : State), d ≠ 0 →
    let r := s.seen l.toNat false
    s.readyFor l.toNat false (.k (k.toNat % 4) :: reads r k [vR a, vR b] (kR d)) = true →
    r.cleanV a.toNat (livePairs r k) = true → r.cleanV b.toNat (livePairs r k) = true →
    compares (c.1 k b a d l) s l.toNat k d fun j => c.2 (lane (r.vv a.toNat) j) (lane (r.vv b.toNat) j)) ∧
  (∀ c ∈ vectorCompares, ∀ (k : BitVec 3) (b a : BitVec 5) (d l : BitVec 3) (s : State), s.sealMode = 0 →
    let r := s.seen l.toNat false
    s.readyFor l.toNat false (.k (k.toNat % 4) :: reads r k [vR a, vR b] (kR d)) = true →
    (r.cleanV a.toNat (livePairs r k) = false ∨ r.cleanV b.toNat (livePairs r k) = false) →
    ∃ code i0 i1, (code = 0x09 ∨ code = 0x0A) ∧ exec (c.1 k b a d l) s = .next (takeTrap s code i0 i1 s.x.pc)) ∧
  (∀ (k : BitVec 3) (a : BitVec 5) (d l : BitVec 3) (s : State), d ≠ 0 →
    let r := s.seen l.toNat false
    s.readyFor l.toNat false (.k (k.toNat % 4) :: reads r k [vR a] (kR d)) = true →
    r.cleanV a.toNat (livePairs r k) = true → compares (.vcnz k a d l) s l.toNat k d fun j => lane (r.vv a.toNat) j ≠ 0)

namespace Sys2Proof.Claims

/-- VMOV under a mask: each pair with both lanes active carries its seal from v[A] unchecked; one with one lane active is sealed anew (R107, R116). -/
def moves (i : Instr) (len : Nat) (compact : Bool) (k : BitVec 3) (a d : BitVec 5) (l : Nat) (s : State) : Prop :=
  let r := s.seen l compact
  let o := keptFrom s l compact k
  s.readyFor l compact (.k (k.toNat % 4) :: reads r k [vR a] (vR d)) = true →
  r.cleanV a.toNat ((List.range 16).filter fun j => active r k (2 * j) != active r k (2 * j + 1)) = true →
  r.cleanV d.toNat (splitPairs r k) = true →
  ∃ w sl, writesV i s len 0 d w sl ∧
    (∀ n, n < 32 → lane w n = if active r k n = true then lane (r.vv a.toNat) n else if 4 ≤ k.toNat then 0 else lane (o.vv d.toNat) n) ∧
    ∀ j, j < 16 → pairSeal sl j =
      if active r k (2 * j) = true ∧ active r k (2 * j + 1) = true then pairSeal (r.vsl a.toNat) j
      else if active r k (2 * j) = true ∨ active r k (2 * j + 1) = true then sealFn (pair w j)
      else if 4 ≤ k.toNat then 0 else pairSeal (o.vsl d.toNat) j

end Sys2Proof.Claims

/-- The conversions of major 0x15 (R118), when no register read is awaited and every pair of the registers read passes its check: VCVT.F32.S32 and VCVT.S32.F32 convert
lane by lane; VCVT.F16.F32 and VCVT.B16.F32 put elements 2j and 2j + 1 of v[A] then v[B] in the halves of lane j; VCVT.E4.F32 puts four elements in each of lanes 0 to 7
and zero in active lanes above; VCVT.F32.E4 widens bytes 0 to 31; VCVT.F32.F16 and VCVT.F32.B16 widen elements 0 to 31 to v[D] and 32 to 63 to
v[(D + 1) mod 32]. Each conversion is that of R30, narrowing raises the flags of active lanes, and nothing else changes. VMOV and C.VMOV copy the active lanes of v[A] (R53, R116); a pair copied whole keeps its seal, unchecked, a pair copied in part is checked and sealed anew
(R107). VSEL takes each lane from v[A] where the selector bit is 1, else from v[B]; a pair taken whole from one register keeps its seal
unchecked, a mixed pair is checked in both and sealed anew (R116). No flag is raised and nothing else changes. -/
def Obligations.VectorConversionAndMoveResults : Prop :=
  (
  ∀ (k : BitVec 3) (b a d : BitVec 5) (l : BitVec 3) (s : State),
    let r := s.seen l.toNat false
    let all := List.range 16
    let e : BitVec 5 := d + 1
    let A := fun i => (lane (r.vv a.toNat) i).toNat
    let B := fun i => (lane (r.vv b.toNat) i).toNat
    let seq := fun n => if n < 32 then A n else B (n - 32)
    let o := keptFrom s l.toNat false k
    let done := fun i (F : Nat → BitVec 32 × Flags) =>
      ∃ w sl, writesV i s 4 (raised r k fun j => (F j).2) d w sl ∧ laneResults r k (o.vv d.toNat) w (o.vsl d.toNat) sl fun j => (F j).1
    s.readyFor l.toNat false [.k (k.toNat % 4), vR a, vR b, vR d, vR e] = true →
    r.cleanV a.toNat all = true → r.cleanV b.toNat all = true → r.cleanV d.toNat all = true → r.cleanV e.toNat all = true →
    done (.vcvtF32S32 k a d l) (fun j => fl (cvt .s32 .f32 (A j))) ∧
    done (.vcvtS32F32 k a d l) (fun j => fl (cvt .f32 .s32 (A j))) ∧
    (∀ q ∈ [(Instr.vcvtF16F32 k b a d l, Fmt.f16), (.vcvtB16F32 k b a d l, .b16)],
      done q.1 fun j => let x := cvt .f32 q.2 (seq (2 * j))
        let y := cvt .f32 q.2 (seq (2 * j + 1))
        (BitVec.ofNat 32 (y.1 * 65536 + x.1), x.2 ||| y.2)) ∧
    done (.vcvtE4F32 k a d l) (fun j => if 8 ≤ j then (0, 0) else
      let c := fun e => cvt .f32 .e4 (A (4 * j + e))
      (BitVec.ofNat 32 ((c 0).1 + 256 * (c 1).1 + 65536 * (c 2).1 + 16777216 * (c 3).1), (c 0).2 ||| (c 1).2 ||| (c 2).2 ||| (c 3).2)) ∧
    done (.vcvtF32E4 k a d l) (fun j => (BitVec.ofNat 32 (cvt .e4 .f32 (elem (r.vv a.toNat) 8 j)).1, 0)) ∧
    (∀ q ∈ [(Instr.vcvtF32F16 k a d l, Fmt.f16), (.vcvtF32B16 k a d l, .b16)],
      ∃ t, exec q.1 s = .next t ∧ s.sameButCtx t ∧ s.wroteRegs t 4 0 noReg (fun n => n == d.toNat || n == e.toNat) noReg ∧
        laneResults r k (o.vv d.toNat) (t.x.regs.vv d.toNat) (o.vsl d.toNat) (t.x.regs.vsl d.toNat)
          (fun j => BitVec.ofNat 32 (cvt q.2 .f32 (elem (r.vv a.toNat) 16 j)).1) ∧
        laneResults r k (o.vv e.toNat) (t.x.regs.vv e.toNat) (o.vsl e.toNat) (t.x.regs.vsl e.toNat)
          (fun j => BitVec.ofNat 32 (cvt q.2 .f32 (elem (r.vv a.toNat) 16 (32 + j))).1))
  ) ∧
  (
  (∀ (k : BitVec 3) (a d : BitVec 5) (l : BitVec 3) (s : State), moves (.vmov k a d l) 4 false k a d l.toNat s) ∧
  (∀ (a d : BitVec 5) (s : State), moves (.cVmov a d) 2 true 0 a d 0 s) ∧
  (∀ (k : BitVec 2) (b a d : BitVec 5) (l : BitVec 3) (s : State),
    let r := s.seen l.toNat false
    let sel := fun n => (r.kv k.toNat).getLsbD n
    let mixed := (List.range 16).filter fun j => sel (2 * j) != sel (2 * j + 1)
    s.readyFor l.toNat false [kR k, vR a, vR b] = true → r.cleanV a.toNat mixed = true → r.cleanV b.toNat mixed = true →
    ∃ w sl, writesV (.vsel k b a d l) s 4 0 d w sl ∧
      (∀ n, n < 32 → lane w n = if sel n = true then lane (r.vv a.toNat) n else lane (r.vv b.toNat) n) ∧
      ∀ j, j < 16 → pairSeal sl j = if sel (2 * j) = sel (2 * j + 1) then pairSeal (if sel (2 * j) = true then r.vsl a.toNat else r.vsl b.toNat) j
        else sealFn (pair w j))
  )

namespace Sys2Proof.Claims

/-- The lanes for which p holds, ascending (R120). -/
def held (p : Nat → Bool) : List Nat := (List.range 32).filter p

end Sys2Proof.Claims

/-- When no register read is awaited and every register read passes its checks, the cross-lane instructions complete and nothing but v[D], for VEXT g[D], changes, with the lanes of R119 to
R121: VPERM lane b[i][4:0] of v[A]; VBCST g[A][31:0]; VIOTA g[A][31:0] + i; VEXT the lane that g[B] names; VINS that lane from g[A], the others kept; VCOMP the selected lanes of v[A] packed, the rest zero
or kept; VNZSCAN the positions of non-zero lanes packed, from g[B] on, then all ones; VUNPQ the Q4X bytes of a half as S8, with Q4BAD for bad bytes of active lanes. VDOTQ.Q4X accumulates
eight products of Q4X elements with the S8 bytes of v[B] and v[(B + 1) mod 32] (R114). -/
def Obligations.VectorPermuteResults : Prop :=
  ∀ (k : BitVec 3) (k2 : BitVec 2) (b a d : BitVec 5) (l : BitVec 3) (s : State),
    let r := s.seen l.toNat false
    let all := List.range 16
    let e : BitVec 5 := b + 1
    let A := fun i => lane (r.vv a.toNat) i
    let B := fun i => lane (r.vv b.toNat) i
    let D := fun i => lane (r.vv d.toNat) i
    let o := keptFrom s l.toNat false k
    let gA := r.gv a.toNat
    let gB := r.gv b.toNat
    let q := fun n => q4decode (elem (r.vv a.toNat) 8 n)
    s.readyFor l.toNat false [.k (k.toNat % 4), kR k2, vR a, vR b, vR d, vR e, gR a, gR b] = true →
    r.cleanV a.toNat all = true → r.cleanV b.toNat all = true → r.cleanV d.toNat all = true → r.cleanV e.toNat all = true →
    r.clean a.toNat = true → r.clean b.toNat = true → o.cleanV d.toNat all = true →
    let gives := fun i (fl : Flags) (F : Nat → BitVec 32) => ∃ w sl, writesV i s 4 fl d w sl ∧ (∀ n, n < 32 → lane w n = F n) ∧ ∀ j, j < 16 → syn (pair w j) (pairSeal sl j) = 0
    let m := fun (F : Nat → BitVec 32) n => if active r k n = true then F n else if 4 ≤ k.toNat then 0 else lane (o.vv d.toNat) n
    gives (.vperm k b a d l) 0 (m fun n => A ((B n).toNat % 32)) ∧
    gives (.vbcst k a d l) 0 (m fun _ => gA.setWidth 32) ∧
    gives (.viota k a d l) 0 (m fun n => gA.setWidth 32 + BitVec.ofNat 32 n) ∧
    (let w := (A (gB.toNat % 32)).setWidth 64
     writesG (.vext b a d l) s 4 d w (sealFn w)) ∧
    gives (.vins b a d l) 0 (fun n => if n = gB.toNat % 32 then gA.setWidth 32 else D n) ∧
    gives (.vcomp k a d l) 0 (fun n => match (held (active r k))[n]? with
      | some j => A j
      | none => if 4 ≤ k.toNat then 0 else lane (o.vv d.toNat) n) ∧
    gives (.vnzscan k2 b a d l) 0 (fun n => match (held fun j => (r.kv k2.toNat).getLsbD j && A j != 0)[n]? with
      | some j => gB.setWidth 32 + BitVec.ofNat 32 j
      | none => 0xFFFFFFFF) ∧
    (let c := fun n => 64 * (gB.toNat % 2) + 2 * n
     gives (.vunpq k b a d l) (raised r k fun n => if (q (c n)).2.2 || (q (c n + 1)).2.2 then 32 else 0)
      (m fun n => BitVec.ofInt 8 (q (c n + 1)).2.1 ++ BitVec.ofInt 8 (q (c n + 1)).1 ++ BitVec.ofInt 8 (q (c n)).2.1 ++ BitVec.ofInt 8 (q (c n)).1)) ∧
    (let y := fun n j => q4decode (A n >>> (8 * j)).toNat
     gives (.vdotqQ4x k b a d l) (raised r k fun n => if (List.range 4).any (fun j => (y n (j % 4)).2.2) then 32 else 0)
      (m fun n => D n + BitVec.ofInt 32 ((y n 0).1 * byteS (B n) 0 + (y n 0).2.1 * byteS (B n) 1 + (y n 1).1 * byteS (B n) 2 + (y n 1).2.1 * byteS (B n) 3 +
        (y n 2).1 * byteS (lane (r.vv e.toNat) n) 0 + (y n 2).2.1 * byteS (lane (r.vv e.toNat) n) 1 +
        (y n 3).1 * byteS (lane (r.vv e.toNat) n) 2 + (y n 3).2.1 * byteS (lane (r.vv e.toNat) n) 3)))

/-- VRSUM.F32, VRMAX.F32 and VRSUM.S32 write to every lane the value of the pairwise tree of R35 over the filtered lanes, the others entering as −0.0, Canon or 0; they seal v[D] anew
and the F32 sum raises the flags of its additions (R122). VEXP2, VLOG2, VRCP, VRSQRT and VDIV on F32 (R123) complete with their rounded results awaited in v[D] and
the flags of active lanes in FPX; merging with no active lane awaits nothing. Each asks that no register read is awaited and that the pairs read pass their checks, and changes nothing else. VRNG and VRNGF (R124) take the counter base from lanes 0 to 3 of v[A] and the key from lanes 4 and 5; when no register read is awaited, pairs 0 to 2 of v[A] and the
destination pairs kept in part pass their checks, active lane L gets word L mod 4 of Philox-4x32-10 of (base + L/4 mod 2^128, key), for VRNGF its upper 24 bits times 2^−24, and nothing else
changes; no flag is raised. -/
def Obligations.VectorReductionAndRandomResults : Prop :=
  (
  (∀ (k : BitVec 2) (a d : BitVec 5) (l : BitVec 3) (s : State),
    let r := s.seen l.toNat false
    let f := fun i => (r.kv k.toNat).getLsbD i
    s.readyFor l.toNat false [kR k, vR a] = true → r.cleanV a.toNat ((List.range 16).filter fun j => f (2 * j) || f (2 * j + 1)) = true →
    let xs := fun (z : Nat) => (List.range 32).map fun i => if f i = true then (lane (r.vv a.toNat) i).toNat else z
    let gives := fun i (x : Nat × Flags) => ∃ w sl, writesV i s 4 x.2 d w sl ∧ (∀ n, n < 32 → lane w n = BitVec.ofNat 32 x.1) ∧
      ∀ j, j < 16 → pairSeal sl j = sealFn (pair w j)
    gives (.vrsumF32 k a d l) (tree (addF .f32) 5 (xs 0x80000000)) ∧
    gives (.vrmaxF32 k a d l) (tree (fun x y => (maxF .f32 x y, 0)) 5 (xs 0x7FC00000)) ∧
    gives (.vrsumS32 k a d l) ((xs 0).sum % 2 ^ 32, 0)) ∧
  (∀ (k : BitVec 3) (b a d : BitVec 5) (l : BitVec 3) (s : State),
    ∀ q ∈ [(Instr.vexp2F32 k a d l, false, fun x (_ : Nat) => exp2F x), (.vlog2F32 k a d l, false, fun x _ => log2F x),
      (.vrcpF32 k a d l, false, fun x _ => rcpF x), (.vrsqrtF32 k a d l, false, fun x _ => rsqrtF x), (.vdivF32 k b a d l, true, fun x y => divF x y)],
    let r := s.seen l.toNat false
    s.readyFor l.toNat false [.k (k.toNat % 4), vR a, vR b, vR d] = true →
    r.cleanV a.toNat (livePairs r k) = true → r.cleanV b.toNat (livePairs r k) = true → r.cleanV d.toNat (splitPairs r k) = true →
    let F := fun i => fl (q.2.2 (lane (r.vv a.toNat) i).toNat (lane (r.vv b.toNat) i).toNat)
    ∃ t w sl, exec q.1 s = .next t ∧ s.sameButCtx t ∧ s.wroteRegs t 4 (raised r k fun i => (F i).2) noReg noReg noReg ∧
      (someActive r k = true ∨ 4 ≤ k.toNat → (t.x.varp.filter fun e => e.reg == vR d) = [⟨s.dist.next, vR d, some (w, sl), false⟩] ∧
        laneResults r k (r.vv d.toNat) w (r.vsl d.toNat) sl fun i => (F i).1) ∧
      (someActive r k = false ∧ k.toNat < 4 → t.x.varp = s.x.varp))
  ) ∧
  (
  ∀ (k : BitVec 3) (a d : BitVec 5) (l : BitVec 3) (s : State),
    let r := s.seen l.toNat false
    let o := keptFrom s l.toNat false k
    s.readyFor l.toNat false (.k (k.toNat % 4) :: reads r k [vR a] (vR d)) = true →
    (livePairs r k ≠ [] → r.cleanV a.toNat [0, 1, 2] = true) → r.cleanV d.toNat (splitPairs r k) = true →
    let L := fun i => (lane (r.vv a.toNat) i).toNat
    let base := L 0 + 2 ^ 32 * L 1 + 2 ^ 64 * L 2 + 2 ^ 96 * L 3
    let word := fun n => (philox ((base + n / 4) % 2 ^ 128) (L 4 + 2 ^ 32 * L 5)).getD (n % 4) 0
    (∃ w sl, writesV (.vrng k a d l) s 4 0 d w sl ∧ laneResults r k (o.vv d.toNat) w (o.vsl d.toNat) sl fun n => BitVec.ofNat 32 (word n)) ∧
    (∃ w sl, writesV (.vrngf k a d l) s 4 0 d w sl ∧ laneResults r k (o.vv d.toNat) w (o.vsl d.toNat) sl fun n =>
      BitVec.ofNat 32 (rneF .f32 (.fin false (word n / 256) (-24))).1)
  )

/-- KAND, KOR, KXOR, KNOT and KMOV from k write k[D], D not 0, from k registers, k0 reading all ones; KMOV from g checks g[A] unless A is 0 and writes its low 32 bits; KPOP and KMOV to g
write the count of ones and the zero-extended mask with a fresh seal (R125, R126). They take no mask and read no other seal. Each completes when no register read is awaited, and nothing
else changes. -/
def Obligations.MaskResults : Prop :=
  ∀ (b a d : BitVec 3) (ga gd : BitVec 5) (l : BitVec 3) (s : State),
    let r := s.seen l.toNat false
    (d ≠ 0 → s.readyFor l.toNat false [kR a, kR b] = true →
      writesK (.kand b a d l) s d (r.kv a.toNat &&& r.kv b.toNat) ∧ writesK (.kor b a d l) s d (r.kv a.toNat ||| r.kv b.toNat) ∧
      writesK (.kxor b a d l) s d (r.kv a.toNat ^^^ r.kv b.toNat)) ∧
    (d ≠ 0 → s.readyFor l.toNat false [kR a, kR (0 : BitVec 3)] = true →
      writesK (.knot a d l) s d (~~~ r.kv a.toNat) ∧ writesK (.kmovKk a d l) s d (r.kv a.toNat)) ∧
    (d ≠ 0 → s.readyFor l.toNat false [gR ga] = true → r.clean ga.toNat = true → writesK (.kmovGk ga d l) s d ((r.gv ga.toNat).setWidth 32)) ∧
    (s.readyFor l.toNat false [kR a] = true →
      (let w := BitVec.ofNat 64 ((List.range 32).filter fun i => (r.kv a.toNat).getLsbD i).length
       writesG (.kpop a gd l) s 4 gd w (sealFn w)) ∧
      let w := BitVec.ofNat 64 (r.kv a.toNat).toNat
      writesG (.kmovKg a gd l) s 4 gd w (sealFn w)) ∧
    r.kv 0 = 0xFFFFFFFF

/-! ## Bit streams and seals -/

namespace Sys2Proof.Claims

/-- The n bytes at address a as a big-endian number (R275). -/
def bigAt (m : Mem) (a : Nat) : Nat → Nat
  | 0 => 0
  | n + 1 => bigAt m a n * 256 + (m.byte (a + n)).toNat
/-- Of the acting context only the registers that g names and the bit buffer were written, and it went on after four bytes. -/
structure wroteBits (s t : State) (g : Nat → Bool) (data pos : Nat) : Prop where
  kept : s.x.kept { t.x with bbData := s.x.bbData, bbPos := s.x.bbPos }
  data : t.x.bbData = BitVec.ofNat 128 data
  pos : t.x.bbPos = BitVec.ofNat 7 pos
  flags : t.x.fpx = s.x.fpx
  g : s.x.regs.sameG t.x.regs g
  v : s.x.regs.sameV t.x.regs noReg
  k : s.x.regs.sameK t.x.regs noReg
  on : s.wentOnBy t 4
/-- The n bits of DATA from POS downward (R278). -/
def bitsOf (s : State) (n : Nat) : Word := BitVec.ofNat 64 (s.x.bbData.toNat / 2 ^ (128 - s.x.bbPos.toNat - n) % 2 ^ n)
/-- The instruction moves POS to pos, refilling through the pointer g[a] from 64 on, then writes val, if there is one, to g[d]; nothing else changes. -/
def readsBits (i : Instr) (s : State) (a d : BitVec 5) (p : Word) (pos : Nat) (val : Option Word) : Prop :=
  (64 ≤ pos → s.loadOk p 8 8 = true ∧ carried s.c.m.lm p.toNat = 0) →
  ∃ t, exec i s = .next t ∧ s.sameButCtx t ∧
    wroteBits s t (fun k => (decide (64 ≤ pos) && k == a.toNat) || (val.isSome && k == d.toNat))
      (if 64 ≤ pos then s.x.bbData.toNat * 2 ^ 64 + bigAt s.c.m.lm p.toNat 8 else s.x.bbData.toNat) (if 64 ≤ pos then pos - 64 else pos) ∧
    (64 ≤ pos → (a ≠ d ∨ val = none) → t.x.regs.holdsG a.toNat (p + 8) (sealFn (p + 8))) ∧
    (∀ w, val = some w → t.x.regs.holdsG d.toNat w (sealFn w))

end Sys2Proof.Claims

/-- With POS at most 63, the registers read not awaited and passing their checks, and the 8 bytes at g[A] aligned, clean data of the window, not awaited, when a refill is due
(R277, R278): BGET and BPEEK give the field of w = min(g[B][6:0], 64) bits from POS downward, BGET and BSKIP move POS by w; from 64 on DATA shifts in the
8 bytes at g[A], lowest address first, POS loses 64 and g[A] gains 8 before g[D] is written. BGETX gives the order-k Exp-Golomb code, or all
ones and moves nothing for a code over 64 bits (R279). BBPOS gives POS. Results have fresh seals and nothing else changes. With POS at most 63 and registers not awaited and clean (R278): BBINIT with g[B][8] = 0 loads the 16 clean bytes at g[A], POS := g[B][5:0], g[D] := g[A] + 16;
with g[B][8] = 1 and g[A] aligned it clears bb and copies g[A] to g[D]. BPUT puts the low w bits of g[D] below POS; from 64 on the upper 8 bytes of DATA
go to the aligned data at g[A] with a fresh seal, DATA shifts by 64, POS loses 64 and g[A] gains 8. BFLUSH stores the n = ceil(POS / 8) filled bytes at g[A],
checking the old granule when n < 8, adds n to g[A], writes the pad count to g[D] and clears bb. Every other byte and seal of LM and
everything else is as before. -/
def Obligations.BitStreamResults : Prop :=
  (
  ∀ (b a d : BitVec 5) (l : BitVec 3) (s : State), s.x.bbPos.toNat ≤ 63 →
    let r := s.seen l.toNat false
    let p := r.gv a.toNat
    let w := min ((r.gv b.toNat).toNat % 128) 64
    let pos := s.x.bbPos.toNat
    (s.readyFor l.toNat false [gR a, gR b] = true → r.clean a.toNat = true → r.clean b.toNat = true →
      readsBits (.bget b a d l) s a d p (pos + w) (some (bitsOf s w)) ∧
      readsBits (.bskip b a l) s a d p (pos + w) none ∧
      (∀ z, z ≤ 128 - pos → (∀ j, j < z → s.x.bbData.getLsbD (127 - pos - j) = false) → (z < 128 - pos → s.x.bbData.getLsbD (127 - pos - z) = true) →
        let k := (r.gv b.toNat).toNat % 64
        let n := 2 * z + 1 + k
        if 64 < n then readsBits (.bgetx b a d l) s a d p pos (some 0xFFFFFFFFFFFFFFFF)
        else readsBits (.bgetx b a d l) s a d p (pos + n) (some (BitVec.ofInt 64 ((bitsOf s n).toNat - 2 ^ k))))) ∧
    (s.readyFor l.toNat false [gR b] = true → r.clean b.toNat = true → readsBits (.bpeek b d l) s a d p pos (some (bitsOf s w))) ∧
    (s.readyFor l.toNat false [] = true → readsBits (.bbpos d l) s a d p pos (some (BitVec.ofNat 64 pos)))
  ) ∧
  (
  ∀ (b a d : BitVec 5) (l : BitVec 3) (s : State), s.x.bbPos.toNat ≤ 63 → 
    let r := s.seen l.toNat false
    let p := r.gv a.toNat
    let c := r.gv b.toNat
    let w := min (c.toNat % 128) 64
    let pos := s.x.bbPos.toNat
    let n := (pos + 7) / 8
    (s.readyFor l.toNat false [gR a, gR b] = true → r.clean a.toNat = true → r.clean b.toNat = true →
      (c.getLsbD 8 = false → s.loadOk p 8 8 = true → s.loadOk (p + 8) 8 8 = true → carried s.c.m.lm p.toNat = 0 → carried s.c.m.lm (p.toNat + 8) = 0 →
        ∃ t, exec (.bbinit b a d l) s = .next t ∧ s.sameButCtx t ∧ wroteBits s t (oneReg d) (bigAt s.c.m.lm p.toNat 16) (c.toNat % 64) ∧
          t.x.regs.holdsG d.toNat (p + 16) (sealFn (p + 16))) ∧
      (c.getLsbD 8 = true → p.toNat % 8 = 0 →
        ∃ t, exec (.bbinit b a d l) s = .next t ∧ s.sameButCtx t ∧ wroteBits s t (oneReg d) 0 0 ∧ t.x.regs.holdsG d.toNat p (sealFn p))) ∧
    (s.readyFor l.toNat false [gR a, gR b, gR d] = true → r.clean a.toNat = true → r.clean b.toNat = true → r.clean d.toNat = true →
      let data := (s.x.bbData ||| BitVec.ofNat 128 ((r.gv d.toNat).toNat % 2 ^ w * 2 ^ (128 - pos - w))).toNat
      (pos + w < 64 → ∃ t, exec (.bput b a d l) s = .next t ∧ s.sameButCtx t ∧ wroteBits s t noReg data (pos + w)) ∧
      (64 ≤ pos + w → s.lmOk p 8 8 = true →
        ∃ t, exec (.bput b a d l) s = .next t ∧ s.sameButLm t ∧ wroteBits s t (oneReg a) (data * 2 ^ 64) (pos + w - 64) ∧
          t.x.regs.holdsG a.toNat (p + 8) (sealFn (p + 8)) ∧ bigAt t.c.m.lm p.toNat 8 = data / 2 ^ 64 ∧
          t.c.m.lm.sealOf (p.toNat / 8) = sealFn (t.c.m.lm.gran (p.toNat / 8)) ∧
          (∀ x, x < p.toNat ∨ p.toNat + 8 ≤ x → t.c.m.lm.byte x = s.c.m.lm.byte x) ∧
          (∀ g, g ≠ p.toNat / 8 → t.c.m.lm.sealOf g = s.c.m.lm.sealOf g))) ∧
    (s.readyFor l.toNat false [gR a] = true → r.clean a.toNat = true → (n ≠ 0 → s.lmOk p n 8 = true ∧ (n < 8 → carried s.c.m.lm p.toNat = 0)) →
      ∃ t, exec (.bflush a d l) s = .next t ∧ s.sameButLm t ∧ wroteBits s t (fun k => (decide (n ≠ 0) && k == a.toNat) || k == d.toNat) 0 0 ∧
        t.x.regs.holdsG d.toNat (BitVec.ofNat 64 (8 * n - pos)) (sealFn (BitVec.ofNat 64 (8 * n - pos))) ∧
        (n ≠ 0 → a ≠ d → t.x.regs.holdsG a.toNat (p + BitVec.ofNat 64 n) (sealFn (p + BitVec.ofNat 64 n))) ∧
        bigAt t.c.m.lm p.toNat n = s.x.bbData.toNat / 2 ^ (128 - 8 * n) ∧
        (n ≠ 0 → t.c.m.lm.sealOf (p.toNat / 8) = sealFn (t.c.m.lm.gran (p.toNat / 8))) ∧
        (∀ x, x < p.toNat ∨ p.toNat + n ≤ x → t.c.m.lm.byte x = s.c.m.lm.byte x) ∧
        (∀ g, (n ≠ 0 → g ≠ p.toNat / 8) → t.c.m.lm.sealOf g = s.c.m.lm.sealOf g))
  )

/-- With the registers read not awaited (R282): SEALG writes the seal of g[A] and SEALCHK its syndrome, unchecked, with a fresh seal; SEALSET, g[B] passing its check, gives
g[D] the seal g[B][7:0], POISON the seal Seal(g[D]) XOR 0xA5, both leaving its value; with g[A] passing its check SEALMODE writes the old SEALCTL of
the acting actor to g[D] and puts g[A][1:0] into MODE unless LOCK is set or it is 3. Nothing else changes. -/
def Obligations.SealInstructionResults : Prop :=
  ∀ (b a d : BitVec 5) (l : BitVec 3) (s : State),
    let r := s.seen l.toNat false
    let sl : Word := BitVec.ofNat 64 (r.gsl a.toNat).toNat
    let sy : Word := BitVec.ofNat 64 (r.gsl a.toNat ^^^ sealFn (r.gv a.toNat)).toNat
    (s.readyFor l.toNat false [gR a] = true → writesG (.sealg a d l) s 4 d sl (sealFn sl) ∧ writesG (.sealchk a d l) s 4 d sy (sealFn sy)) ∧
    (s.readyFor l.toNat false [gR b, gR d] = true → r.clean b.toNat = true →
      writesG (.sealset b d l) s 4 d (r.gv d.toNat) (BitVec.ofNat 8 (r.gv b.toNat).toNat)) ∧
    (s.readyFor l.toNat false [gR d] = true → writesG (.poison d l) s 4 d (r.gv d.toNat) (sealFn (r.gv d.toNat) ^^^ 0xA5)) ∧
    (s.readyFor l.toNat false [gR a] = true → r.clean a.toNat = true →
      let m := (r.gv a.toNat).toNat % 4
      (∀ k, s.act = some k →
        ∃ t, exec (.sealmode a d l) s = .next t ∧ s.sameOutside t ∧ s.sameContexts t ∧ s.wroteRegs t 4 0 (oneReg d) noReg noReg ∧ t.c.m = s.c.m ∧
          t.x.regs.holdsG d.toNat (BitVec.ofNat 64 k.csr.sealctl.toNat) (sealFn (BitVec.ofNat 64 k.csr.sealctl.toNat)) ∧
          let new := if k.csr.sealctl.getLsbD 2 = true ∨ m = 3 then k.csr.sealctl else BitVec.ofNat 16 (k.csr.sealctl.toNat / 4 * 4 + m)
          t.act = some { k with csr := { k.csr with sealctl := new } }) ∧
      (s.act = none → writesG (.sealmode a d l) s 4 d 0 (sealFn 0)))

/-! ## Control and status registers, and the supervisor -/

namespace Sys2Proof.Claims

/-- Every CSR of R346. -/
def everyCsr : List Csr :=
  [.fpx, .scb, .lc, .rsp, .sealctl, .seallog, .evt, .hbudget, .age, .self, .part, .w, .time, .xb, .tcode, .tpc, .tinfo0, .tinfo1, .status, .tvec,
   .ssx0, .ssx1, .ssx2, .ssx3, .lmwin, .actsel, .asg, .ptb, .dbgsel, .dbgdata]
/-- The CSRs that belong to an actor (R346). -/
def actorCsr : Csr → Bool
  | .scb | .sealctl | .seallog | .hbudget | .age | .self | .w | .lmwin | .asg => true
  | _ => false
/-- The bits that a write of v to a CSR replaces at a level (R72, R73, R283, R284, R346, R347, R349): a field given a value that it does not have keeps its
own (R5), and so does ASG when the write takes from another actor or takes away an open slot. -/
def csrBits (s : State) (sup : Bool) (v : Word) : Csr → Nat
  | .fpx => 0x3F
  | .scb => if v.toNat % 4 = 3 then 0 else 3
  | .rsp => if sup = true then 0x7FFF80007FFF8 else 0x7FFF8
  | .sealctl => 0xFF00 + (if sup = true then 4 else 0) + if v.toNat % 4 = 3 then 0 else 3
  | .seallog => 0xFFFFF1000007FFFF
  | .evt => 0xFF00000000000000
  | .hbudget => if sup = true then 0xFFFFFFFF else 0
  | .age => if sup = true then 0xFFFF else 0
  | .tcode => 0x1FF
  | .tpc | .tinfo0 | .tinfo1 | .ssx0 | .ssx1 | .ssx2 | .ssx3 => 0xFFFFFFFFFFFFFFFF
  | .status => 6
  | .tvec => 0x7FFFE
  | .lmwin => if sup = true then (if 71 < v.toNat / 2 ^ 32 % 128 then 0x7F else 0x7F0000007F) else 0
  | .actsel => 0xF
  | .asg => match s.act with
    | some a => if s.c.asgConflict s.actIdx a (BitVec.ofNat 16 v.toNat) (v.getLsbD 16) = true then 0 else 0x1FFFF
    | none => 0
  | .dbgsel => 0xFFFFF
  | _ => 0
/-- The CSR instructions (R348): form and new value. -/
noncomputable def csrWrites : List ((Csr → BitVec 5 → BitVec 5 → BitVec 3 → Instr) × (Word → Word → Word)) :=
  [(.csrw, fun _ g => g), (.csrs, fun old g => old ||| g), (.csrc, fun old g => old &&& ~~~g)]

end Sys2Proof.Claims

/-- With a CSR that the level may read, or write, g[A] not awaited and clean, and no array work of the actor left that adds to FPX (R346 to R348), each completes: g[D] holds the
old value with a fresh seal; CSRR changes no CSR; CSRW, CSRS and CSRC replace by g[A], old OR g[A], old AND NOT g[A] exactly the bits that the level may
write and whose new value the field has. Every other CSR reads as before, but for EVT, DBGDATA and, after ACTSEL, the actor CSRs; other registers, memory and
the other contexts are as before. That TCODE[7:0] and SEALLOG.SRC take any value is the model's choice (log 76). LC is stated with LC_WRITE. CSRR of LC writes the number of loop entries and the top count, 0 with none (R72). CSRW of LC with g[A] not awaited and clean gives the top entry the count g[A][31:0]
before the end check of the instruction itself, and nothing when there is no entry; LC_WRITE does the same and nothing else. ASG_WRITE for an
actor resident at the index sets SLOTS and ARR from bits 15:0 and 16 and changes nothing else, and changes nothing at all when the slots or the array would get a second
actor or an open slot would be taken away (R349). -/
def Obligations.CsrAndAssignmentResults : Prop :=
  (
  ∀ (c : Csr) (a d : BitVec 5) (l : BitVec 3) (s : State), s.csrPending c = false → c ≠ .lc →
    (s.x.trap.pl = true ∨ csrUserReads c = true) → s.readyFor l.toNat false [] = true →
    let old := s.readCsr c
    let outer := fun (t : State) => s.sameOutside t ∧ s.sameContexts t ∧ t.c.m = s.c.m ∧ s.x.regs.sameG t.x.regs (oneReg d) ∧ s.x.regs.sameV t.x.regs noReg ∧
      s.x.regs.sameK t.x.regs noReg ∧ t.x.regs.holdsG d.toNat old (sealFn old) ∧ t.x.rstack = s.x.rstack ∧ t.x.bbData = s.x.bbData
    writesG (.csrr c d l) s 4 d old (sealFn old) ∧
    (∀ r ∈ csrWrites, csrWritable s.x.trap.pl c = true → s.readyFor l.toNat false [gR a] = true → (s.seen l.toNat false).clean a.toNat = true →
      (actorCsr c = true → s.act ≠ none) → (c = .rsp → s.x.trap.pl = true → s.act ≠ none) →
      let v := r.2 old ((s.seen l.toNat false).gv a.toNat)
      let m := csrBits s s.x.trap.pl v c
      ∃ t, exec (r.1 c a d l) s = .next t ∧ outer t ∧
        (c ≠ .evt → t.readCsr c = old &&& ~~~(BitVec.ofNat 64 m) ||| v &&& BitVec.ofNat 64 m) ∧ (c = .evt → t.c.evt = BitVec.ofNat 8 (v.toNat / 2 ^ 56)) ∧
        (c ≠ .rsp → c ≠ .actsel → t.x.pc = (s.onward 4).2 ∧ t.x.loops = (s.onward 4).1) ∧ t.stalled = s.stalled ∧
        ∀ e ∈ everyCsr, e ≠ c → e ≠ .evt → e ≠ .dbgdata → e ≠ .lc → (c = .actsel → actorCsr e = false ∧ e ≠ .rsp) → t.readCsr e = s.readCsr e)
  ) ∧
  (
  (∀ (a d : BitVec 5) (l : BitVec 3) (s : State) (e : LoopEntry) (ls : List LoopEntry), s.x.loops = e :: ls →
    s.readyFor l.toNat false [gR a] = true → (s.seen l.toNat false).clean a.toNat = true →
    let g := (s.seen l.toNat false).gv a.toNat
    let old := BitVec.ofNat 64 (2 ^ 32 * s.x.loops.length + e.count.toNat)
    let new : List LoopEntry := { e with count := BitVec.ofNat 32 g.toNat } :: ls
    writesG (.csrr .lc d l) s 4 d old (sealFn old) ∧
    ∃ t, exec (.csrw .lc a d l) s = .next t ∧ s.sameButCtx t ∧ s.x.kept t.x ∧ s.x.regs.sameG t.x.regs (oneReg d) ∧ t.x.regs.holdsG d.toNat old (sealFn old) ∧
      s.wentOn t (endCheck s.cd s.x.pc (s.x.pc + 4) new).2 (endCheck s.cd s.x.pc (s.x.pc + 4) new).1) ∧
  (∀ (v : Word) (s : State), ∃ t, exec (.lcWrite v) s = .next t ∧
    (∀ e ls, s.x.loops = e :: ls → t = s.upX fun x => { x with loops := { e with count := BitVec.ofNat 32 v.toNat } :: ls }) ∧
    (s.x.loops = [] → t.x.loops = [] ∧ t.c.m = s.c.m ∧ t.home = s.home)) ∧
  (∀ (i : BitVec 4) (v : Word) (s : State) (k : Actor), s.c.actor i.toNat = some k →
    let bad := (∃ n b, n ≠ i.toNat ∧ (n, some b) ∈ s.c.actors ∧ ((v.getLsbD 16 = true ∧ b.csr.asgArr = true) ∨ ∃ j, j < 16 ∧ v.getLsbD j = true ∧ b.csr.asgSlots.getLsbD j = true)) ∨
      ∃ j, j < 16 ∧ k.csr.asgSlots.getLsbD j = true ∧ v.getLsbD j = false ∧ (s.c.stream j).ph ≠ .closed
    (bad → exec (.asgWrite i v) s = .next s) ∧
    (¬ bad → exec (.asgWrite i v) s =
      .next (s.upC fun c => c.setActor i.toNat (some { k with csr := { k.csr with asgSlots := BitVec.ofNat 16 v.toNat, asgArr := v.getLsbD 16 } }))))
  )

namespace Sys2Proof.Claims

/-- The supervisor instructions of majors 0x2A and 0x2B with their major opcodes (R345). -/
noncomputable def supervisorOnly (b a d : BitVec 5) (l : BitVec 3) : List (Instr × Nat) :=
  [(.gstop a d l, 0x2A), (.gresume a d l, 0x2A), (.ctxsave b a d l, 0x2A), (.ctxload b a d l, 0x2A), (.evict b a d l, 0x2A), (.restore b a d l, 0x2A),
   (.tret a l, 0x2A), (.tlbinv b a d l, 0x2B), (.tlbinva a d l, 0x2B), (.xbset a d l, 0x2B), (.pageq a d l, 0x2B), (.amapset b a d l, 0x2B)]

end Sys2Proof.Claims

/-- At level U every instruction of majors 0x2A and 0x2B traps PRIV with its major opcode in TINFO0, and a CSR instruction whose CSR the user may not read, or at either level one
that writes a CSR with no field writable there, traps PRIV with the CSR number in TINFO0; TINFO1 holds the instruction word in its upper half, and the trap is all that
changes (R58, R345, R347). A CSR write leaves the bits that are not writable at the level unchanged and applies R5 to its fields. -/
def Obligations.PrivilegeTraps : Prop :=
  ∀ (c : Csr) (b a d : BitVec 5) (l : BitVec 3) (s : State),
    let priv := fun (i : Instr) (n : Nat) => ∀ w, encode i = .w32 w → exec i s = .next (takeTrap s 0x02 (BitVec.ofNat 64 n) (BitVec.ofNat 64 (w.toNat * 2 ^ 32)) s.x.pc)
    (s.x.trap.pl = false → ∀ r ∈ supervisorOnly b a d l, priv r.1 r.2) ∧
    (s.x.trap.pl = false → csrUserReads c = false → priv (.csrr c d l) c.num.toNat) ∧
    ((csrWritable s.x.trap.pl c = false ∨ (s.x.trap.pl = false ∧ csrUserReads c = false)) →
      priv (.csrw c a d l) c.num.toNat ∧ priv (.csrs c a d l) c.num.toNat ∧ priv (.csrc c a d l) c.num.toNat) ∧
    (∀ v : Word, (actorCsr c = true ∨ c = .rsp → s.act ≠ none) → c ≠ .evt → c ≠ .lc → c ≠ .dbgdata → csrWritable s.x.trap.pl c = true →
      let m := BitVec.ofNat 64 (csrBits s s.x.trap.pl v c)
      (s.writeCsr s.x.trap.pl v c).readCsr c = s.readCsr c &&& ~~~m ||| v &&& m)

/-- TRET at level S with g[A] not awaited, clean and 0 or 1 (R352, R353): in a context with a firing, 0 restores the level from PPL, clears TACT and goes to TPC, and registers,
stacks, results in flight, TCODE, TPC and TINFO, LM and every other context are as before, but that TRET's own cost counts towards the distances
(R54, R390); 1 ends the firing as END does; in a context without a
firing either value clears TACT, sets level U and leaves the context to be used again. Any other value is an illegal operand. -/
def Obligations.TrapReturnResults : Prop :=
  ∀ (a : BitVec 5) (l : BitVec 3) (s : State), s.x.trap.pl = true → s.readyFor l.toNat false [gR a] = true → (s.seen l.toNat false).clean a.toNat = true →
    let g := (s.seen l.toNat false).gv a.toNat
    (∀ f, s.x.firing = some f → g = 0 →
      ∃ t, exec (.tret a l) s = .next t ∧ s.sameButCtx t ∧ t.x.pc = s.x.trap.tpc ∧ t.x.trap = { s.x.trap with pl := s.x.trap.ppl, tact := false } ∧
        t.x.regs = s.x.regs ∧ t.x.loops = s.x.loops ∧ t.x.rstack = s.x.rstack ∧ t.x.pend = (s.issued l.toNat).x.pend ∧ t.x.varp = s.x.varp ∧
        t.x.fpx = s.x.fpx ∧ (∃ f', t.x.firing = some f' ∧ f'.actor = f.actor ∧ f'.slots = f.slots ∧ f'.weight = f.weight ∧ f'.header = f.header) ∧
        t.x.dead = s.x.dead ∧ t.stalled = s.stalled) ∧
    (s.x.firing ≠ none → g = 1 →
      ∃ t, exec (.tret a l) s = .next t ∧ t.x.firing = none ∧ t.x.regs = .zero ∧ t.x.loops = [] ∧ t.x.rstack = [] ∧
        t.x.trap = { s.x.trap with pl := false, tact := false } ∧ s.sameOutside t ∧ s.sameContexts t ∧ t.c.m.lm = s.c.m.lm ∧ t.c.streams = s.c.streams) ∧
    (s.x.firing = none → g.toNat < 2 →
      ∃ t, exec (.tret a l) s = .next t ∧ s.sameButCtx t ∧ t.x.firing = none ∧ t.x.mbTrap = false ∧ t.x.trap = { s.x.trap with pl := false, tact := false } ∧
        t.x.regs = s.x.regs) ∧
    (2 ≤ g.toNat → ∃ i1, exec (.tret a l) s = .next (takeTrap s 0x01 g i1 s.x.pc))

namespace Sys2Proof.Claims

/-- What an operand names as a gang of the acting core's partition: no bit above 31 set, and a gang with that number (R365). -/
def namesGang (s : State) (x : Word) (g : Gang) : Prop := x.toNat < 2 ^ 32 ∧ s.gangOf x.toNat = some g ∧ g.part = s.c.partNo
/-- Only g[d] of the acting context's registers was written, with a status. -/
def wroteStatus (s t : State) (d : BitVec 5) (n : Nat) : Prop :=
  s.x.regs.sameG t.x.regs (oneReg d) ∧ s.x.regs.sameV t.x.regs noReg ∧ s.x.regs.sameK t.x.regs noReg ∧
    t.x.regs.holdsG d.toNat (BitVec.ofNat 64 n) (sealFn (BitVec.ofNat 64 n)) ∧ t.x.fpx = s.x.fpx ∧ t.stalled = s.stalled
/-- The instruction completes, writes a status, and changes nothing else. -/
def answers (i : Instr) (s : State) (d : BitVec 5) (n : Nat) : Prop := writesG i s 4 d (BitVec.ofNat 64 n) (sealFn (BitVec.ofNat 64 n))
/-- Field [lo, lo + w) of the words of l from the jth on has the value v. -/
def imageField (l : List (Word × Byte)) (j lo w v : Nat) : Prop :=
  packNat 64 ((l.drop j).map fun q => q.1.toNat) / 2 ^ lo % 2 ^ w = v
/-- The word at place j of l is w with seal sl. -/
def imageWord (l : List (Word × Byte)) (j : Nat) (w : Word) : Prop := l[j]? = some (w, sealFn w)
/-- The header of R367 of the actor k at index i of the acting core, whose numbers its fields have room for. -/
def headerHolds (s : State) (i : Nat) (k : Actor) (l : List (Word × Byte)) : Prop :=
  k.gang < 2 ^ 32 → k.part < 16 → i < 16 → k.rank < 2 ^ 16 → s.c.m.ways < 2 ^ 8 → k.code < 2 ^ 32 → k.codeLen < 2 ^ 32 → s.time < 2 ^ 64 →
    let f := imageField l
    f 0 0 32 1 ∧ f 0 32 32 k.addr.toNat ∧ f 0 64 32 k.gang ∧ f 0 96 32 (s.stageId k % 2 ^ 32) ∧ f 0 128 4 k.part ∧ f 0 132 4 i ∧
    f 0 136 1 (if k.csr.asgArr = true then 1 else 0) ∧ f 0 137 1 (if s.c.ctxsOf i = [] then 0 else 1) ∧
    f 0 138 1 (if ∃ n ∈ s.c.ctxsOf i, (s.c.ctx n).trap.pl = true then 1 else 0) ∧ f 0 139 1 (if k.stopped = true then 1 else 0) ∧
    f 0 140 1 (if k.csr.asgArr = true ∧ s.c.arr.qm ≠ .off then 1 else 0) ∧ f 0 141 3 0 ∧ f 0 144 16 k.rank ∧ f 0 160 8 k.csr.lo.toNat ∧ f 0 168 8 k.csr.hi.toNat ∧
    f 0 176 8 s.c.m.ways ∧ f 0 184 8 0 ∧ f 0 192 16 k.csr.asgSlots.toNat ∧ f 0 208 48 0 ∧ f 0 256 64 k.imageLen ∧ f 0 320 64 s.time ∧ f 0 384 32 k.code ∧
    f 0 416 32 k.codeLen ∧ f 0 448 64 k.recAddr.toNat ∧ f 0 512 512 0
/-- The CSRs of an actor in its image, in the order of R367 (log 12). -/
def csrsHold (k : Actor) (l : List (Word × Byte)) : Prop :=
  let f := imageField l 16
  let c := k.csr
  f 0 2 c.scb.toNat ∧ f 2 16 c.sealctl.toNat ∧ f 18 64 c.seallog.toNat ∧ f 82 32 c.hbudget.toNat ∧ f 114 16 c.age.toNat ∧ f 130 7 c.lo.toNat ∧
    f 137 7 c.hi.toNat ∧ f 144 16 c.rspBase.toNat ∧ f 160 64 (c.w % 2 ^ 64) ∧ f 224 7 c.mask.toNat
/-- A firing's registers in an image, with its first eleven pending results; PC, g, seals, k and FPX as fields (R57, R367, log 12). -/
def firingHolds (x : Ctx) (l : List (Word × Byte)) : Prop :=
  let f := imageField l 0x400
  f 0 64 x.pc.toNat ∧ (∀ n, 1 ≤ n → n < 32 → f (592 + 64 * n) 64 (x.regs.gv n).toNat ∧ f (2640 + 8 * n) 8 (x.regs.gsl n).toNat) ∧
    (∀ n, 1 ≤ n → n < 8 → f (2896 + 32 * n) 32 (x.regs.kv n).toNat) ∧ f 3152 6 x.fpx.toNat ∧
    (∀ n j, n < 32 → j < 16 → imageWord l (0x480 + 16 * n + j) (pair (x.regs.vv n) j) ∧ imageField l (0x680 + 2 * n) (8 * j) 8 (pairSeal (x.regs.vsl n) j).toNat) ∧
    ∀ n p, n < 11 → x.pend[n]? = some p → p.reg.inRange = true → p.left < 2 ^ 8 →
      let g := imageField l (0x6D0 + 24 * n)
      g 0 8 (match p.reg with
        | .g _ => 1
        | .v _ => 2
        | .k _ => 3) ∧
      g 8 8 (match p.reg with
        | .g r | .v r | .k r => r) ∧ g 16 8 p.left ∧ g 64 1024 p.old.toNat ∧ g 1088 128 p.seals.toNat
/-- What CTXSAVE and EVICT write at va for the actor k at index i, over the state in which its streams are back and its release is done (R365, R367, R368). -/
def wroteImage (s t : State) (i va : Nat) (k : Actor) : Prop :=
  ∃ l : List (Word × Byte), t.home.mem = ((s.settle s.cur i).distWrites k.part va l).home.mem ∧ l.length = k.imageLen / 8 ∧
    (∀ j, j < imageBase k.csr.asgArr / 8 → ∃ w, imageWord l j w) ∧ headerHolds s i k l ∧ csrsHold k l ∧
    (∀ n, (s.c.ctxsOf i).head? = some n → firingHolds (s.c.ctx n) l) ∧
    ∀ j, j < (k.csr.hi.toNat - k.csr.lo.toNat) * 1024 → l[imageBase k.csr.asgArr / 8 + j]? =
      some (s.c.m.lm.gran (1024 * k.csr.lo.toNat + j), s.c.m.lm.sealOf (1024 * k.csr.lo.toNat + j))

end Sys2Proof.Claims

/-- At level S with the operands not awaited and clean (R365 to R370); no register but g[D] is written. GSTOP writes 2 for no gang of the partition and 1 for a stopped
one, changing nothing else; for a running gang no member of which has work left to complete, it completes with 0, the gang and every resident member stopped
and each context that runs a firing of one halted. GRESUME writes 2 for an unknown or running gang and 1 when a member is not resident or its map entry is parked,
changing nothing else; else 0, the gang, its members and their contexts go on; parked messages may be left to replay, an inference (log 56). Of the others' statuses the order is the model's choice (log 55). An index above 15 or
without the actor to save or an address not 8 KiB-aligned writes 2, a range that does not translate for writing 3, a running actor 1, and nothing else changes. Otherwise, once nothing it waits for is
left and no line of the image is locked (R249), CTXSAVE completes with 0, the actor still resident; EVICT with 0, the index free, no slot of the actor open, its map
entry parked. Both write at g[B], from the state in which the actor's streams are back and its release is done, the granules of the image (R367), each before the window
with a fresh seal: the header, the actor's CSRs and a firing's scalar state as fields in the order of R367 (their places are the model's choice, log 12), its v registers
and their seals, its first eleven pending results, and the LM window as a move; a field must have room for what it holds. CTXLOAD and RESTORE, with no line of the image
locked, write the status of a missing, malformed or unreadable image, or 1 where its resources or the place of its quad are not free; else they complete with 0, the
actor of the image resident at the index, its LM window, granules and seals, as the image holds it, for RESTORE with its map entry naming this core and index and,
while the park buffer that an entry named before holds records, under the fence. -/
def Obligations.GangAndImageResults : Prop :=
  (
  ∀ (a d : BitVec 5) (l : BitVec 3) (s : State), s.x.trap.pl = true → s.readyFor l.toNat false [gR a] = true → (s.seen l.toNat false).clean a.toNat = true →
    let x := (s.seen l.toNat false).gv a.toNat
    ((∀ g, ¬ namesGang s x g) → answers (.gstop a d l) s d 2 ∧ answers (.gresume a d l) s d 2) ∧
    (∀ g, namesGang s x g →
      (g.stopped = true → answers (.gstop a d l) s d 1) ∧
      (g.stopped = false → answers (.gresume a d l) s d 2) ∧
      (g.stopped = true → ((s.residents g).length ≠ g.members.length ∨ ∃ m ∈ g.members, amState (s.amap g.part m.2.2) = 2) → answers (.gresume a d l) s d 1) ∧
      (g.stopped = false → (∀ p ∈ s.residents g, (s.haltGang g).memberBusy p.1 p.2 = false) →
        ∃ t, exec (.gstop a d l) s = .next t ∧ wroteStatus s t d 0 ∧ (∃ h, t.gangOf g.id = some h ∧ h.stopped = true) ∧
          ∀ p ∈ s.residents g, (∃ k, (t.core p.1).actor p.2 = some k ∧ k.stopped = true) ∧
            ∀ k, k < 4 → (∃ f, ((s.core p.1).ctx k).firing = some f ∧ f.actor = p.2) → ((t.core p.1).ctx k).halted = true) ∧
      (g.stopped = true → (s.residents g).length = g.members.length → (∀ m ∈ g.members, amState (s.amap g.part m.2.2) ≠ 2) →
        ∃ t, exec (.gresume a d l) s = .next t ∧ wroteStatus s t d 0 ∧ (∃ h, t.gangOf g.id = some h ∧ h.stopped = false) ∧
          ∀ p ∈ s.residents g, (∃ k, (t.core p.1).actor p.2 = some k ∧ k.stopped = false) ∧
            ∀ k, k < 4 → (∃ f, ((s.core p.1).ctx k).firing = some f ∧ f.actor = p.2) → ((t.core p.1).ctx k).halted = false))
  ) ∧
  (
  ∀ (b a d : BitVec 5) (l : BitVec 3) (s : State), s.x.trap.pl = true → coreNumber s.cur < 1024 → s.readyFor l.toNat false [gR a, gR b] = true →
    (s.seen l.toNat false).clean a.toNat = true → (s.seen l.toNat false).clean b.toNat = true →
    let i := ((s.seen l.toNat false).gv a.toNat).toNat
    let va := ((s.seen l.toNat false).gv b.toNat).toNat
    let both := fun (n : Nat) => answers (.ctxsave b a d l) s d n ∧ answers (.evict b a d l) s d n
    let loads := fun (n : Nat) => answers (.ctxload b a d l) s d n ∧ answers (.restore b a d l) s d n
    ((16 ≤ i ∨ va % 8192 ≠ 0 ∨ s.c.actor i = none) → both 2) ∧
    (∀ k, i < 16 → va % 8192 = 0 → s.c.actor i = some k →
      (s.rangeOk s.c.partNo va k.imageLen true = false → both 3) ∧
      (s.rangeOk s.c.partNo va k.imageLen true = true →
        (k.stopped = false → s.c.ctxsOf i ≠ [] → both 1) ∧
        ((k.stopped = true ∨ s.c.ctxsOf i = []) → s.saveReady s.cur i = true → s.imageBusy i va = false →
          (∃ t, exec (.ctxsave b a d l) s = .next t ∧ wroteStatus s t d 0 ∧ (∃ k', t.c.actor i = some k' ∧ k'.addr = k.addr ∧ k'.mbs = k.mbs) ∧
            (∃ m ∈ t.dist.images, m.part = k.part ∧ m.time = s.time ∧ m.actor.addr = k.addr) ∧ wroteImage s t i va k) ∧
          (∃ t, exec (.evict b a d l) s = .next t ∧ (s.x.firing = none → wroteStatus s t d 0) ∧ t.c.actor i = none ∧ amState (t.amap k.part k.addr) = 2 ∧
            (∀ j, j < 16 → k.csr.asgSlots.getLsbD j = true → (t.c.stream j).ph = .closed) ∧ wroteImage s t i va k)))) ∧
    (16 ≤ i → loads 2) ∧
    (i < 16 → s.loadBusy va = false → (∀ n, s.readImage s.c.partNo va = .error n → loads n) ∧
      (∀ h m, s.readImage s.c.partNo va = .ok (h, m) →
        (Core.roomFor s.cur s.c i h = false ∨ s.quadRoom s.cur h = false → loads 1) ∧
        (Core.roomFor s.cur s.c i h = true → s.quadRoom s.cur h = true →
          let window := fun (t : State) => ∀ win, s.distReads s.c.partNo (va + imageBase (h.flags % 2 == 1)) ((h.hi - h.lo) * 1024) = some win →
            ∀ j q, win[j]? = some q → t.c.m.lm.gran (1024 * h.lo + j) = q.1 ∧ t.c.m.lm.sealOf (1024 * h.lo + j) = q.2
          (∃ t, exec (.ctxload b a d l) s = .next t ∧ ∃ k, t.c.actor i = some k ∧ k.addr = h.addr ∧ k.rank = h.rank ∧ k.csr.lo.toNat = h.lo % 128 ∧
            k.stopped = (h.flags / 8 % 2 == 1) ∧ window t) ∧
          (∃ t, exec (.restore b a d l) s = .next t ∧ ∃ k, t.c.actor i = some k ∧ k.addr = h.addr ∧ window t ∧
            (k.fence = true ↔ amState (s.amap k.part k.addr) ≠ 0 ∧ t.parkUsed (t.amap k.part k.addr) ≠ 0) ∧
            amState (t.amap k.part k.addr) = 1 ∧ amIdx (t.amap k.part k.addr) = i ∧ amCore (t.amap k.part k.addr) = coreNumber s.cur))))
  )

namespace Sys2Proof.Claims

/-- A core lies in a scope of TLBINV and TLBINVA (R358). -/
def inScope (s : State) (sc n : Nat) : Prop :=
  n = s.cur ∨ (sc = 1 ∧ isEave s.cur = false ∧ isEave n = false ∧ clusterOf n = clusterOf s.cur) ∨ 2 ≤ sc
/-- From a scope exactly the cached translations that p names are gone: from TLBs and the streams of its cores, from translation caches and, from scope 2 on,
from copies (R358). -/
structure invalidated (s t : State) (sc : Nat) (p : Tlb → Bool) : Prop where
  tlbs : ∀ n, inScope s sc n → (t.core n).m.tlb = (s.core n).m.tlb.filter (!p ·) ∧ ∀ k, ((t.core n).stream k).tlb = ((s.core n).stream k).tlb.filter (!p ·)
  others : ∀ n, ¬ inScope s sc n → t.core n = s.core n
  caches : ∀ k, (t.cluster k).tcache =
    if 2 ≤ sc ∨ (sc = 1 ∧ isEave s.cur = false ∧ k = clusterOf s.cur) then (s.cluster k).tcache.filter (!p ·) else (s.cluster k).tcache
  copies : t.dist.copies = if 2 ≤ sc then s.dist.copies.map fun c => { c with tlb := c.tlb.filter (!p ·) } else s.dist.copies
  home : t.home = s.home
  lms : ∀ n, (t.core n).m.lm = (s.core n).m.lm

end Sys2Proof.Claims

/-- At level S with the operands not awaited and clean. TLBINV and TLBINVA (R358): a scope above 3 writes 2 and removes nothing; otherwise, with no access left that may
use a stale entry, 0, and exactly the entries of the partition that serve the page, or all of the partition, are gone: for scope 0 from the core's TLB and its streams; for
scope 1 from those of every core of its cluster and the cluster's translation cache, for scopes 2 and 3 from those of every core and cluster of the device and from its
copies; cores out of the scope are as before, and home memory and LM. PAGEQ, with no line of the tables that it walks locked (R249), writes every field of the
translation's word and never traps (R359): V, HOME (0x1FF for a page of another device), CAP, PFN, LVL, WR, HD and KSLOT, or WHY. XBSET (R360): a value above 63 writes 2, one above both XB and the LO of a
resident actor 1; otherwise 0, BOUND is the value, LM between a lowered and the old boundary reads zero with seal 0 and the rest of LM as before. AMAPSET
(R363): a valid entry is stored with status 0, an invalid operand writes 2 and changes nothing. -/
def Obligations.TranslationAndMapResults : Prop :=
  ∀ (b a d : BitVec 5) (l : BitVec 3) (s : State), s.x.trap.pl = true → s.readyFor l.toNat false [gR a, gR b] = true →
    (s.seen l.toNat false).clean a.toNat = true → (s.seen l.toNat false).clean b.toNat = true →
    let ga := (s.seen l.toNat false).gv a.toNat
    let gb := (s.seen l.toNat false).gv b.toNat
    let near := fun (va : Word) => va.toNat / 2 ^ 30 == ga.toNat / 2 ^ 30
    let page := fun (e : Tlb) => e.part == s.c.partNo && e.serves s.c.partNo ga.toNat
    let every := fun (e : Tlb) => e.part == s.c.partNo
    (4 ≤ gb.toNat → answers (.tlbinv b a d l) s d 2) ∧ (4 ≤ ga.toNat → answers (.tlbinva a d l) s d 2) ∧
    (gb.toNat < 4 → s.usesStale gb.toNat near = false →
      ∃ t, exec (.tlbinv b a d l) s = .next t ∧ wroteStatus s t d 0 ∧ invalidated s t gb.toNat page) ∧
    (ga.toNat < 4 → s.usesStale ga.toNat (fun _ => true) = false →
      ∃ t, exec (.tlbinva a d l) s = .next t ∧ wroteStatus s t d 0 ∧ invalidated s t ga.toNat every) ∧
    ((ga.toNat < 2 ^ 56 → (s.translate s.cur s.c.partNo ga.toNat).1 ≠ .error 3) → ∃ t, exec (.pageq a d l) s = .next t ∧ t.c.m.lm = s.c.m.lm ∧ t.home.mem = s.home.mem ∧ s.wroteRegs t 4 0 (oneReg d) noReg noReg ∧
      (2 ^ 56 ≤ ga.toNat → t.x.regs.holdsG d.toNat 1 (sealFn 1)) ∧
      (ga.toNat < 2 ^ 56 → ∀ why, (s.translate s.cur s.c.partNo ga.toNat).1 = .error why →
        t.x.regs.holdsG d.toNat (BitVec.ofNat 64 why) (sealFn (BitVec.ofNat 64 why))) ∧
      (ga.toNat < 2 ^ 56 → ∀ x, (s.translate s.cur s.c.partNo ga.toNat).1 = .ok x → x.owner ≠ some s.c.partNo → t.x.regs.holdsG d.toNat 3 (sealFn 3)) ∧
      (ga.toNat < 2 ^ 56 → ∀ x, (s.translate s.cur s.c.partNo ga.toNat).1 = .ok x → x.owner = some s.c.partNo → d ≠ 0 →
        x.lvl < 4 → (s.remote x.pa = false → s.homeEave x.pa < 512) →
        let w := t.x.regs.gv d.toNat
        t.x.regs.gsl d.toNat = sealFn w ∧ w.getLsbD 63 = true ∧ w.toNat / 2 ^ 54 % 2 ^ 9 = (if s.remote x.pa = true then 0x1FF else s.homeEave x.pa) ∧
        (w.getLsbD 53 = true ↔ s.remote x.pa = false ∧ s.slotOfFrame (x.pa % 2 ^ 44 / 8192) ≠ 0) ∧ w.getLsbD 52 = false ∧
        w.toNat / 2 ^ 13 % 2 ^ 39 = x.pa / 2 ^ 13 % 2 ^ 39 ∧ w.toNat / 2 ^ 11 % 4 = x.lvl ∧ w.getLsbD 10 = x.wr ∧ w.getLsbD 9 = x.hd ∧
        w.toNat / 2 ^ 7 % 4 = x.kslot ∧ w.toNat % 2 ^ 7 = 0)) ∧
    (64 ≤ ga.toNat → answers (.xbset a d l) s d 2) ∧
    (ga.toNat < 64 →
      let high := s.c.m.xb.toNat < ga.toNat ∧ ∃ n k, (n, some k) ∈ s.c.actors ∧ k.csr.lo.toNat < ga.toNat
      (high → answers (.xbset a d l) s d 1) ∧
      (¬ high → ∃ t, exec (.xbset a d l) s = .next t ∧ wroteStatus s t d 0 ∧ t.c.m.xb = BitVec.ofNat 6 ga.toNat ∧ t.c.xbAddr = 8192 * ga.toNat ∧
        (∀ x, 8192 * ga.toNat ≤ x → x < s.c.xbAddr → t.c.m.lm.byte x = 0 ∧ t.c.m.lm.sealOf (x / 8) = 0) ∧
        (∀ x, (x < 8192 * ga.toNat ∨ s.c.xbAddr ≤ x) → t.c.m.lm.byte x = s.c.m.lm.byte x ∧ t.c.m.lm.sealOf (x / 8) = s.c.m.lm.sealOf (x / 8)))) ∧
    (let core := gb.toNat / 2 ^ 52 % 2 ^ 10
     let good := ga.toNat / 2 ^ 24 = s.devNum.toNat ∧ ga.toNat / 16 % 2 ^ 20 ≠ 0xFFFFF ∧ gb.toNat % 8 = 0 ∧ gb.toNat / 2 ^ 62 ≠ 3 ∧
       (gb.toNat / 2 ^ 62 = 1 → core ∈ (s.part s.c.partNo).cores ∨ 1024 + core ∈ (s.part s.c.partNo).cores)
     (¬ good → answers (.amapset b a d l) s d 2) ∧
     (good → ∃ t, exec (.amapset b a d l) s = .next t ∧ wroteStatus s t d 0 ∧ t.home = s.home ∧ t.c.m = s.c.m ∧
       ∀ id, tget 0 (t.part s.c.partNo).amap id = if id = ga.toNat / 16 % 2 ^ 20 then gb else tget 0 (s.part s.c.partNo).amap id))

/-! ## Streams -/

namespace Sys2Proof.Claims

/-- Everything outside the acting context is as before but the stream slots of the core, and one instruction is counted. -/
structure sameButStreams (s t : State) : Prop where
  outside : s.sameOutside t
  contexts : s.sameContexts t
  core : { t.c with ctxs := s.c.ctxs, streams := s.c.streams } = s.c.count 1 1
/-- The instruction completes after len bytes; it adds fl to FPX and writes only the registers that g, v and k name; slot j of the core becomes f j; P holds
after; nothing else changes. -/
def streamDoes (i : Instr) (s : State) (len : Nat) (fl : BitVec 6) (g v k : Nat → Bool) (f : Nat → Stream) (P : Regs → Prop) : Prop :=
  ∃ t, exec i s = .next t ∧ sameButStreams s t ∧ s.wroteRegs t len fl g v k ∧ (∀ j, t.c.stream j = f j) ∧ P t.x.regs
/-- Nothing is claimed. -/
def nothing : Regs → Prop := fun _ => True
/-- Slot k is assigned to the acting actor (R128). -/
def assigned (s : State) (k : BitVec 4) : Prop := ∃ w, s.act = some w ∧ w.csr.asgSlots.getLsbD k.toNat = true
/-- Slot k is assigned to the acting actor and open, and holds t. -/
def openAs (s : State) (k : BitVec 4) (t : Stream) : Prop := assigned s k ∧ s.c.stream k.toNat = t ∧ t.ph ≠ .closed
/-- The slots with slot k replaced. -/
def withSlot (s : State) (k : BitVec 4) (t : Stream) : Nat → Stream := fun j => if j = k.toNat then t else s.c.stream j

end Sys2Proof.Claims

namespace Sys2Proof.Claims

/-- The slots after SATT with descriptor d in slot k: a second stream bound by an earlier ADD2 is released (R138). -/
def attached (s : State) (k : BitVec 4) (t : Stream) (d : Descr) : Nat → Stream := fun j =>
  if j = k.toNat then { t with d := d } else if t.d.op = 8 ∧ j = t.d.slv.toNat then { s.c.stream j with bound := false } else s.c.stream j
/-- The instruction traps STREAM with a cause for slot k, and but for the trap nothing changes (R160). -/
def slotTraps (i : Instr) (s : State) (k : BitVec 4) (cause : Nat) : Prop :=
  exec i s = .next (takeTrap s 0x10 (BitVec.ofNat 64 cause) (BitVec.ofNat 64 k.toNat) s.x.pc)
/-- The stream instructions that change the descriptor of one slot and name no other (R138), each with the g registers that it reads. -/
def slotSetters (b a : BitVec 5) (j : BitVec 2) (f : Fmt) (k : BitVec 4) (l : BitVec 3) : List (Instr × List (BitVec 5)) :=
  [(.sdim j b a k l, [a, b]), (.sbase a k l, [a]), (.sattNone k l, []), (.sattScale a k l, [a]), (.sattAdds a k l, [a]), (.sattFmas b a k l, [a, b]),
   (.sattMins a k l, [a]), (.sattMaxs a k l, [a]), (.sattSumr k l, []), (.sattCvt f k l, [])]
/-- The other stream instructions that need their slot open (R160), each with the g registers that it reads. -/
def slotUsers (a : BitVec 5) (c : BitVec 3) (j : BitVec 2) (e : Bool) (k : BitVec 4) (l : BitVec 3) : List (Instr × List (BitVec 5)) :=
  [(.sgo k l, []), (.sclose a k l, []), (.spin j k l, []), (.spop a k l, []), (.spopk c a k l, []), (.sgrant a e k l, [a]), (.sfront a k l, []),
   (.swaitf a k l, [a]), (.sevt a k l, []), (.srecall k l, []), (.sskip a k l, [a]), (.ssave a k l, [a])]
/-- The g registers are not awaited and pass their checks. -/
def operandsOk (s : State) (l : BitVec 3) (rs : List (BitVec 5)) : Prop :=
  s.readyFor l.toNat false (rs.map gR) = true ∧ ∀ r ∈ rs, (s.seen l.toNat false).clean r.toNat = true

end Sys2Proof.Claims

/-- With g operands not awaited and clean and slot s assigned to the actor (R137, R138): SOPEN of a closed slot with a configuration that has no bit above 14 or in 7:6 and a format that
exists, N32 or S64 for IDX, opens it with that direction and configuration and every other field at its opening value; on an open, unstarted slot SDIM sets count and stride i
and keeps a grant within the new total (R132), SBASE
the base, SIDX binds an open, unbound IDX stream, or plain SRC stream of N32 or S64, with its index stride, and releases the slot bound before. No other slot and nothing
else changes. On an open, unstarted slot assigned to the actor, with the g operands not awaited and clean and an operation that R133 permits for the direction and format: SATT NONE, SCALE, ADDS, FMAS,
CVT, MINS, MAXS and SUMR set OP, the scalars a and b from the operands they have, CVTF for CVT, and release a second stream bound before; SATT ADD2 also binds an open, unbound, plain
SRC stream of the same format that is assigned to the actor (R138). No other slot and nothing else changes.
With the g operands not awaited and clean, STREAM traps in the order of R160, and then nothing but the trap changes: every instruction that needs its slot open traps 0x0C
for a slot that is not assigned, or in a context without an actor (R408), then 0x01 for a closed one (SIDX and SATT ADD2 take 0x0C for sk before that, and name s in TINFO1,
the model's choice of log 77); one that changes the descriptor 0x04 after SGO; SIDX and SATT ADD2 0x09 for a binding that R138 does not allow; SDIM 0x08 for a count above 32
bits; an operation that R133 does not permit 0x06. SOPEN traps 0x0C, then 0x02 for an open slot, 0x08 for a reserved bit, ILLEGAL cause 5 for a format code 14 or 15, and
0x06 for an IDX format other than N32 and S64. -/
def Obligations.StreamSetUpResults : Prop :=
  (
  (∀ (i : Dir) (a : BitVec 5) (k : BitVec 4) (l : BitVec 3) (s : State), s.readyFor l.toNat false [gR a] = true → (s.seen l.toNat false).clean a.toNat = true →
    assigned s k → (s.c.stream k.toNat).ph = .closed →
    let g := (s.seen l.toNat false).gv a.toNat
    g.toNat < 2 ^ 15 → g.toNat / 64 % 4 = 0 → g.toNat % 16 < 14 → (i = .idx → g.toNat % 16 = Fmt.n32.code.toNat ∨ g.toNat % 16 = Fmt.s64.code.toNat) →
    let d : Descr := { Descr.zero with dir := i, fmt := BitVec.ofNat 4 g.toNat, row := g.getLsbD 4, auto := g.getLsbD 5, evmb := BitVec.ofNat 3 (g.toNat / 256), evmsg := g.getLsbD 11, evmask := BitVec.ofNat 3 (g.toNat / 4096) }
    streamDoes (.sopen i a k l) s 4 0 noReg noReg noReg (withSlot s k { Stream.closed with ph := .opened, d := d }) nothing) ∧
  (∀ (i : BitVec 2) (b a : BitVec 5) (k : BitVec 4) (l : BitVec 3) (s : State) (t : Stream), openAs s k t → t.ph = .opened →
    s.readyFor l.toNat false [gR a, gR b] = true → (s.seen l.toNat false).clean a.toNat = true → (s.seen l.toNat false).clean b.toNat = true →
    let x := (s.seen l.toNat false).gv a.toNat
    let y := (s.seen l.toNat false).gv b.toNat
    let set' : Descr := { t.d with c := t.d.c.set i.toNat (BitVec.ofNat 32 x.toNat), t := t.d.t.set i.toNat y }
    let grant := if t.d.dir = .upd ∧ t.d.indir = false then min t.g set'.per else t.g
    (x.toNat < 2 ^ 32 → streamDoes (.sdim i b a k l) s 4 0 noReg noReg noReg (withSlot s k { t with d := set', g := grant, total := none }) nothing) ∧
    streamDoes (.sbase a k l) s 4 0 noReg noReg noReg (withSlot s k { t with d := { t.d with base := x } }) nothing) ∧
  (∀ (b : BitVec 5) (a k : BitVec 4) (l : BitVec 3) (s : State) (t u : Stream), openAs s k t → openAs s a u → t.ph = .opened → u.ph = .opened → a ≠ k →
    s.readyFor l.toNat false [gR b] = true → (s.seen l.toNat false).clean b.toNat = true →
    (u.bound = false ∨ (t.d.indir = true ∧ t.d.ixs = a)) → (t.d.indir = true → t.d.ixs ≠ k) →
    (u.d.dir = .idx ∨ (u.d.dir = .src ∧ u.d.op = 0 ∧ (u.d.format = .n32 ∨ u.d.format = .s64))) →
    streamDoes (.sidx b a k l) s 4 0 noReg noReg noReg (fun j =>
      if j = k.toNat then { t with d := { t.d with indir := true, ixs := a, ts := (s.seen l.toNat false).gv b.toNat }, total := none }
      else if j = a.toNat then { u with bound := true }
      else if t.d.indir = true ∧ j = t.d.ixs.toNat then { s.c.stream j with bound := false } else s.c.stream j) nothing)
  ) ∧
  (
  ∀ (b a : BitVec 5) (k : BitVec 4) (l : BitVec 3) (s : State) (t : Stream), openAs s k t → t.ph = .opened → (t.d.op = 8 → t.d.slv ≠ k) →
    let r := s.seen l.toNat false
    let may := fun op => opOk t.d.dir op t.d.format t.d.format = true
    let does := fun (i : Instr) (d : Descr) => streamDoes i s 4 0 noReg noReg noReg (attached s k t d) nothing
    (s.readyFor l.toNat false [] = true → (may 0 → does (.sattNone k l) { t.d with op := 0 }) ∧ (may 7 → does (.sattSumr k l) { t.d with op := 7 }) ∧
      ∀ f : Fmt, opOk t.d.dir 4 t.d.format f = true → does (.sattCvt f k l) { t.d with op := 4, cvtf := f.code }) ∧
    (s.readyFor l.toNat false [gR a] = true → r.clean a.toNat = true →
      (may 1 → does (.sattScale a k l) { t.d with op := 1, a := r.gv a.toNat }) ∧ (may 2 → does (.sattAdds a k l) { t.d with op := 2, a := r.gv a.toNat }) ∧
      (may 5 → does (.sattMins a k l) { t.d with op := 5, a := r.gv a.toNat }) ∧ (may 6 → does (.sattMaxs a k l) { t.d with op := 6, a := r.gv a.toNat }) ∧
      (s.readyFor l.toNat false [gR a, gR b] = true → r.clean b.toNat = true → may 3 →
        does (.sattFmas b a k l) { t.d with op := 3, a := r.gv a.toNat, b := r.gv b.toNat })) ∧
    (∀ (e : BitVec 4) (u : Stream), s.readyFor l.toNat false [] = true → openAs s e u → u.ph = .opened → e ≠ k → may 8 →
      (u.bound = false ∨ (t.d.op = 8 ∧ t.d.slv = e)) → u.d.dir = .src → u.d.fmt = t.d.fmt → u.d.op = 0 →
      streamDoes (.sattAdd2 e k l) s 4 0 noReg noReg noReg
        (fun j => if j = e.toNat then { u with bound := true } else attached s k t { t.d with op := 8, slv := e } j) nothing)
  ) ∧
  (
  ∀ (b a : BitVec 5) (k e : BitVec 4) (c : BitVec 3) (j : BitVec 2) (f : Fmt) (x : Bool) (l : BitVec 3) (s : State),
    let t := s.c.stream k.toNat
    let u := s.c.stream e.toNat
    let r := s.seen l.toNat false
    (∀ q ∈ slotSetters b a j f k l ++ slotUsers a c j x k l, operandsOk s l q.2 →
      (¬ assigned s k → slotTraps q.1 s k 0x0C) ∧
      (assigned s k → t.ph = .closed → (q.1 = .swaitf a k l → s.x.swait ≠ some k.toNat) → slotTraps q.1 s k 0x01)) ∧
    (∀ q ∈ slotSetters b a j f k l, operandsOk s l q.2 → openAs s k t → t.ph ≠ .opened → slotTraps q.1 s k 0x04) ∧
    (openAs s k t → t.ph = .opened →
      (operandsOk s l [a, b] → 2 ^ 32 ≤ (r.gv a.toNat).toNat → slotTraps (.sdim j b a k l) s k 0x08) ∧
      (∀ q ∈ [(Instr.sattNone k l, [], 0), (.sattScale a k l, [a], 1), (.sattAdds a k l, [a], 2), (.sattFmas b a k l, [a, b], 3), (.sattMins a k l, [a], 5),
          (.sattMaxs a k l, [a], 6), (.sattSumr k l, [], 7)], operandsOk s l q.2.1 → opOk t.d.dir q.2.2 t.d.format t.d.format = false → slotTraps q.1 s k 0x06) ∧
      (operandsOk s l [] → opOk t.d.dir 4 t.d.format f = false → slotTraps (.sattCvt f k l) s k 0x06)) ∧
    (∀ q ∈ [(Instr.sidx b e k l, [b], (t.d.indir && t.d.ixs == e, u.d.dir = .idx ∨ (u.d.dir = .src ∧ u.d.op = 0 ∧ (u.d.format = .n32 ∨ u.d.format = .s64)))),
        (.sattAdd2 e k l, [], (decide (t.d.op = 8) && t.d.slv == e, u.d.dir = .src ∧ u.d.fmt = t.d.fmt ∧ u.d.op = 0))], operandsOk s l q.2.1 →
      let may := e ≠ k ∧ u.ph = .opened ∧ (u.bound = false ∨ q.2.2.1 = true) ∧ q.2.2.2
      ((¬ assigned s k ∨ ¬ assigned s e) → slotTraps q.1 s k 0x0C) ∧
      (assigned s k → assigned s e → (t.ph = .closed → slotTraps q.1 s k 0x01) ∧ (t.ph ≠ .closed → t.ph ≠ .opened → slotTraps q.1 s k 0x04) ∧
        (t.ph = .opened → (¬ may → slotTraps q.1 s k 0x09) ∧ (may → q.1 = .sattAdd2 e k l → opOk t.d.dir 8 t.d.format t.d.format = false → slotTraps q.1 s k 0x06)))) ∧
    (∀ i : Dir, operandsOk s l [a] → let g := (r.gv a.toNat).toNat
      let o : Instr := .sopen i a k l
      (¬ assigned s k → slotTraps o s k 0x0C) ∧ (assigned s k → (t.ph ≠ .closed → slotTraps o s k 0x02) ∧
        (t.ph = .closed → ((2 ^ 15 ≤ g ∨ g / 64 % 4 ≠ 0) → slotTraps o s k 0x08) ∧
          (g < 2 ^ 15 → g / 64 % 4 = 0 → (14 ≤ g % 16 → ∀ w, encode o = .w32 w →
              exec o s = .next (takeTrap s 0x01 (BitVec.ofNat 64 (g % 16)) (BitVec.ofNat 64 (w.toNat * 2 ^ 32 + 5)) s.x.pc)) ∧
            (g % 16 < 14 → i = .idx → g % 16 ≠ Fmt.n32.code.toNat → g % 16 ≠ Fmt.s64.code.toNat → slotTraps o s k 0x06)))))
  )

namespace Sys2Proof.Claims

/-- A slot that SGO starts (R139): the grant of an AUTO update stream is its total, which holds the grant of an indirect one as soon as it is known (R132). -/
def started (t : Stream) : Stream :=
  { t with ph := .running, halt := none, read := if t.d.dir = .src then t.f else t.read
           g := if t.d.dir = .upd ∧ t.d.auto = true then (if t.d.indir = true then 2 ^ 64 - 1 else t.d.per) else t.g }
/-- No slot that runs where slot k runs takes its indices from slot k as a SRC stream: such a one steps back with what reads it (R148). -/
def ownIndex (s : State) (k : BitVec 4) : Prop :=
  ∀ j ∈ s.c.along (s.c.root k.toNat), (s.c.stream j).d.indir = true → (s.c.stream j).d.ixs = k → (s.c.stream k.toNat).d.dir = .idx
/-- What a closing stream leaves in g[a]: its sum, an F32 or a 64-bit integer, or 0 (R149). -/
def finalSum (t : Stream) : Word := if t.d.op = 7 then (if t.d.format.isFloat = true then BitVec.ofNat 64 (t.acc.toNat % 2 ^ 32) else t.acc) else 0

end Sys2Proof.Claims

/-- SGO traps STREAM 0x03 on a bound or IDX slot, then 0x06 on an open one when its pattern or that of a bound SRC stream is not valid or the totals of an ADD2 pair, both known,
differ; SCLOSE traps 0x09 on a bound slot (R139, R149, R160). SGO on an open, unbound SRC, DRN or UPD slot completes when its pattern and those of its bound SRC streams are valid, no earlier store of the actor may touch an element of theirs
and no locked line holds a write-back back: it and they start, with one entry more in their courses (R139, R155); on a halted slot it completes and resumes it and those of them that are
halted, on a running one it completes and does nothing. SCLOSE of an unbound slot completes once the slot has drained, as its counts stand within a total that is known, and no store
routed to it or to what runs with it is on its way: it closes the slot and the slots bound to it, which keep their courses, ORs FLAGS into FPX and writes the sum, or 0 (R149). SPIN completes and sets PIN, SRECALL completes and sets PIN to 1; where the stream is then at an
excluded location, once no such store is on its way, it comes back to the core, with its descriptor as before and its counts too where no
other slot runs with it or it is affine (R140, R148). LM, the other contexts and the other registers are as before. -/
def Obligations.StreamStartAndCloseResults : Prop :=
  ∀ (a : BitVec 5) (k : BitVec 4) (l : BitVec 3) (s : State) (t : Stream), openAs s k t → s.readyFor l.toNat false [] = true →
    let fam := s.c.family k.toNat
    ((t.bound = true ∨ t.d.dir = .idx) → slotTraps (.sgo k l) s k 0x03) ∧ (t.bound = true → slotTraps (.sclose a k l) s k 0x09) ∧
    (t.bound = false → t.d.dir ≠ .idx → t.ph = .opened →
      (t.d.patternOk = false ∨ (∃ j ∈ fam, (s.c.stream j).d.dir = .src ∧ (s.c.stream j).d.patternOk = false) ∨
        (t.d.op = 8 ∧ ∃ p q, s.c.total t = some p ∧ s.c.total (s.c.stream t.d.slv.toNat) = some q ∧ p ≠ q)) → slotTraps (.sgo k l) s k 0x06) ∧
    let quiet := fun (u : State) => flowOnly s u 4 ∧ u.c.m.lm = s.c.m.lm ∧ s.sameContexts u
    (t.bound = false → t.d.dir ≠ .idx →
      (t.ph = .opened → t.d.patternOk = true → (∀ j ∈ fam, (s.c.stream j).d.dir = .src → (s.c.stream j).d.patternOk = true) →
        (t.d.op = 8 → ∀ p q, s.c.total t = some p → s.c.total (s.c.stream t.d.slv.toNat) = some q → p = q) →
        (∀ j, j = k.toNat ∨ j ∈ fam → s.storesBefore (s.c.stream j) = false) → s.pushBlocked = false →
        ∃ u, exec (.sgo k l) s = .next u ∧ quiet u ∧
          (∀ j, j = k.toNat ∨ j ∈ fam → { u.c.stream j with course := [] } = { started (s.c.stream j) with course := [] } ∧
            ∃ e, (u.c.stream j).course.getLast? = some e ∧ e.loc = (s.c.stream j).loc ∧ e.f = (s.c.stream j).f) ∧
          ∀ j, j ≠ k.toNat → j ∉ fam → u.c.stream j = s.c.stream j) ∧
      (t.ph = .halted → streamDoes (.sgo k l) s 4 0 noReg noReg noReg (fun j =>
        if j = k.toNat ∨ (j ∈ fam ∧ (s.c.stream j).ph = .halted) then { s.c.stream j with ph := .running, halt := none } else s.c.stream j) nothing) ∧
      (t.ph = .running → streamDoes (.sgo k l) s 4 0 noReg noReg noReg s.c.stream nothing)) ∧
    (t.bound = false → s.c.taker k.toNat = none → s.c.recallable k.toNat = true →
      let q := s.c.slot k.toNat
      (t.ph = .running → (t.d.dir = .drn → q.buf = [] ∧ q.pushed ≤ q.f) ∧ (t.d.dir = .upd → q.g ≤ q.f)) →
      ∃ u, exec (.sclose a k l) s = .next u ∧ s.sameOutside u ∧ s.sameContexts u ∧ s.wroteRegs u 4 t.flags (oneReg a) noReg noReg ∧ u.c.m = s.c.m ∧
        u.x.regs.holdsG a.toNat (finalSum t) (sealFn (finalSum t)) ∧
        (∀ j, j = k.toNat ∨ j ∈ fam → { u.c.stream j with course := [] } = Stream.closed) ∧
        (t.loc = 0 → ∀ j, if j = k.toNat ∨ j ∈ fam then (u.c.stream j).course = (s.c.stream j).course else u.c.stream j = s.c.stream j)) ∧
    (∀ i : BitVec 2, (i = 0 ∨ t.loc = 0 ∨ (i = 2 ∧ t.loc = 1) ∨ (i = 3 ∧ t.loc ≠ 3)) → streamDoes (.spin i k l) s 4 0 noReg noReg noReg (withSlot s k { t with pin := i }) nothing) ∧
    (t.loc = 0 → streamDoes (.srecall k l) s 4 0 noReg noReg noReg (withSlot s k { t with pin := 1 }) nothing) ∧
    (∀ i : BitVec 2, s.c.recallable k.toNat = true → t.loc ≠ 0 → ∀ e ∈ [Instr.spin i k l, Instr.srecall k l],
      (e = .spin i k l → i ≠ 0 ∧ ¬ (i = 2 ∧ t.loc = 1) ∧ ¬ (i = 3 ∧ t.loc ≠ 3)) →
      ∃ u, exec e s = .next u ∧ quiet u ∧ (u.c.stream k.toNat).loc = 0 ∧ (u.c.stream k.toNat).pin = (if e = .srecall k l then 1 else i) ∧
        (u.c.stream k.toNat).ph = t.ph ∧ (u.c.stream k.toNat).d = t.d ∧
        (ownIndex s k → t.d.indir = false ∨ (k.toNat ∉ t.boundSlots ∧ ∀ j, k.toNat ∈ s.c.along j → j = k.toNat) →
          (u.c.stream k.toNat).g = (s.c.slot k.toNat).g ∧ (u.c.stream k.toNat).f = (s.c.slot k.toNat).f))

namespace Sys2Proof.Claims

/-- How many elements a pop takes: those left in the total, a vector, the run when ROW is set, and none from the halting element on (R141). -/
def popCount (t : Stream) (total : Option Nat) : Nat :=
  let n := 1024 / t.d.regFmt.bits
  let m := match total with
    | some q => min n (q - t.f)
    | none => n
  let r := if t.d.row = true then min m (t.d.cnt 0 - (if t.d.indir = true then t.within else t.f) % t.d.cnt 0) else m
  match t.halt with
  | some h => if t.ph = .halted then min r (h - t.f) else r
  | none => r
/-- A pop can go on (R133, R141, R301): counts within the elements that the indices give (R132), a permitted operation, a started, unbound SRC slot, no array operation before it, not halted at F, elements left, and enough at the core, each granule
of which passes its check. -/
def popReady (s : State) (t : Stream) (k : BitVec 4) : Prop :=
  s.c.slot k.toNat = t ∧ opOk t.d.dir t.d.op.toNat t.d.format (if t.d.op = 4 then t.d.cvtFmt else t.d.format) = true ∧ t.ph ≠ .opened ∧ t.d.dir = .src ∧ t.bound = false ∧ s.c.taker k.toNat = none ∧ ¬ (t.ph = .halted ∧ t.halt = some t.f) ∧ (∀ q, s.c.total t = some q → t.f < q) ∧
  t.buf ≠ [] ∧ popCount t (s.c.total t) ≤ t.buf.length ∧ ∀ e ∈ t.buf.take (popCount t (s.c.total t)), syn e.gr e.sl = 0
/-- The elements that it delivers, after the attached operation. -/
def deliveries (t : Stream) (m : Nat) : List (Nat × Flags) := (t.buf.take m).map fun e => t.d.deliver (e.raw t.d) e.pairByte e.val.toNat
/-- The slot after m elements have been taken from it. -/
def taken (t : Stream) (m : Nat) (u : Stream) : Prop :=
  u.f = t.f + m ∧ u.frec = t.f + m ∧ u.buf = t.buf.drop m ∧ u.flags = (deliveries t m).foldl (fun x q => x ||| q.2) t.flags ||| u.flags ∧
  (t.d.op ≠ 7 → u.acc = t.acc ∧ u.flags = (deliveries t m).foldl (fun x q => x ||| q.2) t.flags) ∧ u.ph = t.ph ∧ u.d = t.d ∧ u.g = t.g
/-- The pop completes after len bytes: v[a] holds the elements and zeros above, the slot has given them, and nothing but the index stream's count changes besides. -/
def pops (i : Instr) (s : State) (len : Nat) (t : Stream) (k : BitVec 4) (a : BitVec 5) (kd : Nat → Bool) (P : Regs → Prop) : Prop :=
  let m := popCount t (s.c.total t)
  let w := t.d.regFmt.bits
  ∃ u, exec i s = .next u ∧ sameButStreams s u ∧ s.wroteRegs u len 0 noReg (oneReg a) kd ∧ taken t m (u.c.stream k.toNat) ∧ P u.x.regs ∧
    (∀ j, j ≠ k.toNat → (t.d.indir = true → j ≠ t.d.ixs.toNat) → u.c.stream j = s.c.stream j) ∧
    (∀ n, n < m → elem (u.x.regs.vv a.toNat) w n = ((deliveries t m).map (·.1)).getD n 0 % 2 ^ w) ∧
    (∀ n, m ≤ n → n < 1024 / w → elem (u.x.regs.vv a.toNat) w n = 0) ∧
    (∀ j, j < 16 → m * w ≤ 64 * j → pairSeal (u.x.regs.vsl a.toNat) j = 0) ∧
    (t.d.op ≠ 0 → ∀ j, j < 16 → 64 * j < m * w → pairSeal (u.x.regs.vsl a.toNat) j = sealFn (pair (u.x.regs.vv a.toNat) j))

end Sys2Proof.Claims

/-- On a started, unbound SRC slot of the actor, not halted at F, with elements left and the m elements that R141 gives at the core with clean granules, SPOP, C.SPOP and SPOPK complete: v[A]
holds them in order after the attached operation and zeros above, pairs of zeros with seal 0x00 and, with an operation attached, other pairs freshly sealed (R142); F advances by
m; SPOPK sets in k[B] the lanes that hold a delivered element. Only the slot, its index stream's count, v[A] and k[B] change.  Else they trap STREAM in the order of R160, and only
the trap changes: 0x0C, 0x01, 0x0D on a slot not started, 0x03 on one that is bound or no SRC, and, with no MMA before them, 0x07 at the halted element, 0x05 with none
left, and 0x0A when only SPUSH can supply the next index. -/
def Obligations.StreamPopResults : Prop :=
  (∀ (b : BitVec 3) (a : BitVec 5) (k : BitVec 4) (l : BitVec 3) (s : State), let t := s.c.slot k.toNat
    let ix := s.c.indexOf t
    ∀ i ∈ [Instr.spop a k l, .spopk b a k l, .cSpop k a], (if i = .cSpop k a then s.readyFor 0 true [] else s.readyFor l.toNat false []) = true →
      (¬ assigned s k → slotTraps i s k 0x0C) ∧ (assigned s k → (t.ph = .closed → slotTraps i s k 0x01) ∧ (t.ph = .opened → slotTraps i s k 0x0D) ∧
        (t.ph ≠ .closed → t.ph ≠ .opened → ((t.d.dir ≠ .src ∨ t.bound = true) → slotTraps i s k 0x03) ∧
          (t.d.dir = .src → t.bound = false → s.c.taker k.toNat = none → (t.ph = .halted → t.halt = some t.f → slotTraps i s k 0x07) ∧
            (¬ (t.ph = .halted ∧ t.halt = some t.f) → (∀ q, s.c.total t = some q → q ≤ t.f → slotTraps i s k 0x05) ∧
              (t.d.indir = true → t.buf = [] → t.addr t.f = none → s.c.total t = none → ix.d.dir = .idx → (∀ e ∈ ix.buf, e.e ≠ t.ixpos + t.idx.length) →
                ix.skipped (t.ixpos + t.idx.length) = false → slotTraps i s k 0x0A)))))) ∧
  ∀ (b : BitVec 3) (a : BitVec 5) (k : BitVec 4) (l : BitVec 3) (s : State) (t : Stream), openAs s k t → popReady s t k →
    let held := (popCount t (s.c.total t) * t.d.regFmt.bits + 31) / 32
    (s.readyFor l.toNat false [] = true → pops (.spop a k l) s 4 t k a noReg nothing ∧
      pops (.spopk b a k l) s 4 t k a (oneReg b) fun r => b ≠ 0 → r.kv b.toNat = BitVec.ofNat 32 (2 ^ held - 1)) ∧
    (s.readyFor 0 true [] = true → pops (.cSpop k a) s 2 t k a noReg nothing)

namespace Sys2Proof.Claims

/-- How many elements a push takes (R143). -/
def pushCount (t : Stream) (total : Option Nat) : Nat :=
  let n := 1024 / t.d.regFmt.bits
  let m := match total with
    | some q => min n (q - t.pushed)
    | none => n
  if t.d.row = true then min m (t.d.cnt 0 - t.pushed % t.d.cnt 0) else m
/-- A number clamped to a total that is known, else to what 64 bits hold (R144, R145). -/
def atMost (total : Option Nat) (n : Nat) : Nat := match total with
  | some q => min n q
  | none => min n (2 ^ 64 - 1)
/-- The elements that a push adds: element i of the register, with the pair and the seal it came in and the place of the pair in what was pushed. -/
def pushedElems (r : Regs) (t : Stream) (a : BitVec 5) (m : Nat) : List Elem :=
  let w := t.d.regFmt.bits
  (List.range m).map fun i => ⟨t.pushed + i, BitVec.ofNat 64 (elem (r.vv a.toNat) w i), pair (r.vv a.toNat) (i * w / 64), pairSeal (r.vsl a.toNat) (i * w / 64),
    BitVec.ofNat 64 (8 * (t.pushed + i * w / 64 * (64 / w))), false⟩

end Sys2Proof.Claims

/-- On an open slot of the actor, operands not awaited and clean. SPUSH and C.SPUSH on a DRN or IDX slot with elements left and room in the push buffer add the m low elements of v[A] (R143). SGRANT on an
UPD slot adds g[A] to G, SGRANT.SET raises G to it, clamped to the total (R144). SSKIP of n passes elements over: F of a SRC slot, G of an UPD one, the pushed count of the others, clamped
to the total (R145). SFRONT writes the recorded frontier, SEVT EVPEND and LOC, clearing EVPEND; SWAITF goes on when the record has reached min(g[A], L) or the stream
has halted, else it waits (R146, R147). Counts are read within a total that is known (R132). Nothing else changes. That SPUSH completes on a DRN slot that is open and not started
is an inference (log 58): R143 names IDX only. On another direction SPUSH traps STREAM 0x03, with no element left 0x05, and SGRANT on one that is no UPD 0x03; C.SPUSH and SPUSH
trap 0x0C and 0x01 first (R160). -/
def Obligations.StreamPushAndGrantResults : Prop :=
  (∀ (a : BitVec 5) (e : Bool) (k : BitVec 4) (l : BitVec 3) (s : State), let t := s.c.stream k.toNat
    (∀ i ∈ [Instr.spush a k l, .cSpush k a], (if i = .cSpush k a then s.readyFor 0 true [vR a] else s.readyFor l.toNat false [vR a]) = true →
      (¬ assigned s k → slotTraps i s k 0x0C) ∧ (assigned s k → (t.ph = .closed → slotTraps i s k 0x01) ∧
        (t.ph ≠ .closed → (t.d.dir ≠ .drn → t.d.dir ≠ .idx → slotTraps i s k 0x03) ∧
          ((t.d.dir = .drn ∨ t.d.dir = .idx) → pushCount t (s.c.total t) = 0 → slotTraps i s k 0x05)))) ∧
    (operandsOk s l [a] → openAs s k t → t.d.dir ≠ .upd → slotTraps (.sgrant a e k l) s k 0x03)) ∧
  ∀ (a : BitVec 5) (k : BitVec 4) (l : BitVec 3) (s : State) (t : Stream), openAs s k t →
    let m := pushCount t (s.c.total t)
    let need := List.range ((m * t.d.regFmt.bits + 63) / 64)
    let room := t.buf.length + m ≤ 8 * (1024 / t.d.regFmt.bits)
    ((t.d.dir = .drn ∨ t.d.dir = .idx) → 0 < m → room →
      (s.readyFor l.toNat false [vR a] = true → (s.seen l.toNat false).cleanV a.toNat need = true →
        streamDoes (.spush a k l) s 4 0 noReg noReg noReg (withSlot s k { t with buf := t.buf ++ pushedElems (s.seen l.toNat false) t a m, pushed := t.pushed + m }) nothing) ∧
      (s.readyFor 0 true [vR a] = true → s.x.regs.cleanV a.toNat need = true →
        streamDoes (.cSpush k a) s 2 0 noReg noReg noReg (withSlot s k { t with buf := t.buf ++ pushedElems s.x.regs t a m, pushed := t.pushed + m }) nothing)) ∧
    (s.readyFor l.toNat false [gR a] = true → (s.seen l.toNat false).clean a.toNat = true →
      let n := ((s.seen l.toNat false).gv a.toNat).toNat
      let q := s.c.total t
      (t.d.dir = .upd → streamDoes (.sgrant a false k l) s 4 0 noReg noReg noReg (withSlot s k { t with g := atMost q (t.g + n) }) nothing ∧
        streamDoes (.sgrant a true k l) s 4 0 noReg noReg noReg (withSlot s k { t with g := atMost q (max t.g n) }) nothing) ∧
      (s.c.taker k.toNat = none → (t.d.indir = true → t.d.ixs ≠ k) → ∃ u, exec (.sskip a k l) s = .next u ∧ sameButStreams s u ∧ flowOnly s u 4 ∧
        (∀ j, j ≠ k.toNat → (t.d.indir = true → j ≠ t.d.ixs.toNat) → u.c.stream j = s.c.stream j) ∧ (u.c.stream k.toNat).d = t.d ∧ (u.c.stream k.toNat).ph = t.ph ∧
        ((u.c.stream k.toNat).f = if t.d.dir = .src then t.f + (atMost q (t.f + n) - t.f) else t.f) ∧
        ((u.c.stream k.toNat).g = if t.d.dir = .upd then atMost q (t.g + n) else t.g) ∧
        ((u.c.stream k.toNat).pushed = if t.d.dir = .drn ∨ t.d.dir = .idx then atMost q (t.pushed + n) else t.pushed)) ∧
      (let h := s.c.slot k.toNat
       let limit := if t.d.dir = .upd then h.g else if t.d.dir = .drn then h.pushed else h.frec
       ((t.ph = .halted ∨ min n limit ≤ h.frec) → streamDoes (.swaitf a k l) s 4 0 noReg noReg noReg s.c.stream nothing) ∧
       (t.ph ≠ .halted → h.frec < min n limit → exec (.swaitf a k l) s = .next (s.upX fun x => { x with swait := some k.toNat }).park))) ∧
    (s.readyFor l.toNat false [] = true →
      (let w := BitVec.ofNat 64 (s.c.slot k.toNat).frec
       writesG (.sfront a k l) s 4 a w (sealFn w)) ∧
      let w := BitVec.ofNat 64 (t.evpend.toNat + 16 * t.loc.toNat)
      streamDoes (.sevt a k l) s 4 0 (oneReg a) noReg noReg (withSlot s k { t with evpend := 0 }) fun r => r.holdsG a.toNat w (sealFn w))

namespace Sys2Proof.Claims

/-- The control word of R129. -/
def controlWord (t : Stream) : Nat :=
  let b := fun (x : Bool) => if x then 1 else 0
  let state := match t.ph with
    | .closed => 0
    | .opened => 1
    | .running => 2
    | .halted => 3
  t.d.fmt.toNat + b t.d.row * 2 ^ 4 + b t.d.auto * 2 ^ 5 + t.d.evmb.toNat * 2 ^ 8 + b t.d.evmsg * 2 ^ 11 + t.d.evmask.toNat * 2 ^ 12 + t.d.dir.code.toNat * 2 ^ 16 +
    t.d.op.toNat * 2 ^ 21 + state * 2 ^ 25 + t.pin.toNat * 2 ^ 27 + t.loc.toNat * 2 ^ 29 + t.d.cvtf.toNat * 2 ^ 31 + b t.bound * 2 ^ 35 + b t.d.indir * 2 ^ 36 +
    t.d.ixs.toNat * 2 ^ 37 + t.d.slv.toNat * 2 ^ 41 + t.evpend.toNat * 2 ^ 45 + t.flags.toNat * 2 ^ 48
/-- The sixteen words of an image (R150). -/
def imageWords (t : Stream) : List Word :=
  [BitVec.ofNat 64 (controlWord t), t.d.base, t.d.t.getD 0 0, t.d.t.getD 1 0, t.d.t.getD 2 0, t.d.t.getD 3 0,
    BitVec.ofNat 64 ((t.d.c.getD 0 1).toNat + (t.d.c.getD 1 1).toNat * 2 ^ 32), BitVec.ofNat 64 ((t.d.c.getD 2 1).toNat + (t.d.c.getD 3 1).toNat * 2 ^ 32),
    t.d.a, t.d.b, BitVec.ofNat 64 t.g, BitVec.ofNat 64 t.f, t.acc, t.d.ts, BitVec.ofNat 64 (if t.d.dir = .drn ∨ t.d.dir = .idx then t.pushed else 0),
    BitVec.ofNat 64 (if t.d.indir = true ∧ t.total ≠ some t.f then t.within else 0)]

end Sys2Proof.Claims

/-- SSAVE of an unbound slot of the actor, which no other slot names as bound to it, with nothing pushed left, no MMA still to take its elements and no store routed to it or to what runs with it on its way, into 128 aligned bytes of
the window, completes: it brings the stream to the core, raising RECALL where it was elsewhere, writes the sixteen words of R150 with fresh seals, closes the slot, releases the slots bound to it and
leaves every other byte and seal of LM (R148, R150). SLOAD of 128 clean bytes of the window that hold a valid image into a closed slot of the actor completes when the index and second streams that
the image names are open, unbound slots of the actor of the kinds that R138 asks for: it binds them and opens the slot in the state, with the
descriptor, G, F, sum and flags of the image (R150). SQUERY completes and writes the value of R151, counts within a total that is known; for a closed or unassigned slot it writes 0, which for the total and the location id is the model's choice (log 77): R151 gives the reset
values without a number for them. Nothing else changes. SSAVE of a bound slot traps STREAM 0x09. SLOAD traps 0x0C for a slot not assigned, 0x02 for one that is not closed, and
0x0B for a clean image of an existing format with STATE 0 or an operation not permitted, or whose IXS or SLV names no open, unbound slot of the actor of the kind asked for; that the
LM faults and the image's seals come before 0x0B is the model's choice (log 77). -/
def Obligations.StreamSaveLoadQueryResults : Prop :=
  (∀ (a : BitVec 5) (k : BitVec 4) (l : BitVec 3) (s : State), operandsOk s l [a] →
    let g := (s.seen l.toNat false).gv a.toNat
    (∀ t, openAs s k t → t.bound = true → slotTraps (.ssave a k l) s k 0x09) ∧ (¬ assigned s k → slotTraps (.sload a k l) s k 0x0C) ∧
    (assigned s k → (s.c.stream k.toNat).ph ≠ .closed → slotTraps (.sload a k l) s k 0x02) ∧
    (assigned s k → (s.c.stream k.toNat).ph = .closed → s.loadOk g 128 128 = true → ∀ t : Stream,
      (∀ n, n < 16 → s.c.m.lm.gran (g.toNat / 8 + n) = (imageWords t).getD n 0 ∧ s.c.m.lm.sealOf (g.toNat / 8 + n) = sealFn ((imageWords t).getD n 0)) →
      t.d.fmt.toNat < 14 → (t.d.op = 4 → t.d.cvtf.toNat < 14) →
      let free := fun (j : BitVec 4) => assigned s j ∧ j ≠ k ∧ (s.c.stream j.toNat).ph ≠ .closed ∧ (s.c.stream j.toNat).bound = false
      let ix := (s.c.stream t.d.ixs.toNat).d
      let sv := (s.c.stream t.d.slv.toNat).d
      (t.ph = .closed ∨ opOk t.d.dir t.d.op.toNat t.d.format (if t.d.op = 4 then t.d.cvtFmt else t.d.format) = false ∨
        (t.d.indir = true ∧ ¬ (free t.d.ixs ∧ (ix.dir = .idx ∨ (ix.dir = .src ∧ ix.op = 0 ∧ (ix.format = .n32 ∨ ix.format = .s64))))) ∨
        (t.d.op = 8 ∧ ¬ (free t.d.slv ∧ sv.dir = .src ∧ sv.fmt = t.d.fmt ∧ sv.op = 0))) → slotTraps (.sload a k l) s k 0x0B)) ∧
  (∀ (a : BitVec 5) (k : BitVec 4) (l : BitVec 3) (s : State) (t : Stream), openAs s k t → t.bound = false →
    s.readyFor l.toNat false [gR a] = true → (s.seen l.toNat false).clean a.toNat = true → s.c.taker k.toNat = none → s.c.recallable k.toNat = true →
    (t.buf = [] ∨ t.d.dir = .src ∨ t.d.dir = .upd) → k.toNat ∉ t.boundSlots → (∀ j, k.toNat ∈ s.c.along j → j = k.toNat) → ownIndex s k →
    let g := (s.seen l.toNat false).gv a.toNat
    s.lmOk g 128 128 = true →
    let saved : Stream := { s.c.slot k.toNat with loc := 0, evpend := if t.loc = 0 then t.evpend else t.evpend ||| (t.d.evmask &&& 4) }
    ∃ u, exec (.ssave a k l) s = .next u ∧ s.sameContexts u ∧ flowOnly s u 4 ∧ { u.c.stream k.toNat with course := [] } = Stream.closed ∧
      (∀ j ∈ t.boundSlots, (u.c.stream j).bound = false) ∧
      (t.loc = 0 → s.sameOutside u ∧ (u.c.stream k.toNat).course = t.course ∧
        ∀ j, j ≠ k.toNat → (t.d.indir = true → j ≠ t.d.ixs.toNat) →
          u.c.stream j = if j ∈ t.boundSlots then { s.c.stream j with bound := false } else s.c.stream j) ∧
      (∀ n, n < 16 → u.c.m.lm.gran (g.toNat / 8 + n) = (imageWords saved).getD n 0 ∧ u.c.m.lm.sealOf (g.toNat / 8 + n) = sealFn ((imageWords saved).getD n 0)) ∧
      (∀ x, x < g.toNat ∨ g.toNat + 128 ≤ x → u.c.m.lm.byte x = s.c.m.lm.byte x) ∧
      (∀ x, x < g.toNat / 8 ∨ g.toNat / 8 + 16 ≤ x → u.c.m.lm.sealOf x = s.c.m.lm.sealOf x)) ∧
  (∀ (a : BitVec 5) (k : BitVec 4) (l : BitVec 3) (s : State) (t : Stream), assigned s k → (s.c.stream k.toNat).ph = .closed →
    s.readyFor l.toNat false [gR a] = true → (s.seen l.toNat false).clean a.toNat = true →
    let g := (s.seen l.toNat false).gv a.toNat
    s.loadOk g 128 128 = true →
    (∀ n, n < 16 → s.c.m.lm.gran (g.toNat / 8 + n) = (imageWords t).getD n 0 ∧ s.c.m.lm.sealOf (g.toNat / 8 + n) = sealFn ((imageWords t).getD n 0)) →
    t.ph ≠ .closed → t.d.fmt.toNat < 14 → (t.d.op = 4 → t.d.cvtf.toNat < 14) → t.d.c.length = 4 → t.d.t.length = 4 → t.g < 2 ^ 64 → t.f < 2 ^ 64 → t.pushed < 2 ^ 64 → t.within < 2 ^ 64 →
    opOk t.d.dir t.d.op.toNat t.d.format (if t.d.op = 4 then t.d.cvtFmt else t.d.format) = true →
    let free := fun (j : BitVec 4) => assigned s j ∧ j ≠ k ∧ (s.c.stream j.toNat).ph ≠ .closed ∧ (s.c.stream j.toNat).bound = false
    let ix := (s.c.stream t.d.ixs.toNat)
    let sv := (s.c.stream t.d.slv.toNat).d
    (t.d.indir = true → free t.d.ixs ∧ (ix.d.dir = .idx ∨ (ix.d.dir = .src ∧ ix.d.op = 0 ∧ (ix.d.format = .n32 ∨ ix.d.format = .s64)))) →
    (t.d.op = 8 → free t.d.slv ∧ sv.dir = .src ∧ sv.fmt = t.d.fmt ∧ sv.op = 0) →
    ∃ u, exec (.sload a k l) s = .next u ∧ sameButStreams s u ∧ flowOnly s u 4 ∧
      (∀ j, j ≠ k.toNat → u.c.stream j = if j ∈ t.boundSlots then { s.c.stream j with bound := true } else s.c.stream j) ∧
      let w := u.c.stream k.toNat
      w.ph = t.ph ∧ w.d = t.d ∧ w.pin = t.pin ∧ w.evpend = t.evpend ∧ w.flags = t.flags ∧ w.g = t.g ∧ w.f = t.f ∧ w.frec = t.f ∧ w.acc = t.acc ∧
        w.bound = false ∧ w.loc = 0 ∧ (t.d.dir = .drn ∨ t.d.dir = .idx → w.pushed = t.pushed) ∧
        (t.d.indir = true → w.ixpos = ix.f ∧ w.within = if t.total = some t.f then 0 else t.within)) ∧
  (∀ (i : BitVec 3) (a : BitVec 5) (k : BitVec 4) (l : BitVec 3) (s : State) (t : Stream), i.toNat < 6 → s.readyFor l.toNat false [] = true →
    let gives := fun (w : Word) => writesG (.squery i a k l) s 4 a w (sealFn w)
    ((¬ assigned s k ∨ (s.c.stream k.toNat).ph = .closed) → gives 0) ∧
    (openAs s k t → (i = 0 → gives (BitVec.ofNat 64 (controlWord t))) ∧
      (i = 1 → ∀ n, s.c.total t = some n → gives (BitVec.ofNat 64 n)) ∧ (i = 1 → s.c.total t = none → gives 0xFFFFFFFFFFFFFFFF) ∧
      (i = 2 → gives (BitVec.ofNat 64 (s.c.slot k.toNat).g)) ∧ (i = 3 → gives (BitVec.ofNat 64 (s.c.slot k.toNat).frec)) ∧
      (i = 4 → gives (BitVec.ofNat 64 (if t.loc = 0 then coreNumber s.cur else t.locId))) ∧ (i = 5 → gives t.acc)))

/-! ## Actors and messages -/

namespace Sys2Proof.Claims

/-- Signature g takes in signature p: whatever p names, g names (R213). -/
def takesIn (p g : Sig) : Prop := g.sat = true ∨ (p.sat = false ∧ ∀ x ∈ p.grs, x ∈ g.grs)
/-- A destination operand that a send accepts (R195). -/
def goodDest (t : Word) : Prop := t.toNat < 2 ^ 48 ∧ t.toNat / 2 ^ 32 < 0xFFE0 ∧ t.getLsbD 3 = false
/-- The LM address in a payload operand. -/
def payloadAt (g : Word) : Word := BitVec.ofNat 64 (g.toNat / 16 * 16)
/-- A payload operand that a send of n bytes accepts: a transform that exists and granules that an LDL.64 could read (R195). -/
def goodPayload (s : State) (g : Word) (n : Nat) : Prop :=
  g.getLsbD 3 = false ∧ g.toNat % 8 < 6 ∧ ∀ j, j < n / 8 → s.lmOk (payloadAt g + BitVec.ofNat 64 (8 * j)) 8 8 = true
/-- The n bytes at an LM address as granules with their seals. -/
def payloadOf (s : State) (a n : Nat) : List (Word × Byte) := (List.range (n / 8)).map fun i => (s.c.m.lm.gran (a / 8 + i), s.c.m.lm.sealOf (a / 8 + i))
/-- What a message says: its fields (R169), its payload with its seals, its weight, and the signature that travels with it (R178). -/
structure sentAs (k : Actor) (m : Msg) (dst : BitVec 32) (typ rank flags tc xf len weight : Nat) (payload : List (Word × Byte)) : Prop where
  source : m.src = k.addr ∧ m.part = k.part ∧ m.h 0 32 = k.addr.toNat
  dest : m.dst = dst ∧ m.h 96 32 = dst.toNat
  fields : m.h 32 16 = typ ∧ m.h 80 16 = rank ∧ m.h 48 7 = flags ∧ m.tc = tc ∧ m.h 59 2 = tc ∧ m.h 56 3 = xf ∧ m.h 64 13 = len
  payload : m.payload = payload
  weight : m.weight = weight
  sig : m.sig = k.pub.map (·.1) ∧ m.h 55 1 = if k.pub.isSome = true then 1 else 0
/-- The send completes with status 0 and the message last among those outbound, the actor's published signature used, or with status 1 and no other change
when all 32 outbound entries are taken (R183, R195). -/
def sends (i : Instr) (s : State) (d : BitVec 5) (k' : Actor) (good : Msg → Prop) : Prop :=
  (s.c.outbound.length < 32 → ∃ t m, exec i s = .next t ∧ wroteStatus s t d 0 ∧ s.sameContexts t ∧ t.c.outbound = s.c.outbound ++ [m] ∧ good m ∧
    t.c.m = s.c.m ∧ t.home = s.home ∧ t.act = some k') ∧
  (32 ≤ s.c.outbound.length → answers i s d 1)

end Sys2Proof.Claims

/-- For a resident actor, registers not awaited and clean, a good destination operand and, but for SENDV, a good payload operand: each send queues one message, header as R169 says, payload the 16 · 4^SZ
bytes of LM, or v[B], with their seals, and answers 0, or 1 with all outbound entries taken (R183, R195). SENDW halves W and takes the lower half along, answers 3 at W = 0 and
traps WEIGHT at W = 1; SENDT carries its tile list; SENDG goes to the gang member; SENDR carries a bound, idle tag, now outstanding (R196); that it takes one whose reply has
landed and was not taken, and clears that reply, is an inference (log 71). A bad destination or payload operand answers 2, so does SENDR on a tag above 15, unbound or
outstanding, SENDG outside the gang's members or with another device's bits, SENDT with a bad list, and every send without a resident actor (R408). The first granule of the
payload that an LDL.64 could not read traps as that would (R89, R195). Nothing else changes. -/
def Obligations.SendResults : Prop :=
  (∀ (z : BitVec 3) (b a d : BitVec 5) (c : BitVec 2) (s : State), s.act = none →
    let r := s.seen 0 false
    (s.readyFor 0 false [gR d, gR a, gR b] = true → r.clean d.toNat = true → r.clean a.toNat = true → r.clean b.toNat = true →
      ∀ i ∈ [Instr.send z b a d c, .sendr z b a d c, .sendw z b a d c, .sendt z b a d c, .sendg z b a d c], answers i s d 2) ∧
    (s.readyFor 0 false [gR a, vR b] = true → r.clean a.toNat = true → answers (.sendv b a d c) s d 2)) ∧
  ∀ (z : BitVec 3) (b a d : BitVec 5) (c : BitVec 2) (s : State) (k : Actor), s.act = some k → k.rank < 2 ^ 16 → z.toNat ≤ 4 →
    let r := s.seen 0 false
    let t := r.gv a.toNat
    let g := r.gv b.toNat
    let n := 16 * 4 ^ z.toNat
    let pay := payloadOf s (payloadAt g).toNat n
    let typ := t.toNat / 2 ^ 32
    let dst : BitVec 32 := BitVec.ofNat 32 t.toNat
    let used := { k with pub := none }
    r.clean a.toNat = true →
    (s.readyFor 0 false [gR a, gR b] = true → r.clean b.toNat = true →
      let lm := [Instr.send z b a d c, .sendw z b a d c, .sendt z b a d c, .sendg z b a d c]
      ((¬ goodDest t ∨ g.getLsbD 3 = true ∨ 6 ≤ g.toNat % 8) → ∀ i ∈ lm, answers i s d 2) ∧
      (goodDest t → g.getLsbD 3 = false → g.toNat % 8 < 6 → s.c.storesLm s.curCtx = false → ∀ j, j < n / 8 →
        let ad := fun i => payloadAt g + BitVec.ofNat 64 (8 * i)
        (∀ i, i < j → s.lmOk (ad i) 8 8 = true) → ∀ i ∈ lm,
          ((ad j).toNat < s.c.xbAddr → exec i s = .next (takeTrap s 0x06 (ad j) 3 s.x.pc)) ∧
          (s.c.xbAddr ≤ (ad j).toNat → s.lmInside (ad j).toNat 8 = false → exec i s = .next (takeTrap s 0x04 (ad j) 3 s.x.pc))) ∧
      (goodDest t → goodPayload s g n →
        sends (.send z b a d c) s d used (sentAs k · dst typ k.rank 0 c.toNat (g.toNat % 8) n 0 pay) ∧
        (2 ≤ k.csr.w → sends (.sendw z b a d c) s d { used with csr := { k.csr with w := k.csr.w - k.csr.w / 2 } }
          (sentAs k · dst typ k.rank 1 c.toNat (g.toNat % 8) n (k.csr.w / 2) pay)) ∧
        (k.csr.w = 1 → exec (.sendw z b a d c) s = .next (takeTrap s 0x0F 1 0 s.x.pc)) ∧
        (k.csr.w = 0 → answers (.sendw z b a d c) s d 3) ∧
        (∀ l, tileList k pay = some l → sends (.sendt z b a d c) s d used (fun m => m.tiles = l ∧ sentAs k m dst typ k.rank 4 c.toNat (g.toNat % 8) n 0 pay)) ∧
        (tileList k pay = none → answers (.sendt z b a d c) s d 2) ∧
        (∀ m, t.toNat / 2 ^ 24 % 256 = 0 → s.member k (t.toNat / 16 % 2 ^ 20) = some m →
          let to' : BitVec 32 := BitVec.ofNat 32 (s.devNum.toNat * 2 ^ 24 + m.toNat % 2 ^ 24 / 16 * 16 + t.toNat % 8)
          sends (.sendg z b a d c) s d used (sentAs k · to' typ k.rank 0 c.toNat (g.toNat % 8) n 0 pay)) ∧
        ((t.toNat / 2 ^ 24 % 256 ≠ 0 ∨ s.member k (t.toNat / 16 % 2 ^ 20) = none) → answers (.sendg z b a d c) s d 2) ∧
        (s.readyFor 0 false [gR d, gR a, gR b] = true → r.clean d.toNat = true →
          let tag := (r.gv d.toNat).toNat
          let q := tget .free k.tags tag
          ((16 ≤ tag ∨ q.bind = none ∨ q.out = true) → answers (.sendr z b a d c) s d 2) ∧
          (tag < 16 → q.bind ≠ none → q.out = false →
          sends (.sendr z b a d c) s d { used with tags := tset .free k.tags tag { q with out := true, landed := none, sig := none } }
            (sentAs k · dst typ tag 64 c.toNat (g.toNat % 8) n 0 pay)))) ∧
      (s.readyFor 0 false [gR d, gR a, gR b] = true → r.clean d.toNat = true → (¬ goodDest t ∨ g.getLsbD 3 = true ∨ 6 ≤ g.toNat % 8) →
        answers (.sendr z b a d c) s d 2)) ∧
    (s.readyFor 0 false [gR a, vR b] = true →
      (¬ goodDest t → answers (.sendv b a d c) s d 2) ∧
      (goodDest t → sends (.sendv b a d c) s d used
        (sentAs k · dst typ k.rank 0 c.toNat 0 128 0 ((List.range 16).map fun j => (pair (r.vv b.toNat) j, pairSeal (r.vsl b.toNat) j)))))

/-- For a resident actor with registers not awaited and clean and good operands: REPLY queues a class 0 reply to the requester with the tag in RANK and, by inference (log 62), in TYPE
(R197), JADD a class 1 contribution with the rank and
size that g[D] gives (R207); an operand with bits that must be 0 answers 2, and so do both without a resident actor (R408). FWD in a firing of a message not yet forwarded queues the payload as it landed, its original sender and
rank, FWD set, and marks the firing (R198), or answers 1 with all outbound entries taken; in a join firing or a second time it traps MAILBOX with cause 3, and so it does in a context
without a firing (R408), which the model takes at level U as well (log 78). -/
def Obligations.ReplyForwardAndContributionResults : Prop :=
  ∀ (z : BitVec 3) (b a d : BitVec 5) (c : BitVec 2) (l : BitVec 3) (s : State) (k : Actor),
    let r := s.seen 0 false
    (s.act = none → s.readyFor 0 false [gR a, gR b] = true → r.clean a.toNat = true → r.clean b.toNat = true → answers (.reply z b a d) s d 2) ∧
    (s.act = none → let r := s.seen l.toNat false
      s.readyFor l.toNat false [gR d, gR a, gR b] = true → r.clean d.toNat = true → r.clean a.toNat = true → r.clean b.toNat = true → answers (.jadd b a d l) s d 2) ∧
    (s.act = some k → z.toNat ≤ 4 → s.readyFor 0 false [gR a, gR b] = true → r.clean a.toNat = true → r.clean b.toNat = true →
      let t := r.gv a.toNat
      let g := r.gv b.toNat
      let n := 16 * 4 ^ z.toNat
      (2 ^ 36 ≤ t.toNat → answers (.reply z b a d) s d 2) ∧
      (t.toNat < 2 ^ 36 → t.getLsbD 3 = false → goodPayload s g n →
        sends (.reply z b a d) s d { k with pub := none } fun m => m.kind = .reply ∧
          sentAs k m (BitVec.ofNat 32 t.toNat) (t.toNat / 2 ^ 32) (t.toNat / 2 ^ 32) 2 0 (g.toNat % 8) n 0 (payloadOf s (payloadAt g).toNat n))) ∧
    (let r := s.seen l.toNat false
     s.act = some k → s.readyFor l.toNat false [gR d, gR a, gR b] = true → r.clean d.toNat = true → r.clean a.toNat = true → r.clean b.toNat = true →
      let x := (r.gv d.toNat).toNat
      let t := r.gv a.toNat
      let g := r.gv b.toNat
      let n := 16 * 4 ^ (x / 2 ^ 16)
      (4 < x / 2 ^ 16 → answers (.jadd b a d l) s d 2) ∧
      (x / 2 ^ 16 ≤ 4 → goodDest t → goodPayload s g n →
        sends (.jadd b a d l) s d { k with pub := none }
          (sentAs k · (BitVec.ofNat 32 t.toNat) (t.toNat / 2 ^ 32) (x % 2 ^ 16) 0 1 (g.toNat % 8) n 0 (payloadOf s (payloadAt g).toNat n)))) ∧
    (s.readyFor 0 false [gR a] = true → r.clean a.toNat = true →
      let t := r.gv a.toNat
      (¬ goodDest t → answers (.fwd a d c) s d 2) ∧
      (goodDest t → s.x.firing = none → exec (.fwd a d c) s = .next (takeTrap s 0x15 3 0 s.x.pc)) ∧
      (∀ f, goodDest t → s.x.firing = some f →
        (f.join = true ∨ f.forwarded = true → exec (.fwd a d c) s = .next (takeTrap s 0x15 3 (BitVec.ofNat 64 f.mb) s.x.pc)) ∧
        (f.join = false → f.forwarded = false → s.c.actor f.actor = some k → 32 ≤ s.c.outbound.length → answers (.fwd a d c) s d 1) ∧
        (f.join = false → f.forwarded = false → s.c.actor f.actor = some k → s.c.outbound.length < 32 →
          let len := f.header.toNat / 2 ^ 64 % 2 ^ 13
          ∃ u m, exec (.fwd a d c) s = .next u ∧ wroteStatus s u d 0 ∧ s.sameContexts u ∧ u.c.outbound = s.c.outbound ++ [m] ∧ u.c.m = s.c.m ∧ u.home = s.home ∧
            u.x.firing = some { f with forwarded := true } ∧ m.src = k.addr ∧ m.dst = BitVec.ofNat 32 t.toNat ∧ m.tc = c.toNat ∧
            m.h 0 32 = f.header.toNat % 2 ^ 32 ∧ m.h 32 16 = t.toNat / 2 ^ 32 ∧ m.h 52 1 = 1 ∧ m.h 56 3 = 0 ∧ m.h 64 13 = len ∧ m.h 80 16 = f.header.toNat / 2 ^ 80 % 2 ^ 16 ∧
            m.weight = 0 ∧ m.payload = payloadOf s ((k.mb f.mb).payAt (f.slots.headD 0)) ((len + 7) / 8 * 8))))

namespace Sys2Proof.Claims

/-- The instruction completes after four bytes, writes w to g[d], and the acting actor becomes k'; nothing else changes but what the context has acquired. -/
def actorDoes (i : Instr) (s : State) (d : BitVec 5) (w : Word) (k' : Actor → Prop) : Prop :=
  ∃ t, exec i s = .next t ∧ s.sameOutside t ∧ s.sameContexts t ∧ s.x.regs.sameG t.x.regs (oneReg d) ∧ s.x.regs.sameV t.x.regs noReg ∧ s.x.regs.sameK t.x.regs noReg ∧
    t.x.regs.holdsG d.toNat w (sealFn w) ∧ s.wentOnBy t 4 ∧ t.x.fpx = s.x.fpx ∧ t.x.firing = s.x.firing ∧ t.c.m = s.c.m ∧ t.c.outbound = s.c.outbound ∧
    t.c.streams = s.c.streams ∧ (∀ n, n ≠ s.actIdx → t.c.actor n = s.c.actor n) ∧ ∃ k, t.act = some k ∧ k' k

end Sys2Proof.Claims

/-- For a resident actor, registers not awaited and clean. MBCFG answers 1 for a mailbox in use, 2 for an invalid word, else 0 with the mailbox configured and empty (R199). MBCNT writes the count and
releases min(g[B], count) messages of a deposit mailbox; a number above 7, or a release on another kind, traps MAILBOX (R200). MBMASK exchanges the mask (R201); MSGF writes the item of the firing's message
(R202). TAGBIND answers 17 for an invalid binding, 16 and 18 when none is free, else the tag bound (R203). TAGWAIT writes the landed length and frees the tag, waits for a reply to come, and
traps on a tag that cannot complete (R204). That MBCFG answers 1 before 2, and TAGBIND 17 before 16 before 18, is the model's choice (log 33). Without a resident actor MBCFG
answers 2, TAGBIND 17, MBCNT and MBMASK 0, and TAGWAIT traps MAILBOX with cause 1; MSGF in a context without a firing writes 0 (R408). -/
def Obligations.MailboxAndTagResults : Prop :=
  (∀ (b a d : BitVec 5) (l : BitVec 3) (s : State), operandsOk s l [a, b] → let g := (s.seen l.toNat false).gv a.toNat
    (s.x.firing = none → answers (.msgf a d l) s d 0) ∧
    (s.act = none → answers (.mbcfg b a d l) s d 2 ∧ answers (.tagbind b a d l) s d 17 ∧ answers (.mbcnt b a d l) s d 0 ∧ answers (.mbmask a d l) s d 0 ∧
      exec (.tagwait a d l) s = .next (takeTrap s 0x15 1 g s.x.pc))) ∧
  ∀ (b a d : BitVec 5) (l : BitVec 3) (s : State) (k : Actor), s.act = some k → s.readyFor l.toNat false [gR a] = true →
    (s.seen l.toNat false).clean a.toNat = true →
    let r := s.seen l.toNat false
    let g := r.gv a.toNat
    let h := r.gv b.toNat
    let n := g.toNat
    let trap := fun (cause : Nat) => Host.Outcome.next (takeTrap s 0x15 (BitVec.ofNat 64 cause) g s.x.pc)
    (s.readyFor l.toNat false [gR a, gR b] = true → r.clean b.toNat = true →
      (k.mbBusy (n % 8) = true → answers (.mbcfg b a d l) s d 1) ∧
      (k.mbBusy (n % 8) = false → cfgOk s.c k g h.toNat = false → answers (.mbcfg b a d l) s d 2) ∧
      (k.mbBusy (n % 8) = false → cfgOk s.c k g h.toNat = true → actorDoes (.mbcfg b a d l) s d 0 fun k' =>
        k' = k.setMb (n % 8) ⟨g, h.toNat, [], [], [], none⟩) ∧
      (8 ≤ n → exec (.mbcnt b a d l) s = trap 2) ∧
      (n < 8 → (k.mb n).kind ≠ 1 → h ≠ 0 → exec (.mbcnt b a d l) s = trap 2) ∧
      (n < 8 → (k.mb n).kind = 0 ∨ (k.mb n).kind = 1 → ((k.mb n).kind = 1 ∨ h = 0) →
        let full := ((k.mb n).slots.filter fun e => e.2.st == .ready).length
        actorDoes (.mbcnt b a d l) s d (BitVec.ofNat 64 full) fun k' =>
          (∀ m, m ≠ n → k'.mb m = k.mb m) ∧ (h = 0 → k'.mb n = k.mb n) ∧ (k'.mb n).cfg = (k.mb n).cfg ∧
          ∀ i ∈ (k.mb n).heldSlots.take h.toNat, (k.mb n).kind = 1 → ((k'.mb n).slot i).st = .free) ∧
      (bindingOf s.c k g = none → answers (.tagbind b a d l) s d 17) ∧
      (16 < h.toNat → answers (.tagbind b a d l) s d 17) ∧
      (∀ bi, bindingOf s.c k g = some bi → h.toNat = 16 →
        (k.freeTag = none → answers (.tagbind b a d l) s d 16) ∧
        (∀ t, k.freeTag = some t → (tget .free k.tags t).early = none →
          (∀ m, bi = .mailbox m → (k.mb m).rsv ≤ k.claimed m → answers (.tagbind b a d l) s d 18) ∧
          ((∀ m, bi = .mailbox m → k.claimed m < (k.mb m).rsv) → actorDoes (.tagbind b a d l) s d (BitVec.ofNat 64 t) fun k' =>
            (tget .free k'.tags t).used = true ∧ (tget .free k'.tags t).bind = some bi ∧ ∀ u, u ≠ t → tget .free k'.tags u = tget .free k.tags u)))) ∧
    (actorDoes (.mbmask a d l) s d (BitVec.ofNat 64 k.csr.mask.toNat) fun k' => k' = { k with csr := { k.csr with mask := BitVec.ofNat 7 n } }) ∧
    (∀ f, s.x.firing = some f → f.join = false →
      let item := if n = 0 then BitVec.ofNat 64 f.header.toNat else if n = 1 then BitVec.ofNat 64 (f.header.toNat / 2 ^ 64)
        else if n = 2 then BitVec.ofNat 64 f.weight else if n = 3 then BitVec.ofNat 64 f.accepted else 0
      writesG (.msgf a d l) s 4 d item (sealFn item)) ∧
    (let q := tget .free k.tags n
     ((16 ≤ n ∨ (∀ x y, q.bind ≠ some (.range x y)) ∨ (q.out = false ∧ q.landed = none)) → exec (.tagwait a d l) s = trap 1) ∧
     (∀ x y, n < 16 → q.bind = some (.range x y) →
       (q.out = true → q.landed = none → exec (.tagwait a d l) s = .next s.park) ∧
       (∀ len, q.landed = some len → actorDoes (.tagwait a d l) s d (BitVec.ofNat 64 len) fun k' => k' = k.setTag n .free)))

/-- For a resident actor, registers not awaited and clean. WRET, once nothing that REL.DV waits for is left, performs that release, writes W, sends it to the distributor and clears it; WQ writes W (R205). JCFG answers 2 for an invalid
operand, 1 with contributions held, else 0 with the join armed (R206). LAUNCH, with none of the lines it reads or writes locked and after the release, answers 2 for a queue above 15 or not set up, a record not 64-aligned or not readable, 1 for a full queue,
else 0 with one index more committed (R208). SELFQ and GANGQ write the items of R209. Nothing else changes. That JCFG and LAUNCH answer 2 before 1 is the model's choice (log 33).
Without a resident actor JCFG and LAUNCH answer 2, WQ and SELFQ write 0, GANGQ all ones, and WRET waits and writes back as REL.DV does, writes 0 and sends nothing (R408). -/
def Obligations.ActorInstructionResults : Prop :=
  (∀ (b a d : BitVec 5) (l : BitVec 3) (s : State), s.act = none → operandsOk s l [a, b] →
    answers (.jcfg b a d l) s d 2 ∧ answers (.launch b a d l) s d 2 ∧ answers (.wq d l) s d 0 ∧ answers (.selfq a d l) s d 0 ∧
    writesG (.gangq a d l) s 4 d 0xFFFFFFFFFFFFFFFF (sealFn 0xFFFFFFFFFFFFFFFF) ∧
    (s.relWaits .dv true = false → ∃ t, exec (.wret d l) s = .next t ∧ wroteStatus s t d 0 ∧ s.sameContexts t ∧ t.c.m.lm = s.c.m.lm ∧ t.dist = s.dist ∧
      (∀ e ∈ t.c.m.cache, e.2.dirty = false))) ∧
  ∀ (b a d : BitVec 5) (l : BitVec 3) (s : State) (k : Actor), s.act = some k → s.readyFor l.toNat false [gR a, gR b] = true →
    (s.seen l.toNat false).clean a.toNat = true → (s.seen l.toNat false).clean b.toNat = true →
    let g := (s.seen l.toNat false).gv a.toNat
    let h := (s.seen l.toNat false).gv b.toNat
    let n := g.toNat
    let gives := fun (i : Instr) (w : Word) => writesG i s 4 d w (sealFn w)
    (s.relWaits .dv true = false → ∃ t, exec (.wret d l) s = .next t ∧ wroteStatus s t d k.csr.w ∧ s.sameContexts t ∧ t.c.m.lm = s.c.m.lm ∧
      (∃ k' g, t.act = some k' ∧ k'.csr.w = 0 ∧ k'.pub = some (g, .dv) ∧ takesIn s.c.m.pdv g) ∧ t.c.m.pcl = .empty ∧ t.c.m.pdv = .empty ∧
      (∀ e ∈ t.c.m.cache, e.2.dirty = false) ∧
      (k.csr.w = 0 → t.dist.returns = s.dist.returns) ∧ (k.csr.w ≠ 0 → ∃ id, t.dist.returns = s.dist.returns ++ [(id, k.stage, k.csr.w)])) ∧
    gives (.wq d l) (BitVec.ofNat 64 k.csr.w) ∧
    (let m := k.mb (n % 8)
     let op := n / 16 % 16
     let c := n / 256 % 2 ^ 11 + 1
     let good := n < 2 ^ 19 ∧ op < 7 ∧ m.kind = 2 ∧ ¬ (op = 0 ∧ m.ord = true ∧ m.k < c) ∧ h.toNat % 128 = 0 ∧ s.c.windowAt k h.toNat m.z = true
     let held := ∃ j, m.join = some j ∧ j.landed ≠ 0
     (¬ good → answers (.jcfg b a d l) s d 2) ∧ (good → held → answers (.jcfg b a d l) s d 1) ∧
     (good → ¬ held → actorDoes (.jcfg b a d l) s d 0 fun k' => ∃ j, (k'.mb (n % 8)).join = some j ∧ j.op = op ∧ j.count = c ∧ j.acc = h.toNat ∧ j.landed = 0 ∧ j.ranks = [] ∧
       ∀ i, i ≠ n % 8 → k'.mb i = k.mb i)) ∧
    (s.relWaits .dv true = false → (n < 16 → s.vaBusy k.part h.toNat 8 = false ∧ s.queueBusy k.part n (s.qReserve k.part n) = false) →
      let u := ((s.issued l.toNat).released .dv).2.upAct fun k => { k with pub := some (((s.issued l.toNat).released .dv).1, .dv) }
      let bad := 16 ≤ n ∨ (u.queue k.part n).enabled = false ∨ h.toNat % 64 ≠ 0 ∨ u.distReads k.part h.toNat 8 = none
      (bad → ∃ t, exec (.launch b a d l) s = .next t ∧ wroteStatus s t d 2 ∧ t.dist.queues = s.dist.queues) ∧
      (¬ bad → u.qReserve k.part n - u.qFree k.part n = u.qCount k.part n → ∃ t, exec (.launch b a d l) s = .next t ∧ wroteStatus s t d 1 ∧ t.dist.queues = s.dist.queues) ∧
      (∀ rec v, ¬ bad → u.distReads k.part h.toNat 8 = some rec → u.qAppend k.part n rec = some v →
        ∃ t, exec (.launch b a d l) s = .next t ∧ wroteStatus s t d 0 ∧ t.home = v.home ∧ t.dist = v.dist)) ∧
    ((n = 0 → gives (.selfq a d l) (BitVec.ofNat 64 k.addr.toNat)) ∧ (n = 1 → gives (.selfq a d l) (BitVec.ofNat 64 (coreNumber s.cur))) ∧
     (n = 2 → gives (.selfq a d l) (BitVec.ofNat 64 s.actIdx)) ∧ (n = 3 → gives (.selfq a d l) (BitVec.ofNat 64 k.rank)) ∧
     (n = 4 → ∀ q, s.gangOf k.gang = some q → gives (.selfq a d l) (BitVec.ofNat 64 q.members.length)) ∧ (n = 5 → gives (.selfq a d l) (BitVec.ofNat 64 k.gang)) ∧
     (n = 6 → ∀ q, s.dist.stages.find? (fun t => decide (t.key = k.stage)) = some q → gives (.selfq a d l) (BitVec.ofNat 64 q.record.toNat)) ∧
     (n = 7 → gives (.selfq a d l) (BitVec.ofNat 64 k.part)) ∧ (8 ≤ n → gives (.selfq a d l) 0)) ∧
    (∀ q, s.gangOf k.gang = some q → (∀ m, q.members[n]? = some m → gives (.gangq a d l) (BitVec.ofNat 64 m.2.2.toNat)) ∧
      (q.members.length ≤ n → gives (.gangq a d l) 0xFFFFFFFFFFFFFFFF))

/-! ## Synchronisation -/

namespace Sys2Proof.Claims

/-- The fence goes on when p holds, changing nothing but the PC and the loop stack, and waits when it does not. -/
def fences (i : Instr) (s : State) (p : Prop) : Prop :=
  (p → ∃ t, exec i s = .next t ∧ onlyFlow s t ∧ s.wentOnBy t 4) ∧ (¬ p → exec i s = .next s.park)
/-- The pending signature that a release of a scope publishes (R213, R216). -/
def pending (s : State) (k : Scope) : Sig := if k = .cl then s.c.m.pcl else s.c.m.pdv
/-- Where a release has brought what was dirty in the core cache, and beyond cluster scope in the cluster cache (R216). -/
def releasedBack (s t : State) (k : Scope) : Prop :=
  let q := clusterOf s.cur
  let far := fun (g : Nat) => k ≠ .cl ∧ s.c.m.pdv.hits 32 g = true
  ((s.c.m.cache.map (·.1)).Nodup → ∀ e ∈ s.c.m.cache, e.2.dirty = true → wroteBack s t e.1 e.2 ∧ (far e.1 → atHome s t e.1 e.2)) ∧
  (isEave s.cur = false → ((s.cluster q).cache.map (·.1)).Nodup → ∀ e ∈ (s.cluster q).cache, e.2.dirty = true → far e.1 →
    (∀ c ∈ s.c.m.cache, c.1 = e.1 → c.2.dirty = false) → atHome s t e.1 e.2)
/-- What an acquire of a scope with the read signature rs does to the caches and the pending signatures (R214, R217). -/
def acquiredBy (s t : State) (k : Scope) (rs : Sig) : Prop :=
  ∃ g, takesIn (if s.x.bp = true ∨ rs.isEmpty = true then .full else rs) g ∧ t.c.m.pcl = s.c.m.pcl.union g ∧ t.c.m.pdv = s.c.m.pdv.union g ∧
    t.c.m.cache = s.c.m.cache.filter (fun e => !g.hits 4 e.1) ∧
    ((s.c.m.cache.map (·.1)).Nodup → ∀ e ∈ s.c.m.cache, e.2.dirty = true → g.hits 4 e.1 = true → wroteBack s t e.1 e.2) ∧
    (k ≠ .cl → isEave s.cur = false → ∀ e ∈ (t.cluster (clusterOf s.cur)).cache, g.hits 32 e.1 = false)

end Sys2Proof.Claims

/-- FENCE.L waits for the context's queued stores and its MSTZ writes to LM, FENCE.S for granted and pushed elements, FENCE.M for the actor's messages, FENCE.A for its posted atomics, then goes on (R220). REL, once nothing it waits for is
left, publishes for the actor a signature that takes in the pending one of its scope, empties the pending signatures it covers and leaves no dirty granule in the core cache: each
stands in the cluster cache or at home and, for device and system scope, at home where P.DV names its line of 256 bytes, as do the dirty granules of the cluster cache there (R213, R216).
ACQ, with no load outstanding, invalidates in the core cache, and beyond cluster scope in the cluster cache, the lines that RS names, or all with RS empty or BP set, dirty ones written back; the
pending signatures inherit what it applied; it empties RS and clears BP (R214, R217).
STREL and LDACQ at an aligned, permitted address with nothing holding them back store g[B] with its seal at the scope point after a release, whose signature the line then has, merged with the one it had,
or load the granule with its seal there and acquire with the line's signature added to RS (R218, R219). Registers and LM are otherwise as before. -/
def Obligations.FenceReleaseAcquireResults : Prop :=
  (∀ (l : BitVec 3) (s : State), s.readyFor l.toNat false [] = true →
    fences (.fenceL l) s ((∀ e ∈ s.c.m.stores, e.ctx ≠ s.curCtx) ∧ s.c.storesLm s.curCtx = false) ∧ fences (.fenceS l) s (s.c.streamsBusy s.actIdx = false) ∧
    fences (.fenceM l) s (∀ k, s.act = some k → s.sendsOut k = false) ∧ fences (.fenceA l) s (s.c.atomicsBusy s.actIdx = false)) ∧
  (∀ (k : Scope) (l : BitVec 3) (s : State), s.readyFor l.toNat false [] = true →
    (s.relWaits k true = false → ∃ t, exec (.rel k l) s = .next t ∧ flowOnly s t 4 ∧ t.c.m.lm = s.c.m.lm ∧ s.sameContexts t ∧ t.c.m.pcl = .empty ∧
      (k ≠ .cl → t.c.m.pdv = .empty) ∧ (∀ e ∈ t.c.m.cache, e.2.dirty = false) ∧ releasedBack s t k ∧
      ∀ a, s.act = some a → ∃ g, t.act = some { a with pub := some (g, k) } ∧ takesIn (pending s k) g) ∧
    (s.relWaits k true = true → exec (.rel k l) s = .next s.park) ∧
    (s.loadsOut = false → s.acqBlocked k = false → ∃ t, exec (.acq k l) s = .next t ∧ t.x.regs = s.x.regs ∧ s.wentOnBy t 4 ∧ t.c.m.lm = s.c.m.lm ∧ s.sameContexts t ∧
      t.x.rs = .empty ∧ t.x.bp = false ∧ t.x.fpx = s.x.fpx ∧ acquiredBy s t k s.x.rs)) ∧
  (∀ (k : Scope) (b a d : BitVec 5) (l : BitVec 3) (s : State) (x : Xlat), s.readyFor l.toNat false [gR a, gR b] = true → (s.seen l.toNat false).clean a.toNat = true →
    let va := (s.seen l.toNat false).gv a.toNat
    let u := (s.translate s.cur s.c.partNo va.toNat).2
    let gr := x.pa / 8
    let home := u.pointHome k x
    va.toNat % 8 = 0 → s.locked gr = false → s.c.pendingAt s.curCtx x.hd [gr] = false →
    (home = true → u.denied s.c.partNo x.pa = false ∧ u.lostAt gr = false) → s.linkHeld home x.pa = false →
    (home = false → s.noRoom (clusterOf s.cur) (gr :: s.c.dirtyGrans) = false) →
    (reaches s va true x → (s.seen l.toNat false).clean b.toNat = true → s.relWaits k true = false →
      ∃ t, exec (.strel k b a l) s = .next t ∧ flowOnly s t 4 ∧ t.c.m.lm = s.c.m.lm ∧
        (home = true → t.homeGran gr = ((s.seen l.toNat false).gv b.toNat, (s.seen l.toNat false).gsl b.toNat)) ∧
        (home = false → ∃ e, cacheAt (t.cluster (clusterOf s.cur)).cache gr = some e ∧ e.val = (s.seen l.toNat false).gv b.toNat ∧
          e.sl = (s.seen l.toNat false).gsl b.toNat ∧ e.dirty = true) ∧
        ∃ g, takesIn (pending s k) g ∧ t.lineSig home (clusterOf s.cur) gr = some (match s.lineSig home (clusterOf s.cur) gr with
          | some h => h.union g
          | none => g)) ∧
    (reaches s va false x → s.loadsOut = false → s.acqBlocked k = false →
      ∃ t, exec (.ldacq k a d l) s = .next t ∧ t.c.m.lm = s.c.m.lm ∧ s.x.regs.sameG t.x.regs (oneReg d) ∧ s.x.regs.sameV t.x.regs noReg ∧ s.x.regs.sameK t.x.regs noReg ∧
        t.x.rs = .empty ∧ t.x.bp = false ∧ s.wentOnBy t 4 ∧
        (home = true → t.x.regs.holdsG d.toNat (u.homeGran gr).1 (u.homeGran gr).2) ∧
        (home = false → ∀ e, cacheAt (s.cluster (clusterOf s.cur)).cache gr = some e → t.x.regs.holdsG d.toNat e.val e.sl) ∧
        acquiredBy s t k (match s.lineSig home (clusterOf s.cur) gr with
          | some h => s.x.rs.union h
          | none => s.x.rs)))

namespace Sys2Proof.Claims

/-- The atomics of R222: form, function number, width of the element. -/
def atomics : List ((BitVec 5 → BitVec 5 → BitVec 5 → Bool → Scope → Instr) × Nat × Nat) :=
  [(.aaddS32, 0, 32), (.aaddS64, 1, 64), (.aminS32, 2, 32), (.amaxS32, 3, 32), (.aminN32, 4, 32), (.axchg, 5, 64), (.acas, 6, 64), (.aaddF32, 7, 32),
   (.aor, 8, 64), (.aand, 9, 64), (.axor, 10, 64), (.aminN64, 11, 64)]
/-- What function fn makes of the old element x with operand b and compare value c (R222, R224). -/
def atomicNew (fn w : Nat) (x b c : Nat) : Nat :=
  let sg := fun (v : Nat) => if 2 ^ (w - 1) ≤ v then (v : Int) - 2 ^ w else v
  match fn with
  | 0 | 1 => (x + b) % 2 ^ w
  | 2 => if sg b < sg x then b else x
  | 3 => if sg x < sg b then b else x
  | 4 | 11 => if b < x then b else x
  | 5 => b
  | 6 => if x = c then b else x
  | 7 => (addF .f32 x b).1
  | 8 => x ||| b
  | 9 => x &&& b
  | _ => x ^^^ b

end Sys2Proof.Claims

/-- At an aligned address that translates to a writable page of the partition, its line not locked, no earlier access of the context to the granule and room for the request, an atomic with registers not awaited and clean
completes with its request last on its way, the register awaited unless it is posted; the core's copy of the granule is gone, for a request that executes at home the cluster's too, and a dirty one
is written back (R222, R223, R225). ATOMIC_EXECUTE of a request whose turn it is acts at home, or at the cluster cache, which fills the line from home where it does not hold the granule: it writes the new
element, every other byte of the granule kept, with a fresh seal when the granule was clean, else with that seal XOR 0xA5 and SEALFAULT on its way to mb7 of the issuing actor (R286); it gives the reply the old element,
sign-extended for the S32 forms, with the granule's syndrome, and the line's signature (R224). ATOMIC_REPLY ends the request, writes the register that still awaits it, adds the signature to RS and the flags to FPX. -/
def Obligations.AtomicResults : Prop :=
  (∀ r ∈ atomics, ∀ (b a d : BitVec 5) (p : Bool) (c : Scope) (s : State) (x : Xlat),
    s.readyFor 0 false ([gR a, gR b] ++ if r.2.1 = 6 then [gR d] else []) = true →
    (s.seen 0 false).clean a.toNat = true → (s.seen 0 false).clean b.toNat = true → (r.2.1 = 6 → (s.seen 0 false).clean d.toNat = true) →
    let va := (s.seen 0 false).gv a.toNat
    let old := (s.seen 0 false).gv d.toNat
    va.toNat % (r.2.2 / 8) = 0 → reaches s va true x → s.locked (x.pa / 8) = false → s.c.ordered s.curCtx x.hd (x.pa / 8) = false →
    s.cleanHeld s.cur (· == x.pa / 8) = false →
    (if p = true then s.c.posted s.curCtx < 32 else s.c.misses < 16) → (∀ g ∈ s.c.m.far, g.id ≠ s.dist.next) →
    ∃ t f, exec (r.1 b a d p c) s = .next t ∧ s.wroteRegs t 4 0 noReg noReg noReg ∧ t.c.m.lm = s.c.m.lm ∧ s.sameContexts t ∧ t.c.m.far = s.c.m.far ++ [f] ∧
      f.ctx = s.curCtx ∧ f.va = va ∧ f.pa = x.pa ∧ f.size = r.2.2 / 8 ∧ f.reply = none ∧
      f.kind = .atomic r.2.1 r.2.2 p (if p = true then none else some (gR d)) ((s.seen 0 false).gv b.toNat) (if r.2.1 = 6 then old else 0) c ∧
      (p = false → d ≠ 0 → ⟨f.id, gR d, none, false⟩ ∈ t.x.varp) ∧ f.atHome = s.pointHome c x ∧
      inCache t.c.m.cache (x.pa / 8) = false ∧ (s.pointHome c x = true → isEave s.cur = false → inCache (t.cluster (clusterOf s.cur)).cache (x.pa / 8) = false) ∧
      ((s.c.m.cache.map (·.1)).Nodup → ∀ q, cacheAt s.c.m.cache (x.pa / 8) = some q → q.dirty = true → wroteBack s t (x.pa / 8) q)) ∧
  (∀ (core id : Nat) (s : State) (f : Far) (fn w : Nat) (p : Bool) (reg : Option RegId) (b c : Word) (sc : Scope), (s.core core).farOf id = some f →
    f.kind = .atomic fn w p reg b c sc → f.reply = none → (fn, w) ∈ atomics.map (·.2) → f.pa % (w / 8) = 0 →
    let gr := f.pa / 8
    let pos := 8 * (f.pa % 8)
    let k := clusterOf core
    let from' := if f.atHome = true then s.homeGran gr else match cacheAt (s.cluster k).cache gr with
      | some e => (e.val, e.sl)
      | none => s.homeGran gr
    s.locked gr = false → (s.core core).onLink f = false → s.denied f.part f.pa = false → s.lostAt gr = false → (f.atHome = false → s.noRoom k [gr] = false) →
    (∀ g ∈ (s.core core).m.far, g.id < id → g.actor = f.actor → g.reply = none → g.touches [gr] = true → ∀ h w' q r' o e sc', g.kind ≠ .atomic h w' q r' o e sc') →
    let x := from'.1.toNat / 2 ^ pos % 2 ^ w
    let y := atomicNew fn w x (b.toNat % 2 ^ w) c.toNat
    let sy := syn from'.1 from'.2
    ∃ t q, exec (.atomicExecute core id []) s = .next t ∧
      (if f.atHome = true then t.homeGran gr = q else ∃ e, cacheAt (t.cluster k).cache gr = some e ∧ (e.val, e.sl) = q ∧ e.dirty = true) ∧
      q.2 = (if sy = 0 then sealFn q.1 else sealFn q.1 ^^^ 0xA5) ∧ q.1.toNat = from'.1.toNat - x * 2 ^ pos + y * 2 ^ pos ∧
      (sy = 0 → t.dist.hw = s.dist.hw) ∧
      (sy ≠ 0 → ∃ m, t.dist.hw = s.dist.hw ++ [m] ∧ m.part = f.part ∧ m.dst = mb7 f.addr ∧ m.h 32 16 = 0xFFF2 ∧
        (m.payload.map (·.1)).head? = some (BitVec.ofNat 64 (sy.toNat + 2 * 256 + coreNumber (if f.atHome = true then 1024 + s.homeEave f.pa else core) * 4096))) ∧
      (p = true → (t.core core).farOf id = none) ∧
      (p = false → ∃ g, (t.core core).farOf id = some g ∧ (let v : Word := if fn = 0 ∨ fn = 2 ∨ fn = 3 then BitVec.ofInt 64 (if 2 ^ 31 ≤ x then (x : Int) - 2 ^ 32 else x) else BitVec.ofNat 64 x
        g.reply = some [(v, sealFn v ^^^ sy)]) ∧ g.kind = f.kind ∧ g.sig = s.lineSig f.atHome k gr)) ∧
  (∀ (core id : Nat) (s : State) (f : Far) (fn w : Nat) (reg : Option RegId) (b c : Word) (sc : Scope) (v : Word × Byte) (r : List (Word × Byte)), (s.core core).farOf id = some f →
    f.kind = .atomic fn w false reg b c sc → f.reply = some (v :: r) →
    let y := (s.core core).ctx f.ctx
    ∃ t, exec (.atomicReply core id) s = .next t ∧ (t.core core).farOf id = none ∧ t.home = s.home ∧
      let z := (t.core core).ctx f.ctx
      (reg = none → z = y) ∧
      (reg ≠ none → z.fpx = y.fpx ||| f.flags ∧ z.rs = (match f.sig with
          | some g => y.rs.union g
          | none => y.rs) ∧
        ∀ e, y.varp.find? (·.id == id) = some e → e.shadowed = false → ∀ d : BitVec 5, e.reg = gR d →
          z.regs.holdsG d.toNat v.1 v.2 ∧ y.regs.sameG z.regs (oneReg d)))

/-- On a ridge tag that the acting actor's gang owns (R229, R230): BARV of an idle tag marks it arrived and counts one arrival of the gang; of another it traps BARRIER with cause 2. BARW of a released tag makes it idle
and sets BP, of an arrived one waits, of an idle one traps with cause 3. BARVW of an idle tag arrives and waits, and then goes on as BARW. BARQ writes the tag's state with the gang's generation and arrivals. On a tag that is
not owned each traps with cause 1. The release frees every resident member that has arrived and notes the others (R227). Registers and LM are otherwise as before. -/
def Obligations.BarrierResults : Prop :=
  ∀ (a : BitVec 3) (d : BitVec 5) (l : BitVec 3) (s : State), s.readyFor l.toNat false [] = true →
    let n := a.toNat
    let trap := fun (cause : Nat) => Host.Outcome.next (takeTrap s 0x12 (BitVec.ofNat 64 cause) (BitVec.ofNat 64 n) s.x.pc)
    ((∀ k, s.act = some k → k.ridge[n]? = none) →
      ∀ i ∈ [Instr.barv a l, .barw a l, .barvw a l, .barq a d l], exec i s = trap 1) ∧
    (∀ k q, s.act = some k → k.ridge[n]? = some q →
      let set' := fun (p : TagState) (t : State) => flowOnly s t 4 ∧ t.c.m = s.c.m ∧ s.sameContexts t ∧ t.act = some { k with ridge := k.ridge.set n p }
      (q = .idle → ∃ t, exec (.barv a l) s = .next t ∧ set' .arrived t ∧
        ∀ g, s.gangOf k.gang = some g → ∃ h, t.gangOf k.gang = some h ∧ h.tags.map (·.arrived) = g.tags.mapIdx fun i x => if i = n then x.arrived + 1 else x.arrived) ∧
      (q ≠ .idle → exec (.barv a l) s = trap 2) ∧
      (q = .idle → exec (.barw a l) s = trap 3) ∧
      (q = .arrived → exec (.barw a l) s = .next s.park) ∧
      (∀ i ∈ [Instr.barw a l, .barvw a l], q = .released → (i = .barvw a l → s.x.barvSent = some (s.x.pc.toNat * 8 + n)) →
        ∃ t, exec i s = .next t ∧ t.x.regs = s.x.regs ∧ s.wentOnBy t 4 ∧ t.c.m = s.c.m ∧ s.sameContexts t ∧ t.x.bp = true ∧
          t.act = some { k with ridge := k.ridge.set n .idle }) ∧
      (q = .idle → ∃ t, exec (.barvw a l) s = .next t ∧ t.stalled = (s.cur, s.curCtx) :: s.stalled ∧ t.x.pc = s.x.pc ∧
        t.x.barvSent = some (s.x.pc.toNat * 8 + n) ∧ t.act = some { k with ridge := k.ridge.set n .arrived }) ∧
      (∀ g, s.gangOf k.gang = some g → ∀ u, g.tags[n]? = some u →
        let code := match q with
          | .idle => 0
          | .arrived => 1
          | .released => 2
        let w := BitVec.ofNat 64 (code + 4 * (u.gen % 2 ^ 14) + 2 ^ 16 * u.arrived)
        writesG (.barq a d l) s 4 d w (sealFn w))) ∧
    (∀ (gang tag : Nat) (g : Gang) (u : GangTag) (due : Nat), s.gangOf gang = some g → g.tags[tag]? = some u → u.due = some due → due ≤ s.time →
      ∃ t, exec (.barrierRelease gang tag) s = .next t ∧ (∃ h, t.gangOf gang = some h ∧ h.tags[tag]? = some { u with arrived := 0, gen := u.gen + 1, due := none, owed := u.owed ++ (g.members.filter fun m => !s.memberHere gang m).map (·.2.2) }) ∧
        ∀ m ∈ g.members, ∀ k, (s.core m.1).actor m.2.1 = some k → k.addr = m.2.2 → k.ridge[tag]? = some .arrived →
          ∃ k', (t.core m.1).actor m.2.1 = some k' ∧ k'.ridge[tag]? = some .released)

namespace Sys2Proof.Claims

/-- The watch entries of the acting context on a granule's virtual address are gone. -/
def unwatched (s t : State) (va : Word) : Prop :=
  t.c.m.watch = s.c.m.watch.filter fun e => !(e.2.ctx == s.curCtx && e.2.va == va)
/-- WAITW ends with a status: the entry is freed and only g[d] is written. -/
def wakes (i : Instr) (s : State) (d : BitVec 5) (va : Word) (n : Nat) : Prop :=
  ∃ t, exec i s = .next t ∧ wroteStatus s t d n ∧ s.sameContexts t ∧ t.c.m.lm = s.c.m.lm ∧ t.home.mem = s.home.mem ∧ s.wentOnBy t 4 ∧ unwatched s t va ∧ t.x.waitw = none

end Sys2Proof.Claims

/-- At an address that translates for reading (R231 to R233): WATCH arms the context's entry on the granule, else the lowest free one, which is an inference (log 59), and writes its number; the home cache then
holds the line, and with room there the other entries are as before; with none free it writes 16 and changes nothing. WAITW ends with
status 0 when its entry is triggered, 2 when it was lost, 1 when its timeout has expired, 3 when no entry is free, the entry gone and only g[D] written; otherwise it arms an entry and waits. UNWATCH removes the
context's entry on the granule. LM and home memory are as before. -/
def Obligations.WatchResults : Prop :=
  ∀ (b a d : BitVec 5) (l : BitVec 3) (s : State) (x : Xlat), s.readyFor l.toNat false [gR a, gR b] = true → (s.seen l.toNat false).clean a.toNat = true →
    (s.seen l.toNat false).clean b.toNat = true →
    let ad := (s.seen l.toNat false).gv a.toNat
    let va : Word := BitVec.ofNat 64 (ad.toNat / 8 * 8)
    let gr := x.pa / 8
    (∃ t, exec (.unwatch a l) s = .next t ∧ flowOnly s t 4 ∧ t.c.m.lm = s.c.m.lm ∧ s.sameContexts t ∧ unwatched s t va ∧ t.home = s.home) ∧
    (reaches s ad false x →
      let armed := fun (n : Nat) => ∃ t, exec (.watch a d l) s = .next t ∧ wroteStatus s t d n ∧ t.c.m.watch.lookup n = some ⟨s.curCtx, gr, va, false, false⟩ ∧
        gr / 32 ∈ t.home.cached ∧ ((s.home.cached.contains (gr / 32) = true ∨ s.remote (8 * gr) = true ∨ (s.heldBy (s.homeEave (8 * gr))).length < 4096) →
          ∀ k, k ≠ n → t.c.m.watch.lookup k = s.c.m.watch.lookup k) ∧ t.c.m.lm = s.c.m.lm ∧ t.home.mem = s.home.mem
      (∀ n w, s.watchOf va = some (n, w) → armed n) ∧
      (∀ n, s.watchOf va = none → s.freeWatch = some n → armed n) ∧
      (s.watchOf va = none → s.freeWatch = none →
        ∃ t, exec (.watch a d l) s = .next t ∧ wroteStatus s t d 16 ∧ t.c.m.watch = s.c.m.watch ∧ t.c.m.lm = s.c.m.lm ∧ t.home.mem = s.home.mem) ∧
      (∀ n w, s.watchOf va = some (n, w) →
        (w.hit = true → wakes (.waitw b a d l) s d va 0) ∧ (w.hit = false → w.lost = true → wakes (.waitw b a d l) s d va 2) ∧
        (w.hit = false → w.lost = false → s.x.waitw = some 0 → wakes (.waitw b a d l) s d va 1) ∧
        (w.hit = false → w.lost = false → s.x.waitw ≠ some 0 → ∃ t, exec (.waitw b a d l) s = .next t ∧ t.stalled = (s.cur, s.curCtx) :: s.stalled ∧ t.x.pc = s.x.pc)) ∧
      (s.watchOf va = none → s.x.lost.contains va.toNat = true → wakes (.waitw b a d l) s d va 2) ∧
      (s.watchOf va = none → s.x.lost.contains va.toNat = false → s.freeWatch = none → wakes (.waitw b a d l) s d va 3) ∧
      (∀ n, s.watchOf va = none → s.x.lost.contains va.toNat = false → s.freeWatch = some n →
        ∃ t, exec (.waitw b a d l) s = .next t ∧ t.stalled = (s.cur, s.curCtx) :: s.stalled ∧ t.x.pc = s.x.pc ∧
          t.c.m.watch.lookup n = some ⟨s.curCtx, gr, va, false, false⟩))

/-! ## The compute-in-memory array -/

namespace Sys2Proof.Claims

/-- The acting actor k owns the array of its core, and no operation of it is in progress (R291, R295). -/
structure arrayIdle (s : State) (k : Actor) : Prop where
  core : isEave s.cur = false
  owner : s.act = some k ∧ k.csr.asgArr = true
  idle : s.c.arr.ops = [] ∧ s.c.arr.quadOps = []
  alone : s.c.arr.qm = .off
/-- The instruction completes, adds fl to FPX, leaves registers, memory, streams and the other contexts, and the array as P says. -/
def arrayDoes (i : Instr) (s : State) (fl : BitVec 6) (P : Cim → Prop) : Prop :=
  ∃ t, exec i s = .next t ∧ s.wroteRegs t 4 fl noReg noReg noReg ∧ s.sameOutside t ∧ s.sameContexts t ∧ t.c.m = s.c.m ∧ t.c.actors = s.c.actors ∧
    t.c.streams = s.c.streams ∧ t.c.outbound = s.c.outbound ∧ P t.c.arr
/-- n granules from address a can be read (R317). -/
def readableLm (s : State) (a : Word) (n : Nat) : Prop := ∀ j, j < n → s.loadOk (a + BitVec.ofNat 64 (8 * j)) 8 8 = true
/-- n granules of LM from address a with their seals. -/
def lmGrans (s : State) (a : Word) (n : Nat) : List (Word × Byte) := (List.range n).map fun i => (s.c.m.lm.gran (a.toNat / 8 + i), s.c.m.lm.sealOf (a.toNat / 8 + i))
/-- The logical K-rows of a B tile (R292, R297). -/
def kRows (f : Fmt) (sp : Nat) : Nat := (match f with
  | .s4 => 512
  | .s16 | .f16 | .b16 => 128
  | _ => 256) * if sp = 0 then 1 else if sp = 1 then 2 else 4
/-- The LM bytes of a B tile, its metadata included (R292, R296). -/
def tileBytes (f : Fmt) (sp : Nat) : Nat := (if f = .q4x then 12288 else 24576) + if sp = 0 then 0 else kRows f sp / 8 * 96
/-- The code in LM of logical element (k, n) of the tile that a load reads: 0 for an element that a sparse tile leaves out, else the stored ones of its run of
eight in ascending order (R292, R297). -/
def loadedElem (o : ArrOp) (k n : Nat) : Nat :=
  if o.sp = 0 then granElem o.data o.fmt.bits (96 * k + n)
  else
    let p := granElem (o.data.drop ((if o.fmt = .q4x then 12288 else 24576) / 8)) 8 (96 * (k / 8) + n)
    let before := ((List.range (k % 8)).filter p.testBit).length
    if p.testBit (k % 8) = true then granElem o.data o.fmt.bits (96 * ((if o.sp = 1 then 4 else 2) * (k / 8) + before) + n) else 0
/-- Every presence map of the sparse tile that a load reads has as many bits as its form asks for (R297). -/
def mapsGood (o : ArrOp) : Prop := o.sp = 0 ∨ ∀ e, e < kRows o.fmt o.sp.toNat / 8 * 96 →
  ((List.range 8).filter (granElem (o.data.drop ((if o.fmt = .q4x then 12288 else 24576) / 8)) 8 e).testBit).length = if o.sp = 1 then 4 else 2
/-- Actor k runs on a core with an array, which it owns (R9, R291). -/
def owns (s : State) (k : Actor) : Prop := isEave s.cur = false ∧ s.act = some k ∧ k.csr.asgArr = true
/-- The instruction traps MATRIX with a cause and TINFO1, and but for the trap nothing changes (R316). -/
def matrixTraps (i : Instr) (s : State) (cause : Nat) (info : Word) : Prop := exec i s = .next (takeTrap s 0x11 (BitVec.ofNat 64 cause) info s.x.pc)
/-- The instruction traps at the first granule from a that is not to be accessed: ALIGN, XREAD or LMBOUND (R101, R102, R317). -/
def rangeTraps (i : Instr) (s : State) (a : Word) (n kind : Nat) : Prop := ∀ j, j < n → let x := a + BitVec.ofNat 64 (8 * j)
  let trap := fun code => exec i s = .next (takeTrap s code x (BitVec.ofNat 64 (64 * kind + 3)) s.x.pc)
  (∀ m, m < j → s.loadOk (a + BitVec.ofNat 64 (8 * m)) 8 8 = true) →
  (x.toNat % 8 ≠ 0 → trap 0x03) ∧ (x.toNat % 8 = 0 → x.toNat < s.c.xbAddr → trap 0x06) ∧
  (x.toNat % 8 = 0 → s.c.xbAddr ≤ x.toNat → s.lmInside x.toNat 8 = false → trap 0x04)
/-- A matrix instruction with the g registers that it reads and its tile number (R293, R316). -/
def matrixForm (m : Bool) (sp : Sparse) (tc : BitVec 2) (b a : BitVec 5) (f : Fmt) (z : BitVec 1) (l : BitVec 3) (q : Instr × List (BitVec 5) × Word) : Prop :=
  let one := if b = 0 then [a] else [a, b]
  let zi : Word := z.setWidth 64
  q ∈ [(.mldb b a f l, one, 0), (.mldbs sp b a f l, one, 0), (.mswap l, [], 0), (.mscale m a l, [a], 0), (.mzero z l, [], zi), (.mquad a l, [a], 0),
   (.mma m b a f z l, if m = true then [b] else [a, b], zi), (.mmas m b a f z l, if m = true then [b] else [a, b], zi), (.moutl b a f z l, [a, b], zi),
   (.mrdz m b a f z l, [b], zi), (.mstz m b a f z l, [a, b], zi), (.mdrain tc m b a f z l, [a, b], zi), (.mwait z l, [], zi)]
/-- The operation o is the one in progress, and the bank it loads is loading; the rest of the array is as before. -/
def loadBegun (a a' : Cim) (f : Fmt) (sp : Nat) (data : List (Word × Byte)) (scales : Option (List (Word × Byte))) : Prop :=
  ∃ o, a'.ops = [o] ∧ o.fn = 0 ∧ o.bank = !a.act ∧ o.fmt = f ∧ o.sp.toNat = sp ∧ o.data = data ∧ o.scales = scales ∧ a'.act = a.act ∧ a'.z0 = a.z0 ∧ a'.z1 = a.z1 ∧
    a'.bank a.act = a.bank a.act ∧ a'.bank (!a.act) = { a.bank (!a.act) with ld := .loading }

end Sys2Proof.Claims

/-- On an idle array owned by the actor, registers not awaited and clean, operands aligned and readable. MLDB and MLDBS begin to load the inactive bank from the tile, and scales, in LM as they are at issue (R295, R296);
MATRIX_LOAD_COMPLETE leaves the bank they define: ready when every presence map has the right count, and then element (k, n) is the signed code in LM, a part of a Q4X pair, or the aligned value of BlockAlign over its
32 logical elements, whose shift and special flag are latched (R37, R297). MSWAP with the other bank ready makes it active and raises Q4BAD if its load met a bad pair (R298); MSCALE replaces the scales of a ready bank
(R299); MZERO clears a tile (R302). MQUAD, of a gang that asks for whole quads with four members that own their arrays to enter, makes the lead and the members of a quad, or ends it, when the other three wait for the same
value and to leave no quad MMA is under way; else it waits (R309). Nothing else changes. Every matrix instruction traps ILLEGAL cause 8 on an eave core and MATRIX 0x0A in a context whose actor does not own the array or that
has none (R9, R316, R408); MLDB and MLDBS trap ALIGN, then at the first bad granule of the tile; MSWAP traps MATRIX 0x09 and MSCALE 0x01 with the bank not ready; MQUAD 0x06 (R317). -/
def Obligations.MatrixLoadResults : Prop :=
  (∀ (b a : BitVec 5) (f : Fmt) (l : BitVec 3) (s : State) (k : Actor), arrayIdle s k → s.readyFor l.toNat false [gR a] = true → (s.seen l.toNat false).clean a.toNat = true →
    let ta := (s.seen l.toNat false).gv a.toNat
    let sa := (s.seen l.toNat false).gv b.toNat
    ta.toNat % 128 = 0 →
    (∀ i sp, (i, sp) ∈ [(Instr.mldb b a f l, 0), (.mldbs .of4 b a f l, 1), (.mldbs .of2 b a f l, 2)] → readableLm s ta (tileBytes f sp / 8) →
      (b = 0 → arrayDoes i s 0 fun c => loadBegun s.c.arr c f sp (lmGrans s ta (tileBytes f sp / 8)) none) ∧
      (b ≠ 0 → s.readyFor l.toNat false [gR a, gR b] = true → (s.seen l.toNat false).clean b.toNat = true → sa.toNat % 8 = 0 → readableLm s sa 48 →
        arrayDoes i s 0 fun c => loadBegun s.c.arr c f sp (lmGrans s ta (tileBytes f sp / 8)) (some (lmGrans s sa 48))))) ∧
  (∀ (core : Nat) (s : State) (o : ArrOp), (s.core core).arr.ops = [o] → (s.core core).arr.quadOps = [] → o.fn = 0 →
    ∃ t, exec (.matrixLoadComplete core) s = .next t ∧ (t.core core).arr.ops = [] ∧ (t.core core).arr.bank o.bank = loadedBank o ∧
      (t.core core).arr.bank (!o.bank) = (s.core core).arr.bank (!o.bank) ∧ t.home = s.home ∧ (t.core core).m = (s.core core).m ∧
      (o.fmt = .s8 → o.sp = 0 → ∀ i n, i < 256 → n < 96 → ((t.core core).arr.bank o.bank).ld = .ready ∧
        ((t.core core).arr.bank o.bank).elt i n = (BitVec.ofNat 8 ((o.data.getD ((96 * i + n) / 8) (0, 0)).1.toNat / 2 ^ (8 * ((96 * i + n) % 8)))).toInt) ∧
      (let b := (t.core core).arr.bank o.bank
       o.fmt.bFmt = true → o.sp.toNat ≤ 2 → b.fmt = o.fmt ∧ b.sp = o.sp ∧ (¬ mapsGood o → b.ld = .failed) ∧
          (∀ n, n < 96 → tget 0 b.scales n = match o.scales with
            | none => 0x3F800000
            | some w => BitVec.ofNat 32 (granElem w 32 n)) ∧
          (mapsGood o → b.ld = .ready ∧ ∀ i n, i < kRows o.fmt o.sp.toNat → n < 96 →
            (o.fmt.isFloat = false → o.fmt ≠ .q4x → b.elt i n = intOf o.fmt.bits true (loadedElem o i n)) ∧
            (o.fmt = .q4x → o.sp = 0 → let q := q4decode (granElem o.data 8 ((96 * i + n) / 2))
              b.elt i n = if n % 2 = 0 then q.1 else q.2.1) ∧
            (o.fmt.isFloat = true → let x := blockAlign o.fmt ((List.range 32).map fun j => loadedElem o (i / 32 * 32 + j) n)
              tget (0, false) b.align (96 * (i / 32) + n) = (x.1, x.2.2) ∧ b.elt i n = x.2.1.getD (i % 32) 0)))) ∧
  (∀ (a : BitVec 5) (z : BitVec 1) (l : BitVec 3) (s : State) (k : Actor), arrayIdle s k → s.readyFor l.toNat false [gR a] = true → (s.seen l.toNat false).clean a.toNat = true →
    let c := s.c.arr
    let g := (s.seen l.toNat false).gv a.toNat
    ((c.bank (!c.act)).ld = .ready → arrayDoes (.mswap l) s (if (c.bank (!c.act)).q4b = true then fQ4 else 0) fun e => e = { c with act := !c.act }) ∧
    (∀ m : Bool, (c.bank (c.act == m)).ld = .ready → readableLm s g 48 → (∀ q ∈ lmGrans s g 48, syn q.1 q.2 = 0) →
      arrayDoes (.mscale m a l) s 0 fun e => e.bank (c.act != m) = c.bank (c.act != m) ∧ e.act = c.act ∧ e.z0 = c.z0 ∧ e.z1 = c.z1 ∧
        (e.bank (c.act == m)).store = (c.bank (c.act == m)).store ∧ (e.bank (c.act == m)).pm = (c.bank (c.act == m)).pm ∧
        ∀ n, n < 96 → (tget 0 (e.bank (c.act == m)).scales n).toNat = ((lmGrans s g 48).getD (n / 2) (0, 0)).1.toNat / 2 ^ (32 * (n % 2)) % 2 ^ 32) ∧
    arrayDoes (.mzero z l) s 0 (fun e => e.ops = [] ∧ (e.tile (z == 1)).z = [] ∧ (e.tile (z == 1)).pb = [] ∧ (e.tile (z == 1)).kind = 0 ∧
      e.tile (z != 1) = c.tile (z != 1) ∧ e.b0 = c.b0 ∧ e.b1 = c.b1) ∧
    ((c.bank (!c.act)).ld = .empty ∨ (c.bank (!c.act)).ld = .failed → matrixTraps (.mswap l) s 0x09 0) ∧
    (∀ m : Bool, rangeTraps (.mscale m a l) s g 48 0 ∧ ((c.bank (c.act == m)).ld ≠ .ready → readableLm s g 48 → matrixTraps (.mscale m a l) s 0x01 0))) ∧
  (∀ (a : BitVec 5) (l : BitVec 3) (s : State) (k : Actor), owns s k → operandsOk s l [a] →
    let c := s.c.arr
    let g := (s.seen l.toNat false).gv a.toNat
    let lead := s.cur / 4 * 4
    let four := [lead, lead + 1, lead + 2, lead + 3]
    (2 ≤ g.toNat → matrixTraps (.mquad a l) s 0x06 0) ∧
    let whole := k.quads = true ∧ ∀ n ∈ four, ∃ w, (s.core n).arrayOwner = some w ∧ w.gang = k.gang ∧ w.part = k.part
    (g = 1 → ¬ whole → matrixTraps (.mquad a l) s 0x06 0) ∧
    ∀ v : Bool, g = (if v = true then 1 else 0) → (v = true → whole) →
      let met := (∀ n ∈ four, n ≠ s.cur → (s.core n).arr.quadWant = some (v, false)) ∧ (v = true ∨ ((s.core lead).arr.ops.any (·.quad)) = false)
      (c.quadWant = some (v, true) → arrayDoes (.mquad a l) s 0 fun e => e = { c with quadWant := none }) ∧
      (c.quadWant ≠ some (v, true) →
        (met → ∃ t, exec (.mquad a l) s = .next t ∧ s.wentOnBy t 4 ∧ t.home = s.home ∧ ∀ n ∈ four,
          let old := (s.core n).arr
          (t.core n).arr = { old with qm := if v = true then (if n = lead then .lead else .member) else .off, quadWant := if n = s.cur then none else some (v, true) }) ∧
        (¬ met → ∃ t, exec (.mquad a l) s = .next t ∧ t.stalled = (s.cur, s.curCtx) :: s.stalled ∧ t.x.pc = s.x.pc ∧ t.c.arr = { c with quadWant := some (v, false) }))) ∧
  (∀ (m : Bool) (sp : Sparse) (tc : BitVec 2) (b a : BitVec 5) (f : Fmt) (z : BitVec 1) (l : BitVec 3) (s : State), ∀ q, matrixForm m sp tc b a f z l q →
    (isEave s.cur = true → ∀ w, encode q.1 = .w32 w → exec q.1 s = .next (takeTrap s 0x01 (BitVec.ofNat 64 (w.toNat / 4 % 64)) (BitVec.ofNat 64 (w.toNat * 2 ^ 32 + 8)) s.x.pc)) ∧
    (isEave s.cur = false → s.readyFor l.toNat false (q.2.1.map gR) = true → (∀ k, s.act = some k → k.csr.asgArr = false) → matrixTraps q.1 s 0x0A q.2.2)) ∧
  (∀ (b a : BitVec 5) (f : Fmt) (l : BitVec 3) (s : State) (k : Actor), owns s k → operandsOk s l [a, b] →
    let ta := (s.seen l.toNat false).gv a.toNat
    let sa := (s.seen l.toNat false).gv b.toNat
    ∀ i sp, (i, sp) ∈ [(Instr.mldb b a f l, 0), (.mldbs .of4 b a f l, 1), (.mldbs .of2 b a f l, 2)] →
    (ta.toNat % 128 ≠ 0 → exec i s = .next (takeTrap s 0x03 ta 3 s.x.pc)) ∧
    (ta.toNat % 128 = 0 → b ≠ 0 → sa.toNat % 8 ≠ 0 → exec i s = .next (takeTrap s 0x03 sa 3 s.x.pc)) ∧
    (ta.toNat % 128 = 0 → (b ≠ 0 → sa.toNat % 8 = 0) → (∀ o ∈ s.c.arr.ops, o.fn ≠ 6) → rangeTraps i s ta (tileBytes f sp / 8) 0 ∧
      (b ≠ 0 → readableLm s ta (tileBytes f sp / 8) → rangeTraps i s sa 48 0)))

namespace Sys2Proof.Claims

/-- A rows operand (R293): the first row and the count, 1 to 256 rows within the tile. -/
def rowsOperand (w : Word) (r c : Nat) : Prop := w.toNat < 2 ^ 24 ∧ w.toNat / 2 ^ 9 % 128 = 0 ∧ w.toNat % 512 = c ∧ w.toNat / 2 ^ 16 % 256 = r ∧ 1 ≤ c ∧ c ≤ 256 ∧ r + c ≤ 256
/-- A multiplication of rows r to r + c - 1 of a tile by the active bank is the operation in progress, its tile in the mode's kind, nothing else changed. -/
def multiplyBegun (a a' : Cim) (f : Fmt) (z : Bool) (r c n : Nat) (slot : Option Nat) (data : List (Word × Byte)) : Prop :=
  ∃ o, a'.ops = [o] ∧ o.fn = 3 ∧ o.bank = a.act ∧ o.tile = z ∧ o.fmt = f ∧ o.row0 = r ∧ o.count = c ∧ o.next = 0 ∧ o.k = n ∧ o.slot = slot ∧ o.data = data ∧
    o.quad = false ∧ a'.b0 = a.b0 ∧ a'.b1 = a.b1 ∧ a'.act = a.act ∧ (a'.tile z).z = (a.tile z).z ∧ (a'.tile z).pb = (a.tile z).pb ∧
    (a'.tile z).kind = (if f.isFloat = false ∧ (a.bank a.act).fmt.isFloat = false then 1 else 2) ∧ a'.tile (!z) = a.tile (!z)
/-- The code of element j of row i of A, as the operation holds it (R300). -/
def rowCode (o : ArrOp) (i j : Nat) : Nat :=
  let rb := o.k * o.fmt.bits / 8
  granElem ((o.data.drop (i * rb / 8)).take (rb / 8)) o.fmt.bits j
/-- The exact sum over k of A(i, k) B(k, n) for integer formats, A as the operation holds it (R38, R300). -/
def rowSum (o : ArrOp) (b : Bank) (i n : Nat) : Int :=
  ((List.range o.k).map fun j => intOf o.fmt.bits true (rowCode o i j) * b.elt j n).foldl (· + ·) 0
/-- Element n of a tile after row i of A in floating mode, and the flags: R38 over the K-groups in ascending order; an integer format is not aligned (R300). -/
def floatRow (o : ArrOp) (b : Bank) (i n : Nat) (old : BitVec 32) : Nat × Flags :=
  (List.range (o.k / 32)).foldl (fun x g =>
    let codes := (List.range 32).map fun j => rowCode o i (32 * g + j)
    let a := if o.fmt.isFloat = true then blockAlign o.fmt codes else (0, codes.map (intOf o.fmt.bits true), false)
    let h := tget (0, false) b.align (96 * g + n)
    let y := groupSum x.1 a.1 a.2.1 a.2.2 h.1 ((List.range 32).map fun j => b.elt (32 * g + j) n) h.2 (tget 0 b.scales n).toNat
    (y.1, x.2 ||| y.2)) (old.toNat, 0)
/-- The sum of a(i, k(j)) v(j) over the entries of a list that name column n (R303). -/
def listSum (o : ArrOp) (i n : Nat) : Int :=
  (((outEntries o).filter fun e => e.2.1 == n).map fun e => intOf o.fmt.bits true (rowCode o i e.1) * e.2.2).foldl (· + ·) 0

end Sys2Proof.Claims

namespace Sys2Proof.Claims

/-- Element (r, n) of a tile as an output instruction converts it, and its flags (R304). -/
def tileOut (c : Cim) (z sc : Bool) (f : Fmt) (r n : Nat) : Nat × Flags :=
  outElem (c.tile z).kind f (if sc = true then some (tget 0 (c.bank c.act).scales n) else none) (tget 0 (c.tile z).z (96 * r + n))
/-- No column bank of rows r to r + c - 1 is poisoned. -/
def unpoisoned (t : Tile) (r c : Nat) : Prop := ∀ i j, i < c → j < 8 → tget false t.pb (8 * (r + i) + j) = false

end Sys2Proof.Claims

/-- On an idle array owned by the actor, registers not awaited and clean, the active bank ready when scales are asked for, and rows without poison: MRDZ makes v[A] await the 32 converted elements of a third of a row with fresh seals
(R304, R305); MSTZ stores the converted rows to the writable LM range, row by row, with fresh seals and no other byte changed (R306); MDRAIN with a good destination, at most 8191 bytes and a free outbound entry queues them as a
multi-part message (R307). FPX gains the flags of the conversions. MWAIT goes on (R308). They trap MATRIX 0x03 for a bad row, third or rows operand, MDRAIN then 0x08 for a
bad destination or more than 8191 bytes, then 0x01 for scales with the active bank not ready; then MSTZ at the first bad granule (R317). -/
def Obligations.MatrixOutputResults : Prop :=
  (∀ (tc : BitVec 2) (sc : Bool) (b a : BitVec 5) (f : Fmt) (z : BitVec 1) (l : BitVec 3) (s : State) (k : Actor), owns s k →
    let w := (s.seen l.toNat false).gv b.toNat
    let ga := (s.seen l.toNat false).gv a.toNat
    let zi : Word := z.setWidth 64
    let noScales := sc = true ∧ (s.c.arr.bank s.c.arr.act).ld ≠ .ready
    (operandsOk s l [b] → (2 ^ 10 ≤ w.toNat ∨ w.toNat / 256 = 3 → matrixTraps (.mrdz sc b a f z l) s 0x03 zi) ∧
      (w.toNat < 2 ^ 10 → w.toNat / 256 ≠ 3 → noScales → matrixTraps (.mrdz sc b a f z l) s 0x01 zi)) ∧
    (operandsOk s l [a, b] → ((¬ ∃ r q, rowsOperand w r q) → matrixTraps (.mstz sc b a f z l) s 0x03 zi ∧ matrixTraps (.mdrain tc sc b a f z l) s 0x03 zi) ∧
      ∀ r q, rowsOperand w r q → let n := q * 96 * f.bits / 8
        (noScales → matrixTraps (.mstz sc b a f z l) s 0x01 zi) ∧
        (¬ noScales → (∀ o ∈ s.c.arr.ops, o.fn ≠ 6) → rangeTraps (.mstz sc b a f z l) s ga (n / 8) 1) ∧
        (s.drainDest k ga = none ∨ 8191 < n → matrixTraps (.mdrain tc sc b a f z l) s 0x08 zi) ∧
        ((s.drainDest k ga).isSome = true → n ≤ 8191 → noScales → matrixTraps (.mdrain tc sc b a f z l) s 0x01 zi))) ∧
  ∀ (sc : Bool) (b a : BitVec 5) (f : Fmt) (z : BitVec 1) (l : BitVec 3) (s : State) (k : Actor), arrayIdle s k → (sc = true → (s.c.arr.bank s.c.arr.act).ld = .ready) →
    let c := s.c.arr
    let zb : Bool := z == 1
    let w := (s.seen l.toNat false).gv b.toNat
    let ga := (s.seen l.toNat false).gv a.toNat
    let flagsOf := fun (ps : List (Nat × Nat)) => ps.foldl (fun x p => x ||| (tileOut c zb sc f p.1 p.2).2) (0 : Flags)
    (s.readyFor l.toNat false [] = true → s.bankNews s.cur zb = false → arrayDoes (.mwait z l) s 0 fun e => e = c) ∧
    (s.readyFor l.toNat false [gR b] = true → (s.seen l.toNat false).clean b.toNat = true → f.bits = 32 → w.toNat < 2 ^ 10 → w.toNat / 256 ≠ 3 →
      let row := w.toNat % 256
      let col := 32 * (w.toNat / 256)
      unpoisoned (c.tile zb) row 1 → (∀ e ∈ s.x.varp, e.id ≠ s.dist.next) →
      ∃ t, exec (.mrdz sc b a f z l) s = .next t ∧ s.wroteRegs t 4 (flagsOf ((List.range 32).map fun i => (row, col + i))) noReg noReg noReg ∧ s.sameOutside t ∧ s.sameContexts t ∧
        t.c.m = s.c.m ∧ t.c.arr = c ∧ ∃ e ∈ t.x.varp, e.reg = vR a ∧ ∃ v sl, e.res = some (v, sl) ∧
          (∀ i, i < 32 → lane v i = BitVec.ofNat 32 (tileOut c zb sc f row (col + i)).1) ∧ ∀ j, j < 16 → pairSeal sl j = sealFn (pair v j)) ∧
    (s.readyFor l.toNat false [gR a, gR b] = true → (s.seen l.toNat false).clean a.toNat = true → (s.seen l.toNat false).clean b.toNat = true →
      ∀ r q, rowsOperand w r q → unpoisoned (c.tile zb) r q →
      let n := q * 96 * f.bits / 8
      let all := (List.range (96 * q)).map fun i => (r + i / 96, i % 96)
      let holds := fun (gs : List (Word × Byte)) => gs.length = n / 8 ∧ (∀ g ∈ gs, g.2 = sealFn g.1) ∧
        ∀ i, i < 96 * q → granElem gs f.bits i = (tileOut c zb sc f (r + i / 96) (i % 96)).1 % 2 ^ f.bits
      ((∀ j, j < n / 8 → s.lmOk (ga + BitVec.ofNat 64 (8 * j)) 8 8 = true) →
        ∃ t, exec (.mstz sc b a f z l) s = .next t ∧ s.wroteRegs t 4 (flagsOf all) noReg noReg noReg ∧ s.sameOutside t ∧ s.sameContexts t ∧ t.c.arr = c ∧
          holds (lmGrans t ga (n / 8)) ∧ (∀ x, x < ga.toNat ∨ ga.toNat + n ≤ x → t.c.m.lm.byte x = s.c.m.lm.byte x) ∧
          (∀ x, x < ga.toNat / 8 ∨ ga.toNat / 8 + n / 8 ≤ x → t.c.m.lm.sealOf x = s.c.m.lm.sealOf x)) ∧
      (∀ (tc : BitVec 2) (dst : BitVec 32), s.drainDest k ga = some dst → n ≤ 8191 → s.c.outbound.length < 32 → (∀ m ∈ s.c.outbound, m.id ≠ s.dist.next) →
        ∃ t m, exec (.mdrain tc sc b a f z l) s = .next t ∧ s.wroteRegs t 4 (flagsOf all) noReg noReg noReg ∧ s.sameContexts t ∧ t.c.m = s.c.m ∧ t.home = s.home ∧ t.c.arr = c ∧
          t.c.outbound = s.c.outbound ++ [m] ∧ m.src = k.addr ∧ m.dst = dst ∧ m.tc = tc.toNat ∧ m.multi = true ∧ m.st = .flying ∧ m.h 64 13 = n ∧ m.h 51 1 = 1 ∧ holds m.payload))

/-! ## Tensors and copies -/

namespace Sys2Proof.Claims

/-- The n granules of LM from a can be read (R80) and pass their seal checks. -/
def soundLm (s : State) (a : Word) (n : Nat) : Prop :=
  (∀ j, j < n → s.lmOk (a + BitVec.ofNat 64 (8 * j)) 8 8 = true) ∧ ∀ q ∈ lmGrans s a n, syn q.1 q.2 = 0
/-- The instruction completes with a status; the acting actor becomes k, and LM, home memory, copies and the other contexts are as before. -/
def tableDoes (i : Instr) (s : State) (d : BitVec 5) (n : Nat) (k : Actor) : Prop :=
  ∃ t, exec i s = .next t ∧ wroteStatus s t d n ∧ s.wentOnBy t 4 ∧ s.sameOutside t ∧ s.sameContexts t ∧ t.c.m = s.c.m ∧ t.act = some k
/-- The instruction completes with a status; registers but g[d], LM, home memory and the other contexts are as before, and P holds of the copies
and of the messages of hardware senders. -/
def copyDoes (i : Instr) (s : State) (d : BitVec 5) (n : Nat) (P : State → Prop) : Prop :=
  ∃ t, exec i s = .next t ∧ wroteStatus s t d n ∧ s.wentOnBy t 4 ∧ s.sameContexts t ∧ t.c.m = s.c.m ∧ t.c.actors = s.c.actors ∧ t.home.mem = s.home.mem ∧ P t
/-- Whether a part waits for an answer. -/
def isWaiting (p : CopyPart) : Bool := match p.ph with
  | .waiting _ => true
  | _ => false

end Sys2Proof.Claims

/-- For an actor with operands clean, aligned and readable: TLRDEF of a valid record takes the lowest free entry, raises its generation and answers the handle; it answers -1 with no free entry and -2 for an invalid record
(R322). TLRFREE answers 2 for an invalid handle and 1 while it is in use, else frees the entry. PFT writes no register, whatever its handle (R323). COPY and COPYF answer 2 for an ill-formed block and 1 with sixteen copies
outstanding, else add a copy with the block and, for a source in LM, the image as it stands (R326). Without an actor TLRDEF answers -2, TLRFREE, COPY and COPYF 2, and PFT does nothing (R408). Nothing else changes.
That TLRDEF answers -2, and does not trap, for a record of format code 14 or 15 is the model's choice (log 68) between R318 with R322 and the last sentence of R59. -/
def Obligations.TensorInstructionResults : Prop :=
  (∀ (a d : BitVec 5) (l : BitVec 3) (s : State) (k : Actor), s.act = some k → s.readyFor l.toNat false [gR a] = true → (s.seen l.toNat false).clean a.toNat = true →
    let g := (s.seen l.toNat false).gv a.toNat
    let rec' := (s.lmVec (g.toNat / 8)).1
    let used := fun (e : Nat) => (tget .free k.tlr e).used
    (g.toNat % 128 = 0 → soundLm s g 16 →
      (recValid rec' = false → answers (.tlrdef a d l) s d 0xFFFFFFFFFFFFFFFE) ∧
      (recValid rec' = true → (∀ e, e < 16 → used e = true) → answers (.tlrdef a d l) s d 0xFFFFFFFFFFFFFFFF) ∧
      (recValid rec' = true → ∀ e, e < 16 → used e = false → (∀ f, f < e → used f = true) →
        let gen := (tget .free k.tlr e).gen + 1
        tableDoes (.tlrdef a d l) s d (gen.toNat * 16 + e) { k with tlr := tset .free k.tlr e ⟨rec', gen, true⟩ })) ∧
    (k.tlrOf g.toNat = none → answers (.tlrfree a d l) s d 2) ∧
    ((k.tlrOf g.toNat).isSome = true → s.handleBusy k g.toNat = true → answers (.tlrfree a d l) s d 1) ∧
    ((k.tlrOf g.toNat).isSome = true → s.handleBusy k g.toNat = false →
      tableDoes (.tlrfree a d l) s d 0 { k with tlr := tset .free k.tlr (g.toNat % 16) { tget .free k.tlr (g.toNat % 16) with used := false } })) ∧
  (∀ (b a : BitVec 5) (l : BitVec 3) (s : State), s.readyFor l.toNat false [gR a, gR b] = true → (s.seen l.toNat false).clean a.toNat = true → (s.seen l.toNat false).clean b.toNat = true →
    ∃ t, exec (.pft b a l) s = .next t ∧ t.x.regs = s.x.regs ∧ t.x.fpx = s.x.fpx ∧ s.wentOnBy t 4 ∧ s.sameContexts t ∧ t.c.m.lm = s.c.m.lm ∧
      ((∀ e ∈ (s.cluster (clusterOf s.cur)).cache, e.2.dirty = false) → t.home.mem = s.home.mem) ∧
      ((∀ k, s.act = some k → k.tlrOf ((s.seen l.toNat false).gv a.toNat).toNat = none) → onlyFlow s t)) ∧
  (∀ (a d : BitVec 5) (l : BitVec 3) (s : State), s.act = none → operandsOk s l [a] →
    answers (.tlrfree a d l) s d 2 ∧ answers (.tlrdef a d l) s d 0xFFFFFFFFFFFFFFFE ∧ answers (.copy a d l) s d 2 ∧ answers (.copyf a d l) s d 2) ∧
  (∀ (a d : BitVec 5) (l : BitVec 3) (s : State) (k : Actor), s.act = some k → s.readyFor l.toNat false [gR a] = true → (s.seen l.toNat false).clean a.toNat = true →
    let g := (s.seen l.toNat false).gv a.toNat
    let block := BitVec.ofNat 512 (packWords (lmGrans s g 8))
    g.toNat % 64 = 0 → soundLm s g 8 → ∀ i f, (i, f) ∈ [(Instr.copy a d l, false), (.copyf a d l, true)] →
    (block.getLsbD 256 = false → s.copyOf k block f = none → answers i s d 2) ∧
    (∀ c, s.copyOf k block f = some c →
      let src := BitVec.ofNat 64 (k.csr.lo.toNat * 8192 + (Machine.bytesAt block 20 4) / 8 * 8)
      let n := imageBytes c.dstRec / 8
      (c.srcLm = true → ∀ j, j < n → s.lmOk (src + BitVec.ofNat 64 (8 * j)) 8 8 = true) →
      c.block = block ∧ c.addr = k.addr ∧ c.parts = [] ∧ c.requested = false ∧
      (16 ≤ s.copyEntries s.cur → answers i s d 1) ∧
      (s.copyEntries s.cur < 16 → copyDoes i s d 0 fun t => t.dist.hw = s.dist.hw ∧
        t.dist.copies = s.dist.copies ++ [{ c with id := s.dist.next, image := if c.srcLm = true then lmGrans s src n else [] }])))

/-- For an actor with clean operands. CPATCH with a token of no waiting part answers 1, with the token of a part already answered 2, or 0 where it asks to skip; with that of a waiting part it answers 0 and the part is to
be retried, is skipped, or is to be performed with the patch image in LM (R332). COPYQ answers 0 for an unknown id, else state, waiting parts and parts left (R335). CCANCEL answers 1 for an unknown id, else 0, and no part
of the copy waits, nor has yet to start but where it writes a line that the copy holds locked, or a line of such a part (log 72); a copy of which no part has started ends at once, its completion message telling status 2 (R336).
Without an actor CPATCH and CCANCEL answer 1 and COPYQ 0 (R408). That CPATCH answers 1 for a token operand with a bit of [63:32] set is the model's choice (log 68). -/
def Obligations.CopyControlResults : Prop :=
  (∀ (b a d : BitVec 5) (l : BitVec 3) (s : State), s.act = none → operandsOk s l [a, b] →
    answers (.cpatch b a d l) s d 1 ∧ answers (.copyq a d l) s d 0 ∧ answers (.ccancel a d l) s d 1) ∧
  (∀ (b a d : BitVec 5) (l : BitVec 3) (s : State) (k : Actor), s.act = some k → s.readyFor l.toNat false [gR a, gR b] = true → (s.seen l.toNat false).clean a.toNat = true →
    (s.seen l.toNat false).clean b.toNat = true →
    let g := (s.seen l.toNat false).gv a.toNat
    let h := (s.seen l.toNat false).gv b.toNat
    let act := h.toNat % 4
    let wf := h.toNat / 4 % 2 ^ 30 = 0 ∧ h.toNat / 2 ^ 51 = 0 ∧ act ≠ 3
    let spent := s.dist.spent.contains (g.toNat, k.part, k.addr)
    (2 ^ 32 ≤ g.toNat → answers (.cpatch b a d l) s d 1) ∧
    (g.toNat < 2 ^ 32 → s.waitingPart k g.toNat = none →
      (spent = false → answers (.cpatch b a d l) s d 1) ∧ (spent = true → (¬ wf ∨ act ≠ 1) → answers (.cpatch b a d l) s d 2) ∧
      (spent = true → wf → act = 1 → answers (.cpatch b a d l) s d 0)) ∧
    (g.toNat < 2 ^ 32 → ∀ c i p kind, s.waitingPart k g.toNat = some (c, i, p, kind) → (∀ e ∈ s.dist.copies, e.id = c.id → e = c) →
      let at' := h.toNat / 2 ^ 32 % 2 ^ 19
      let n := (p.count * c.w + 63) / 64
      (¬ wf ∨ (kind = 6 ∧ act ≠ 1) → answers (.cpatch b a d l) s d 2) ∧
      (wf → kind ≠ 6 → act = 0 → copyDoes (.cpatch b a d l) s d 0 fun t => ∃ e, t.copyAt c.id = some e ∧ e.parts[i]? = some { p with ph := .todo, patch := none }) ∧
      (wf → kind ≠ 6 → act = 1 → c.requested = true → (∃ q ∈ c.parts, q.pending = true ∧ q.token ≠ p.token) →
        copyDoes (.cpatch b a d l) s d 0 fun t => ∃ e, t.copyAt c.id = some e ∧ e.parts[i]? = some { p with ph := .skipped }) ∧
      (wf → kind ≠ 6 → act = 2 → at' % 8 = 0 → s.c.windowAt k at' (8 * n) = true → copyDoes (.cpatch b a d l) s d 0 fun t =>
        ∃ e, t.copyAt c.id = some e ∧ e.parts[i]? = some { p with ph := .todo, patch := some (lmGrans s (BitVec.ofNat 64 at') n) }))) ∧
  (∀ (a d : BitVec 5) (l : BitVec 3) (s : State) (k : Actor), s.act = some k → s.readyFor l.toNat false [gR a] = true → (s.seen l.toNat false).clean a.toNat = true →
    let pid := ((s.seen l.toNat false).gv a.toNat).toNat % 2 ^ 16
    (s.copyById k pid = none → answers (.copyq a d l) s d 0 ∧ answers (.ccancel a d l) s d 1) ∧
    (∀ c, s.copyById k pid = some c → (∀ e ∈ s.dist.copies, e.id = c.id → e = c) →
      let w := (c.parts.filter isWaiting).length
      answers (.copyq a d l) s d ((if c.requested = false then 1 else if w = 0 then 2 else 3) + 16 * min w 15 + 256 * (s.partsLeft c % 2 ^ 32)) ∧
      copyDoes (.ccancel a d l) s d 0 (fun t => ∀ e, t.copyAt c.id = some e → e.cancelled = true ∧ ∀ p ∈ e.parts, (p.ph = .todo → s.sharesLock c p = true) ∧ isWaiting p = false) ∧
      (c.landed = false → (∀ p ∈ c.parts, p.ph = .todo ∧ s.sharesLock c p = false) → copyDoes (.ccancel a d l) s d 0 fun t => t.copyAt c.id = none ∧
        (c.flag 3 = true → ∃ m, t.dist.hw = s.dist.hw ++ [m] ∧ m.dst.toNat = Machine.bytesAt c.block 24 4 ∧ m.payload = sealed [BitVec.ofNat 64 (pid + 2 * 2 ^ 16), BitVec.ofNat 64 c.bytes]))))

namespace Sys2Proof.Claims

/-- The elements that parts cover, in order. -/
def covered (ps : List CopyPart) : List Nat := ps.flatMap fun p => (List.range p.count).map (p.first + ·)
/-- Where element i of a part goes at home: its granule and its lowest bit there; none for an element that is not written. -/
def goesTo (s : State) (c : Copy) (p : CopyPart) (i : Nat) : Option (Nat × Nat) := match c.dstAt (p.first + i) with
  | some (va, nib) => match s.copyXlat c va.toNat with
    | .ok x => some (x.pa / 8, 8 * (va.toNat % 8) + 4 * nib)
    | .error _ => none
  | none => none

end Sys2Proof.Claims

/-- COPY_REQUEST divides a copy into parts that cover its image once and in order (R327). COPY_PART of a part that fails a check makes it wait and sends COPYFAULT to mb7 of the issuer (R331); of one that goes to LM it reads
the data; of one that goes to global memory it gives each destination element its source element's value and leaves every other granule (R328, R329). COPY_LANDING of the last part without a transform or swizzle
puts each element in the image at the destination's window, and the copy ends, or awaits its follow-on (R330, R333). COPYF_FOLLOWON of a load begins it on the destination's array and ends the copy (R334). -/
def Obligations.CopyEventResults : Prop :=
  (∀ (id : Nat) (s : State) (c : Copy), s.copyAt id = some c → c.requested = false →
    (∀ q, q < c.elems → s.xlatWaits c (c.srcAt q) = false ∧ s.xlatWaits c (c.dstAt q) = false) →
    ∃ t e, exec (.copyRequest id) s = .next t ∧ t.copyAt id = some e ∧ e.requested = true ∧ (∀ p ∈ e.parts, p.ph = .todo ∧ p.patch = none) ∧
      covered e.parts = List.range c.elems ∧ t.home = s.home ∧ t.cores = s.cores) ∧
  (∀ (id part : Nat) (err : Option Bool) (s : State) (c : Copy) (p : CopyPart), s.copyAt id = some c → c.parts[part]? = some p → c.requested = true → p.ph = .todo →
    s.partWaits c p = false →
    (∀ o kind dst va, s.partCheck c p err = some (o, kind, dst, va) → ∃ t e m, exec (.copyPart id part err) s = .next t ∧ t.copyAt id = some e ∧
      e.parts[part]? = some { p with ph := .waiting kind } ∧ t.dist.hw = s.dist.hw ++ [m] ∧ m.dst = mb7 c.addr ∧ m.typ = 0xFFF0 ∧ t.home.mem = s.home.mem ∧ t.cores = s.cores) ∧
    (s.partCheck c p err = none → ((s.srcLines c p ++ s.dstLines c p).any (s.lockedFor id)) = false →
      (∀ l ∈ s.dstLines c p, tget 0 s.home.locks l = 0 → s.midAccess l = false) →
      (c.dstLm = true → ∃ t e, exec (.copyPart id part err) s = .next t ∧ t.copyAt id = some e ∧
        e.parts[part]? = some { p with ph := .moving, data := (List.range p.count).map (s.elemSrc c p) } ∧ t.home.mem = s.home.mem ∧
        ∀ n, (t.core n).m.lm = (s.core n).m.lm ∧ (t.core n).ctxs = (s.core n).ctxs) ∧
      (c.dstLm = false → (∀ i j g, i < p.count → j < p.count → goesTo s c p i = some g → goesTo s c p j = some g → i = j) →
        (∀ i g, i < p.count → goesTo s c p i = some g → g.2 % c.w = 0) →
        ∃ t, exec (.copyPart id part err) s = .next t ∧
          (∀ i g, i < p.count → goesTo s c p i = some g →
            (t.homeGran g.1).1.toNat / 2 ^ g.2 % 2 ^ c.w = (s.elemSrc c p i).1.toNat / 2 ^ c.elemBit p i g.2 % 2 ^ c.w) ∧
          (∀ gr, s.lostAt gr = false → (∀ i g, i < p.count → goesTo s c p i = some g → g.1 ≠ gr) → t.homeGran gr = s.homeGran gr)))) ∧
  (∀ (id part core idx : Nat) (s : State) (c : Copy) (p : CopyPart) (a : Actor), s.copyAt id = some c → c.parts = [p] → part = 0 → p.ph = .moving → p.first = 0 → p.count = c.elems →
    c.dstLm = true → c.srcLm = false → c.landed = false → c.tile = none → recValid c.srcRec = true → c.xf = 0 → recSwz c.srcRec = 0 →
    amState (s.amap c.part c.dact) = 1 → s.actorAt c.part c.dact = some (core, idx) → (s.core core).actor idx = some a → a.stopped = false →
    let at' := a.csr.lo.toNat * 8192 + Machine.bytesAt c.block 20 4
    (s.core core).windowAt a at' (imageBytes c.srcRec) = true → at' % 128 = 0 →
    ∃ t, exec (.copyLanding id part) s = .next t ∧ t.home = s.home ∧
      (∀ q, q < c.elems → ((t.core core).m.lm.gran (at' / 8 + q * c.w / 64)).toNat / 2 ^ (q * c.w % 64) % 2 ^ c.w =
        (p.data.getD q (0, 0)).1.toNat / 2 ^ c.elemBit p q (q * c.w % 64) % 2 ^ c.w) ∧
      (∀ x, x < at' ∨ at' + imageBytes c.srcRec ≤ x → (t.core core).m.lm.byte x = (s.core core).m.lm.byte x) ∧
      (c.fw = 0 ∨ c.cancelled = true → t.copyAt id = none) ∧ (c.fw ≠ 0 → c.cancelled = false → ∃ e, t.copyAt id = some e ∧ e.landed = true)) ∧
  (∀ (id core idx : Nat) (s : State) (c : Copy) (a : Actor) (sp : BitVec 2) (f : Fmt), s.copyAt id = some c → c.landed = true → amState (s.amap c.part c.dact) = 1 →
    followOf c.fw = some (.load sp f) → s.actorAt c.part c.dact = some (core, idx) → (s.core core).actor idx = some a → a.stopped = false → a.csr.asgArr = true → isEave core = false →
    let ta := BitVec.ofNat 64 (Machine.bytesAt c.block 40 8)
    Machine.bytesAt c.block 48 8 = 0 → ta.toNat % 128 = 0 →
    let n := tileBytes f sp.toNat / 8
    readableLm (s.followCtx core idx) ta n →
    ∃ t o, exec (.copyfFollowon id) s = .next t ∧ t.copyAt id = none ∧ o ∈ (t.core core).arr.ops ∧ o.fn = 0 ∧ o.fmt = f ∧ o.sp = sp ∧ o.bank = !(s.core core).arr.act ∧
      o.data = lmGrans (s.followCtx core idx) ta n ∧ o.scales = none)

/-! ## Events: messages, firings, contexts -/

namespace Sys2Proof.Claims

/-- The event happens, and P holds after it. -/
def eventDoes (i : Instr) (s : State) (P : State → Prop) : Prop := ∃ t, exec i s = .next t ∧ P t
/-- A message k to a resident actor a, at index idx of a core, that can be taken up now. -/
structure arrives (s : State) (k : Msg) (core idx : Nat) (a : Actor) : Prop where
  here : s.localTo k = true
  map : amState (s.amap k.part k.dst) = 1
  place : s.placeOf k.part k.dst (s.amap k.part k.dst) = some (core, idx)
  actor : (s.core core).actor idx = some a
  free : a.parking = false
/-- Mailbox mb of an actor holds a message in slot i, ready, its payload moved whole to LM with its seals (R175). -/
def holdsIn (s t : State) (core idx mb i : Nat) (b : Mailbox) (k : Msg) : Prop :=
  (∃ a, (t.core core).actor idx = some a ∧ ((a.mb mb).slot i).st = .ready ∧ ((a.mb mb).slot i).header = k.landedHeader ∧ ((a.mb mb).slot i).weight = k.weight ∧
    ((a.mb mb).slot i).accepted = s.time ∧ ((a.mb mb).slot i).sig = k.sig) ∧
  ∀ j, j < k.payload.length → ((t.core core).m.lm.gran (b.payAt i / 8 + j), (t.core core).m.lm.sealOf (b.payAt i / 8 + j)) = k.payload.getD j (0, 0)
/-- A message without a transform and without tiles, that is not multi-part, of no more payload than its length says. -/
def plainMsg (k : Msg) : Prop := k.xf = 0 ∧ k.tiles = [] ∧ k.multi = false ∧ 8 * k.payload.length ≤ k.len

end Sys2Proof.Claims

/-- MESSAGE_LANDING at a resident actor: a message that fits a handler or deposit lands in its slot, ready, with its payload (R175); one that is refused is listed or backs off, LM unchanged (R181, R182); one that is rejected
is dropped and TYPEREJECT goes to its sender (R184). TAG_REPLY_LANDING writes the tag's LM range (R203); HW_FAULT_MESSAGE_LANDING lands in mb7, or records an overflow with its type, for which MAILBOX_OVERFLOW_TRAP takes MAILBOX
with the fault's type as TINFO1 (R174, R210, R353). Retries fly again, holds expire, parked messages leave, and replay lands the oldest (R187, R364). Of these the model's choices are that a message lands and is ready
in one event (log 20), that a fault message without a slot stays on its way (log 38), and that the parked message itself is kept beside its record in the buffer (log 32). -/
def Obligations.MessageEvents : Prop :=
  (∀ (r : MsgRef) (s : State) (k : Msg) (core idx : Nat) (a : Actor), s.msgOf r = some k → k.st = .flying → k.kind ≠ .reply → k.kind ≠ .fault → s.heldBack k = false → arrives s k core idx a →
    (a.fence = false → ∀ i n, a.fitOf (s.core core) k = .place i n → (a.mb k.mb).kind ≠ 2 → plainMsg k →
      eventDoes (.messageLanding r) s fun t => t.msgOf r = none ∧ t.home = s.home ∧ holdsIn s t core idx k.mb i (a.mb k.mb) k) ∧
    (a.fence = true ∨ (a.fitOf (s.core core) k = .refuse ∧ a.stopped = false) → eventDoes (.messageLanding r) s fun t => (t.core core).m = (s.core core).m ∧ t.home = s.home ∧
      ∃ q, t.msgOf r = some q ∧ q.payload = k.payload ∧ (q.st = .listed ∨ q.st = .backoff (s.time + if k.backoff = 0 then 64 else min 4096 (2 * k.backoff)))) ∧
    (a.fence = false → ∀ n id why, r = .out n id → k.kind = .plain → a.fitOf (s.core core) k = .reject why → eventDoes (.messageLanding r) s fun t => t.msgOf r = none ∧ t.home = s.home ∧
      (t.core core).m = (s.core core).m ∧ ∃ m, t.dist.hw = s.dist.hw ++ [m] ∧ m.typ = 0xFFF4 ∧ m.weight = k.weight ∧ m.dst = mb7 (BitVec.ofNat 32 (k.h 0 32)))) ∧
  (∀ (n id : Nat) (s : State) (k : Msg) (core idx ad lim : Nat) (a : Actor), s.msgOf (.out n id) = some k → k.st = .flying → k.kind = .reply → arrives s k core idx a → plainMsg k →
    let g := tget .free a.tags (k.rank % 16)
    g.out = true → g.bind = some (.range ad lim) → eventDoes (.tagReplyLanding (.out n id)) s fun t => t.msgOf (.out n id) = none ∧
      (∃ b, (t.core core).actor idx = some b ∧ tget .free b.tags (k.rank % 16) = { g with out := false, landed := some k.len, sig := k.sig }) ∧
      ∀ j, j < min k.payload.length (lim / 8) → ((t.core core).m.lm.gran (ad / 8 + j), (t.core core).m.lm.sealOf (ad / 8 + j)) = k.payload.getD j (0, 0)) ∧
  (∀ (id : Nat) (s : State) (k : Msg) (core idx : Nat) (a : Actor), s.msgOf (.hw id) = some k → k.kind = .fault → arrives s k core idx a →
    (∀ i n, a.faultFit = .place i n → plainMsg k → k.len ≤ (a.mb 7).z → eventDoes (.hwFaultMessageLanding id) s fun t => t.msgOf (.hw id) = none ∧ holdsIn s t core idx 7 i (a.mb 7) k) ∧
    (a.faultFit = .refuse → a.stopped = false → (∀ o ∈ (s.core core).overflow, ¬ (o.actor = idx ∧ o.msg = id)) →
      eventDoes (.hwFaultMessageLanding id) s fun t => (t.core core).overflow = (s.core core).overflow ++ [⟨idx, id, k.typ, false⟩] ∧ t.dist = s.dist)) ∧
  (∀ (core k : Nat) (s : State) (o : Overflow), (s.core core).overflow.find? (fun o => !o.taken) = some o → (s.core core).freeCtx = some k → ((s.core core).ctx k).trap.tact = false →
    eventDoes (.mailboxOverflowTrap core) s fun t =>
      let y := (t.core core).ctx k
      y.mbTrap = true ∧ y.trap.pl = true ∧ y.trap.tact = true ∧ y.trap.tcode.toNat % 256 = 0x15 ∧ y.trap.tinfo0 = 4 ∧ y.trap.tinfo1 = BitVec.ofNat 64 o.typ ∧ y.trap.tpc = BitVec.allOnes 64 ∧
        (o.msg, true) ∈ (t.core core).overflow.map (fun q => (q.msg, q.taken)) ∧ y.trap.actsel = BitVec.ofNat 4 o.actor ∧ y.pc = BitVec.ofNat 64 (2 * (s.core core).tvec.toNat) ∧ (t.core core).m = (s.core core).m) ∧
  (∀ (r : MsgRef) (s : State) (k : Msg), s.msgOf r = some k →
    (k.st = .listed → (∀ core idx a, s.actorAt k.part k.dst = some (core, idx) → (s.core core).actor idx = some a → k.core ∉ (a.mb k.mb).waiting) →
      (s.actorAt k.part k.dst = none → amState (s.amap k.part k.dst) ≠ 2) →
      eventDoes (.retrySignal r) s fun t => t.msgOf r = some { k with st := .flying }) ∧
    (∀ due, k.st = .backoff due → due ≤ s.time → eventDoes (.retryBackoffExpiry r) s fun t => t.msgOf r = some { k with st := .flying }) ∧
    (k.st = .flying → s.localTo k = true → s.heldBack k = false → s.actorAt k.part k.dst = none → amState (s.amap k.part k.dst) = 2 →
      s.parkLocked (s.amap k.part k.dst) (s.parkTail (s.amap k.part k.dst)) k.recordLen = false →
      eventDoes (.parkAppend r) s fun t => if (s.parkAppend (s.amap k.part k.dst) k).isSome = true then t.msgOf r = none ∧ ∃ n, (n, k) ∈ t.dist.parked else
        ∃ q, t.msgOf r = some q ∧ q.st = .backoff (s.time + if k.backoff = 0 then 64 else min 4096 (2 * k.backoff)))) ∧
  (∀ (core idx mb holder : Nat) (s : State) (a : Actor) (h : Nat × Nat × Nat), (s.core core).actor idx = some a →
    (a.mb mb).holds.find? (fun h => h.2.1 = holder && h.2.2 ≤ s.time) = some h → a.fence = true ∨ (a.mb mb).waiting = [] →
    eventDoes (.slotHoldExpiry core idx mb holder) s fun t => ∃ b, (t.core core).actor idx = some b ∧ (b.mb mb).holds = (a.mb mb).holds.erase h ∧ (b.mb mb).slots = (a.mb mb).slots) ∧
  (∀ (core idx i n : Nat) (s : State) (a : Actor) (m : Msg), (s.core core).actor idx = some a → a.fence = true →
    s.parkLocked (s.amap a.part a.addr) (s.parkHead (s.amap a.part a.addr)) 4096 = false → s.parkFirst (s.amap a.part a.addr) a = some m → m.kind = .plain →
    a.fitOf (s.core core) { m with core := 2 ^ 16 } = .place i n → (a.mb m.mb).kind ≠ 2 → plainMsg m →
    eventDoes (.parkReplayRecord core idx) s fun t => holdsIn s t core idx m.mb i (a.mb m.mb) m)

namespace Sys2Proof.Claims

/-- The context entered TRAP with a code and information for an instruction at pc (R350). -/
def trapped (y : Ctx) (c : Core) (code : Nat) (i0 i1 pc : Word) : Prop :=
  y.trap.pl = true ∧ y.trap.tact = true ∧ y.trap.tcode.toNat % 256 = code ∧ y.trap.tinfo0 = i0 ∧ y.trap.tinfo1 = i1 ∧ y.trap.tpc = pc ∧ y.pc = BitVec.ofNat 64 (2 * c.tvec.toNat)

end Sys2Proof.Claims

/-- FIRING_SELECTION starts the picked message in the lowest free context with g1 to g5 as R176 gives them, every other register zero, the PC at ENTRY, and its weight added to W. AGE_EXPIRY raises the oldest message
(R179). BUDGET_EXPIRY traps BUDGET with the budget and the cycles used (R180): TIME less entry less the time away, an inference (log 16). VARIABLE_LATENCY_RESULT writes the awaited register, unless a younger result has
issued for it (R55, R56), which is then not written, an inference too (log 19). WAITW_TIMEOUT marks the wait expired (R233). An illegal encoding traps ILLEGAL with
the value of its failing field, the word and the cause (R59). -/
def Obligations.FiringAndContextEvents : Prop :=
  (∀ (core k i : Nat) (s : State) (x : Cand) (a : Actor), (s.core core).freeCtx = some k → (s.core core).pick s.time = some x → x.slot = some i → (s.core core).actor x.idx = some a →
    let b := a.mb x.mb
    let m := b.slot i
    eventDoes (.firingSelection core) s fun t =>
      let y := (t.core core).ctx k
      (∀ n, n < 32 → y.regs.gv n = (match n with
        | 1 => BitVec.ofNat 64 (b.payAt i)
        | 2 => BitVec.ofNat 64 (m.header.toNat / 2 ^ 64 % 2 ^ 13)
        | 3 => BitVec.ofNat 64 (m.header.toNat % 2 ^ 32)
        | 4 => BitVec.ofNat 64 (x.mb + i * 256)
        | 5 => BitVec.ofNat 64 (m.header.toNat / 2 ^ 32 % 2 ^ 64)
        | _ => 0)) ∧ (∀ n, 1 ≤ n → n < 6 → y.regs.gsl n = sealFn (y.regs.gv n)) ∧ (∀ n, y.regs.vv n = 0) ∧
      y.pc = BitVec.ofNat 64 b.entry ∧ y.fpx = 0 ∧ y.loops = [] ∧ y.rspTop = a.csr.rspBase ∧ y.rs = m.sig.getD .empty ∧
      (∃ f, y.firing = some f ∧ f.actor = x.idx ∧ f.mb = x.mb ∧ f.weight = m.weight ∧ f.header = m.header ∧ f.slots = (List.range (max 1 m.span)).map (i + ·)) ∧
      (∃ c, (t.core core).actor x.idx = some c ∧ ((c.mb x.mb).slot i).st = .firing ∧ c.csr.w = (a.csr.w + m.weight) % 2 ^ 64) ∧ (t.core core).m = (s.core core).m ∧ t.home = s.home) ∧
  (∀ (core idx mb : Nat) (s : State) (a : Actor) (e : Nat × Slot), (s.core core).actor idx = some a → (a.mb mb).oldest = some e → a.csr.age ≠ 0 → e.2.raised = false →
    a.csr.age.toNat < s.time - e.2.accepted →
    eventDoes (.ageExpiry core idx mb) s fun t => ∃ c, (t.core core).actor idx = some c ∧ (c.mb mb).slot e.1 = { e.2 with raised := true }) ∧
  (∀ (core ctx : Nat) (s : State) (f : Firing) (a : Actor),
    let x := (s.core core).ctx ctx
    x.firing = some f → (s.core core).actor f.actor = some a → x.trap.pl = false → x.trap.tact = false → x.halted = false → x.dead = false → a.csr.hbudget ≠ 0 →
    let used := s.time - f.entry - f.away
    a.csr.hbudget.toNat < used → eventDoes (.budgetExpiry core ctx) s fun t =>
      trapped ((t.core core).ctx ctx) (s.core core) 0x0E (BitVec.ofNat 64 a.csr.hbudget.toNat) (BitVec.ofNat 64 used) x.pc ∧
        ((∀ e ∈ x.varp, e.vector = none) → ((t.core core).ctx ctx).regs = x.regs) ∧ (t.core core).m = (s.core core).m ∧ t.cur = s.cur ∧ t.curCtx = s.curCtx) ∧
  (∀ (core ctx id : Nat) (s : State) (v : VarRes) (r : Vec × VSeals),
    let x := (s.core core).ctx ctx
    x.varp.find? (·.id == id) = some v → v.res = some r → eventDoes (.variableLatencyResult core ctx id) s fun t =>
      let y := (t.core core).ctx ctx
      y.regs = (if v.shadowed = true then x.regs else x.regs.put v.reg r.1 r.2) ∧ y.varp = x.varp.filter (·.id != id) ∧
        y = { x with regs := y.regs, varp := y.varp, pend := if v.shadowed = true then y.pend else x.pend } ∧ (t.core core).m = (s.core core).m) ∧
  (∀ (core ctx m : Nat) (s : State),
    let x := (s.core core).ctx ctx
    x.waitw = some m → 2 ≤ m → m ≤ s.time + 2 → eventDoes (.waitwTimeout core ctx) s fun t => (t.core core).ctx ctx = { x with waitw := some 0 } ∧ (t.core core).m = (s.core core).m) ∧
  (∀ (e : DecodeError) (w : BitVec 32) (half : Bool) (s : State) (v : Nat), e.vals = [v] → s.x.trap.tact = false →
    eventDoes (.illegalEncoding e w half) s fun t =>
      trapped t.x s.c 0x01 (BitVec.ofNat 64 v) (BitVec.ofNat 64 ((if half = true then w.toNat % 2 ^ 16 else w.toNat) * 2 ^ 32 + e.cause.toNat)) s.x.pc ∧
        ((∀ e ∈ s.x.varp, e.vector = none) → t.x.regs = s.x.regs) ∧ t.c.m = s.c.m ∧ t.home = s.home)

/-! ## Events: memory and streams -/

namespace Sys2Proof.Claims

/-- A merge of bytes into a granule whose seal and the data's are good gives the merged granule with a fresh seal, else with a poison seal (R44, R94). -/
def mergedAs (old : Word × Byte) (w : GWrite) (v : Word) (sl : Byte) : Prop :=
  v = mergeBytes old.1 w.data w.mask ∧ sl = if syn w.data w.sl = 0 ∧ syn old.1 old.2 = 0 then sealFn v else sealFn v ^^^ 0xA5
/-- Granule g is the next that load f takes: one at each event, in an order that Config names (R237). -/
def nextRead (s : State) (f : Far) (g : Nat) : Prop := f.rest[Config.victim s.draws % f.rest.length]? = some g
/-- One of the granules that remain of the request f was performed at its home, or completed as a memory error where ok fails (R85, R96, R237). -/
def performed (s t : State) (core : Nat) (f : Far) (ok : Nat → Prop) : Prop := match f.kind with
  | .load _ | .freq _ => f.rest ≠ [] → t.home.mem = s.home.mem ∧ ∃ g ∈ f.rest, ∃ v : Word × Byte,
      (ok g → s.lostAt g = false → v = s.homeGran g) ∧ (¬ ok g ∨ s.lostAt g = true → v.2 = sealFn v.1 ^^^ 0xA5) ∧
      let f' := { f with got := tins f.got g v }
      (t.core core).farOf f.id = some { f' with reply := if f'.rest = [] then some f'.read else none }
  | .write => f.writes ≠ [] → ∃ i w, f.writes[i]? = some w ∧ (f.writes.length ≤ 1 → (t.core core).farOf f.id = none) ∧
      (1 < f.writes.length → (t.core core).farOf f.id = some { f with writes := f.writes.eraseIdx i }) ∧
      (¬ ok w.gr → t.home.mem = s.home.mem) ∧
      (ok w.gr → s.lostAt w.gr = false → (∀ g, g ≠ w.gr → s.lostAt g = false → t.homeGran g = s.homeGran g) ∧
        (w.mask = 0xFF → t.homeGran w.gr = (w.data, w.sl)) ∧ (w.mask ≠ 0xFF → mergedAs (s.homeGran w.gr) w (t.homeGran w.gr).1 (t.homeGran w.gr).2))
  | _ => True
/-- Bank of granule g of cluster cache k has room for a line (R84). -/
def roomInBank (s : State) (k g : Nat) : Prop := (bankLines (s.cluster k).cache (bankOf g)).length < 1024
/-- Granule g as the cache old held it, or else filled with w, clean. -/
def filledAs (old new : Tab Line) (g : Nat) (w : Word × Byte) : Prop :=
  ∃ l, cacheAt new g = some l ∧ (∀ o, cacheAt old g = some o → l = o) ∧ (cacheAt old g = none → l.val = w.1 ∧ l.sl = w.2 ∧ l.dirty = false)

end Sys2Proof.Claims

/-- STORE_QUEUE_DRAIN of an entry whose turn it is sends a direct store to its home, or puts one of its granules, dirty and with its seal, in the core cache, or merges a partial one that hits there (R83, R94).
HOME_FILL_REQUEST fills a wanted granule from home and keeps a valid one; WRITE_BACK_ARRIVAL moves the dirty granules of a line out and drops it (R83, R84). LOAD_REPLY takes a granule for a miss, from the core cache or
its fill, and with the last one, or the reply of a far load, writes the awaited register; a prefetch only ends (R87, R97). Accesses at home, on another device and of FREQ read one granule or write one, or complete it as
a memory error, and reply with the last (R85, R96). That an access to a home that takes no part, or to a frame refused where it lies, completes so is an inference (logs 69 and 17). PAGE_SWAP exchanges two frames' places,
line by line, and no contents (R340), and counts event 4 for the accesses that begin to wait (R375). -/
def Obligations.MemoryEvents : Prop :=
  (∀ (core id : Nat) (s : State) (e : StoreEntry), (s.core core).m.stores.find? (fun e => e.id = id) = some e → (s.core core).canDrain e = true →
    (e.direct = true → eventDoes (.storeQueueDrain core id) s fun t =>
      (t.core core).m.stores = (s.core core).m.stores.filter (fun f => f.id != id) ∧ t.home = s.home ∧ (t.core core).m.lm = (s.core core).m.lm ∧
      ∃ f, (t.core core).m.far = (s.core core).m.far ++ [f] ∧ f.kind = .write ∧ f.writes = e.writes ∧ f.ctx = e.ctx ∧ f.atHome = true) ∧
    (∀ i w, e.direct = false → i = Config.victim s.draws % e.writes.length → e.writes[i]? = some w → s.locked w.gr = false →
      let old := (s.core core).m.cache
      let way := wayFor old (s.core core).m.open' (s.draws + 1) w.gr
      s.roomBlocked core way w.gr = false → (w.mask ≠ 0xFF → inCache old w.gr = true) →
      eventDoes (.storeQueueDrain core id) s fun t => (t.core core).m.lm = (s.core core).m.lm ∧ ((∀ g ∈ old, inPlace old way w.gr g.1 = false) → t.home = s.home) ∧
        (t.core core).m.stores = (s.core core).m.stores.filterMap (fun f =>
          if f.id = id then (if f.writes.length ≤ 1 then none else some { f with writes := f.writes.eraseIdx i }) else some f) ∧
        ∃ l, cacheAt (t.core core).m.cache w.gr = some l ∧ l.dirty = true ∧ (w.mask = 0xFF → l.val = w.data ∧ l.sl = w.sl) ∧
          (∀ o, w.mask ≠ 0xFF → cacheAt old w.gr = some o → mergedAs (o.val, o.sl) w l.val l.sl))) ∧
  (∀ (dst pa : Nat) (ev : List Nat) (s : State),
    let gr := pa / 8
    s.locked gr = false → s.lostAt gr = false →
    (∀ i, dst < 64 → i < 16 → s.wants (16 * dst + i) gr = true → (∀ j, j < i → s.wants (16 * dst + j) gr = false) →
      s.denied (s.core (16 * dst + i)).partNo (8 * gr) = false → s.fillBehind (16 * dst + i) gr = false → s.noRoom dst [gr] = false →
      eventDoes (.homeFillRequest dst pa ev) s fun t => filledAs (s.cluster dst).cache (t.cluster dst).cache gr (s.homeGran gr) ∧
        (roomInBank s dst gr → t.home.mem = s.home.mem ∧ ∀ g, g ≠ gr → cacheAt (t.cluster dst).cache g = cacheAt (s.cluster dst).cache g)) ∧
    (∀ way, isEave dst = true → s.wants dst gr = true → s.fillBehind dst gr = false → (s.core dst).wantWay s.draws gr = some way → s.roomBlocked dst way gr = false →
      s.denied (s.core dst).partNo (8 * gr) = false →
      eventDoes (.homeFillRequest dst pa ev) s fun t => filledAs (s.core dst).m.cache (t.core dst).m.cache gr (s.homeGran gr) ∧
        ((∀ g ∈ (s.core dst).m.cache, inPlace (s.core dst).m.cache way gr g.1 = false) → t.home.mem = s.home.mem ∧
          ∀ g, g ≠ gr → cacheAt (t.core dst).m.cache g = cacheAt (s.core dst).m.cache g))) ∧
  (∀ (src line gr : Nat) (ev : List Nat) (s : State) (l : Line),
    (cacheAt (s.core src).m.cache gr = some l → gr / 4 = line → ((s.core src).m.cache.map (·.1)).Nodup → s.cleanHeld src (fun g => g / 4 == line) = false →
      eventDoes (.writeBackArrival src true line ev) s fun t => (∀ g, g / 4 = line → cacheAt (t.core src).m.cache g = none) ∧
        (isEave src = false → roomInBank s (clusterOf src) gr → t.home.mem = s.home.mem) ∧
        (isEave src = false → l.dirty = true → ∃ n, cacheAt (t.cluster (clusterOf src)).cache gr = some n ∧ n.val = l.val ∧ n.sl = l.sl ∧ n.dirty = true) ∧
        (isEave src = true → l.dirty = true → s.denied l.part (8 * gr) = false → s.lostAt gr = false → t.homeGran gr = (l.val, l.sl))) ∧
    (cacheAt (s.cluster src).cache gr = some l → gr / 32 = line → ((s.cluster src).cache.map (·.1)).Nodup → s.dirtyLocked (s.cluster src).cache (fun g => g / 32 == line) = false →
      s.denied l.part (8 * gr) = false → s.lostAt gr = false →
      eventDoes (.writeBackArrival src false line ev) s fun t => (∀ g, g / 32 = line → cacheAt (t.cluster src).cache g = none) ∧
        (l.dirty = true → t.homeGran gr = (l.val, l.sl)))) ∧
  (∀ (core id : Nat) (s : State) (f : Far) (e : VarRes), (s.core core).farOf id = some f →
    let x := (s.core core).ctx f.ctx
    let cache := (s.core core).m.cache
    let written := fun (l : List (Word × Byte)) (t : State) => (t.core core).farOf id = none ∧ t.home = s.home ∧ (t.core core).m.lm = (s.core core).m.lm ∧
      ((t.core core).ctx f.ctx).regs = (if e.shadowed = true then x.regs else x.regs.put e.reg (loadValue f.pa f.size l).1 (loadValue f.pa f.size l).2) ∧
      ((t.core core).ctx f.ctx).varp = x.varp.filter (·.id != id)
    (∀ i, f.kind = .load i → x.varp.find? (·.id == id) = some e →
      (∀ v, f.direct = true → f.reply = some v → eventDoes (.loadReply core id) s (written v)) ∧
      (∀ g l, f.direct = false → (s.core core).behind f = false → nextRead s f g →
        let here := fun (h : Nat) => (cacheAt cache h).or (if isEave core = true then none else cacheAt (s.cluster (clusterOf core)).cache h)
        here g = some l → ((∀ h ∈ lineOf g, inCache cache h = true) ∨
          (isEave core = false ∧ (∀ h ∈ lineOf g, (here h).isSome = true) ∧ ∀ q ∈ cache, q.2.dirty = true → setOf q.1 ≠ setOf g ∨ q.1 / 4 = g / 4)) →
        let f' := { f with got := tins f.got g (l.val, l.sl) }
        (f'.rest = [] → eventDoes (.loadReply core id) s (written f'.read)) ∧
        (f'.rest ≠ [] → eventDoes (.loadReply core id) s fun t => (t.core core).farOf id = some f' ∧ (t.core core).ctxs = (s.core core).ctxs ∧ t.home = s.home))) ∧
    (∀ b, f.kind = .prefetch b → eventDoes (.loadReply core id) s fun t => (t.core core).farOf id = none ∧ (t.core core).ctxs = (s.core core).ctxs ∧
      ((b = true ∨ ∀ q ∈ cache, q.2.dirty = false) → t.home = s.home))) ∧
  (∀ (core id : Nat) (s : State) (f : Far) (ev : List Nat) (b : Bool), (s.core core).farOf id = some f → f.reply = none → (∀ g ∈ granulesOf f.pa f.size, s.locked g = false) →
    (s.core core).behind f = false →
    let mine := fun (g : Nat) => s.denied f.part (8 * g) = false
    (f.kind.plain = true → f.direct = true →
      (f.remote = false → eventDoes (.homeDirectAccess core id b ev) s fun t => performed s t core f fun g => b = false ∧ mine g) ∧
      (f.remote = true → (s.core core).onLink f = false →
        eventDoes (.remoteDeviceAccess core id b) s fun t => performed s t core f fun g => b = true ∧ s.linkUp (devOf f.pa) = true ∧ mine g)) ∧
    (∀ n, f.kind = .freq n → (s.core core).onLink f = false → eventDoes (.freqReadAtHome core id b) s fun t => performed s t core f fun g => b = false ∧ mine g)) ∧
  (∀ (frame other : Nat) (s : State) (r : Fratre), s.power.record = some r → s.hasCap = true → frame < 5 * 2 ^ 26 → s.slotOfFrame frame ≠ 0 →
    r.threshold < tget 0 s.home.hits (s.ownFrame frame) → other < 5 * 2 ^ 26 → other % 2 ^ 26 = frame % 2 ^ 26 → s.slotOfFrame other = 0 →
    (∀ f, f < 5 * 2 ^ 26 → f % 2 ^ 26 = frame % 2 ^ 26 → s.slotOfFrame f = 0 → f = other) →
    (∀ f ∈ [frame, other], tget 0 s.home.locks (32 * s.ownFrame f) = 0 ∧ s.served (1024 * s.ownFrame f) = true ∧ s.midAccess (32 * s.ownFrame f) = false ∧ ∀ w ∈ s.home.swaps, w.far ≠ f ∧ w.near ≠ f) →
    eventDoes (.pageSwap frame) s fun t => t = { s.countWaits [32 * s.ownFrame frame, 32 * s.ownFrame other] with home := { s.home with swaps := s.home.swaps ++ [⟨frame, other, 1⟩] } }) ∧
  (∀ (frame : Nat) (s : State) (w : Swap), s.home.swaps.find? (fun w => w.far = frame) = some w →
    (w.next < 32 → (∀ f ∈ [w.far, w.near], tget 0 s.home.locks (32 * s.ownFrame f + w.next) = 0 ∧ s.midAccess (32 * s.ownFrame f + w.next) = false) → eventDoes (.pageSwap frame) s fun t =>
      t = { s.countWaits [32 * s.ownFrame w.far + w.next, 32 * s.ownFrame w.near + w.next] with home := { s.home with swaps := s.home.swaps.map fun v => if v = w then { w with next := w.next + 1 } else v } }) ∧
    (32 ≤ w.next → w.far ≠ w.near → eventDoes (.pageSwap frame) s fun t => t.slotOfFrame w.far = 0 ∧ t.slotOfFrame w.near = s.slotOfFrame w.far ∧ w ∉ t.home.swaps ∧
      t.home.mem = s.home.mem ∧ t.cores = s.cores ∧ ∀ f, f ≠ w.far → f ≠ w.near → t.slotOfFrame f = s.slotOfFrame f))

namespace Sys2Proof.Claims

/-- A stream of slot k that performs its elements one after the other by itself: affine, assigned, not bound by another. -/
structure performs (s : State) (core k : Nat) (t : Stream) : Prop where
  slot : (s.core core).stream k = t
  running : t.ph = .running
  affine : t.d.indir = false
  owner : ((s.core core).slotOwner k).isSome = true
  free : (s.core core).binder k = none
/-- The element of address q of stream t in slot k can be reached where the stream is (R152, R161). -/
def reachable (s : State) (core k : Nat) (t : Stream) (q : Word × Nat) (wr : Bool) (x : Xlat) (u : State) : Prop :=
  s.place core k q.1 wr = some (.ok x, u) ∧ s.placed t x = true ∧ s.locked (x.pa / 8) = false
/-- Granule gr at home once the stores that the caches of a core and its cluster hold of it are there (R244, R250). -/
def settled (s : State) (core gr : Nat) : Word × Byte := (s.dropCopies core [gr]).homeGran gr
/-- Slot k halted at element e, and STREAMFAULT with its slot, the kind, the element, its address and, for a memory error, the home is sent to mb7 of the slot's owner (R161). -/
def faulted (s w : State) (core k kind e : Nat) (va : Word) (home : Nat) : Prop :=
  ((w.core core).stream k).ph = .halted ∧ ((w.core core).stream k).halt = some e ∧ w.home.mem = s.home.mem ∧
  ∀ i a, (s.core core).slotOwner k = some (i, a) → ∃ m, w.dist.hw = s.dist.hw ++ [m] ∧ m.typ = 0xFFF1 ∧ m.dst = mb7 a.addr ∧ m.part = a.part ∧
    m.payload.map (·.1) = [BitVec.ofNat 64 (k + kind * 2 ^ 8 + ((s.core core).stream k).loc.toNat * 2 ^ 12), BitVec.ofNat 64 e, va, BitVec.ofNat 64 (if kind = 3 then home else 0)]
/-- n elements of slot k are passed: the frontier, and at the core its record, have moved on (R146). -/
def passed (s t : State) (core k n : Nat) : Prop :=
  let x := (s.core core).stream k
  let y := (t.core core).stream k
  y.f = x.f + n ∧ y.frec = (if x.loc = 0 then x.f + n else x.frec) ∧ y.d = x.d ∧ y.ph = x.ph
/-- The next element of an update stream with one operand was read and its result written at home (R133, R159). -/
def updated (s t u : State) (core k : Nat) (x : Stream) (q : Word × Nat) (gr : Nat) : Prop :=
  let old := u.homeGran gr
  let v := x.d.apply (rawElem x.d old.1 q.1 q.2) 0
  let r := bitMerge (settled u core gr) (syn old.1 old.2) (bitOf q.1 q.2) x.d.bits v.1
  t.homeGran gr = (r.1, r.2.1) ∧ passed s t core k 1 ∧ ((t.core core).stream k).flags = x.flags ||| v.2

end Sys2Proof.Claims

/-- STREAM_ELEMENT of an affine stream whose next element can be reached where it runs: a source takes the granule from home into its buffer; a drain writes the held element, or the whole granule, at home; an update reads
its element in one event, and in another writes the result of its operation at home, and the frontier moves on; SUMR only adds (R133, R141, R154, R159, R247). One that does not translate halts, and STREAMFAULT is sent
to the owner's mb7 with slot, kind, element and address (R161). An indirect stream takes the next value of its IDX stream: its elements then lie at the pattern from base + x ts, and a null index gives none (R131). An ADD2
update reads the second stream's element of the same index, then writes the sum; a fault there halts both (R133, R161). NBU_ROW_OPERATION of one element does the whole of it in the NBU (R153). STREAM_MOVE sets the location and
keeps the frontier (R147). STREAM_PATCH_ARRIVAL performs one granule of its store at home, and is gone with the last (R156, R237). What the core's and its cluster's caches hold dirty of a granule that is written so is at
home before, and they drop it (R244, R250). FRONTIER_ACK brings the record one element closer, the model's choice (log 24; R146 says only that acknowledgements bring it). -/
def Obligations.StreamEventResults : Prop :=
  (∀ (core k : Nat) (s : State) (t : Stream), performs s core k t → (t.loc = 3 → s.nbuOk core k t.locId = true) →
    (∀ m, t.d.dir = .src → (s.core core).total t = some m → t.read < m → (s.core core).m.patches = [] →
      let q := t.d.addr t.d.base t.read
      (∀ x u, t.loc ≠ 3 → reachable s core k t q false x u → eventDoes (.streamElement core k false) s fun w => w.home.mem = s.home.mem ∧
        ∃ tlb, (w.core core).stream k = { t with tlb := tlb, read := t.read + 1, buf := t.buf ++ [⟨t.read, BitVec.ofNat 64 q.2, (u.homeGran (x.pa / 8)).1, (u.homeGran (x.pa / 8)).2, q.1, false⟩] }) ∧
      (∀ n u, t.loc ≠ 3 → s.place core k q.1 false = some (.error n, u) → eventDoes (.streamElement core k false) s fun w => faulted s w core k n.1 t.read q.1 n.2) ∧
      (∀ x u, t.loc ≠ 3 → reachable s core k t q false x u → eventDoes (.streamElement core k true) s fun w => faulted s w core k 3 t.read q.1 (s.homeEave x.pa))) ∧
    (∀ e x u, t.loc ≠ 3 → t.d.dir = .drn → t.skipLeft t.f = 0 → t.buf.find? (·.e == t.f) = some e → reachable s core k t (t.d.addr t.d.base t.f) true x u →
      let q := t.d.addr t.d.base t.f
      (t.moveRun ≠ 0 → eventDoes (.streamElement core k false) s fun w => w.homeGran (x.pa / 8) = (e.gr, e.sl) ∧ passed s w core k t.moveRun ∧
        inCache (w.core core).m.cache (x.pa / 8) = false) ∧
      (t.moveRun = 0 → eventDoes (.streamElement core k false) s fun w =>
        let v := t.d.drain e.val.toNat
        let r := bitMerge (settled u core (x.pa / 8)) (syn e.gr e.sl) (bitOf q.1 q.2) t.d.bits v.1
        w.homeGran (x.pa / 8) = (r.1, r.2.1) ∧ passed s w core k 1 ∧ inCache (w.core core).m.cache (x.pa / 8) = false ∧ ((w.core core).stream k).flags = t.flags ||| v.2)) ∧
    (∀ x u, t.d.dir = .upd → t.half = none → t.f < t.g → t.skipLeft t.f = 0 → (s.core core).patchAhead k t.f = false → (t.d.op = 8 → s.secondPlaced core t = true) → reachable s core k t (t.d.addr t.d.base t.f) (t.d.op != 7) x u →
      let q := t.d.addr t.d.base t.f
      let old := u.homeGran (x.pa / 8)
      let v := rawElem t.d old.1 q.1 q.2
      (t.d.op ≠ 7 → eventDoes (.streamElement core k false) s fun w => w.home.mem = s.home.mem ∧
        ∃ tlb, (w.core core).stream k = { t with tlb := tlb, half := some ⟨v, syn old.1 old.2, x.pa / 8, q.1, q.2, none⟩ }) ∧
      (t.d.op = 7 → eventDoes (.streamElement core k false) s fun w => w.home.mem = s.home.mem ∧ passed s w core k 1 ∧
        ((w.core core).stream k).acc = (t.d.sum t.acc v).1 ∧ ((w.core core).stream k).flags = t.flags ||| (t.d.sum t.acc v).2) ∧
      (t.loc = 3 → t.d.op ≠ 7 → t.d.op ≠ 8 → eventDoes (.nbuRowOperation core k 1) s fun w => updated s w u core k t q (x.pa / 8))) ∧
    (∀ h, t.d.dir = .upd → t.d.op ≠ 8 → t.half = some h → s.locked h.gr = false → s.lostAt h.gr = false → eventDoes (.streamElement core k false) s fun w =>
      let v := t.d.apply h.v 0
      let r := bitMerge (settled s core h.gr) h.y (bitOf h.va h.nib) t.d.bits v.1
      w.homeGran h.gr = (r.1, r.2.1) ∧ passed s w core k 1 ∧ ((w.core core).stream k).flags = t.flags ||| v.2 ∧ ((w.core core).stream k).half = none) ∧
    (∀ h, t.d.dir = .upd → t.d.op = 8 → t.half = some h → t.d.slv.toNat ≠ k → let j := t.d.slv.toNat
      let v := (s.core core).stream j
      let q := v.d.addr v.d.base v.f
      v.ph = .running → v.d.indir = false →
      (h.second = none → (∀ x u, s.place core j q.1 false = some (.ok x, u) → s.locked (x.pa / 8) = false → (s.core core).m.patches = [] → let g := u.homeGran (x.pa / 8)
          eventDoes (.streamElement core k false) s fun w => w.home.mem = s.home.mem ∧
            (w.core core).stream k = { t with half := some { h with second := some (rawElem v.d g.1 q.1 q.2, syn g.1 g.2) } }) ∧
        (∀ n u, s.place core j q.1 false = some (.error n, u) → (s.core core).binder j = some k →
          eventDoes (.streamElement core k false) s fun w => faulted s w core j n.1 v.f q.1 n.2 ∧ ((w.core core).stream k).ph = .halted ∧ ((w.core core).stream k).halt = some v.f)) ∧
      (∀ y, h.second = some y → s.locked h.gr = false → s.lostAt h.gr = false → eventDoes (.streamElement core k false) s fun w =>
        let a := t.d.apply h.v y.1
        let r := bitMerge (settled s core h.gr) (if h.y ≠ 0 then h.y else y.2) (bitOf h.va h.nib) t.d.bits a.1
        w.homeGran h.gr = (r.1, r.2.1) ∧ passed s w core k 1 ∧ passed s w core j 1))) ∧
  (∀ (core k : Nat) (s : State) (t : Stream) (e : Elem), (s.core core).stream k = t → t.ph = .running → t.d.indir = true → t.d.dir ≠ .idx → ((s.core core).slotOwner k).isSome = true →
    (s.core core).binder k = none → t.loc ≠ 3 → t.skips = [] → t.idx = [] → t.within = 0 → 0 < t.d.per →
    let j := t.d.ixs.toNat
    let ix := (s.core core).stream j
    ix.d.dir = .idx → ix.d.indir = false → t.ixpos < ix.d.per → ix.skips = [] → ix.buf.find? (·.e == t.ixpos) = some e →
    eventDoes (.streamElement core k false) s fun w => let y := (w.core core).stream k
      w.home = s.home ∧ y.f = t.f ∧ y.d = t.d ∧ ((w.core core).stream j).buf = ix.buf.filter (·.e != t.ixpos) ∧
      (ix.d.format = .n32 → e.val.toNat = 0xFFFFFFFF → y.idx = [] ∧ y.ixpos = t.ixpos + 1) ∧
      (ix.d.format ≠ .n32 ∨ e.val.toNat ≠ 0xFFFFFFFF → ∀ n, n < t.d.per → y.addr (t.f + n) = some (t.d.addr (t.d.base + e.val * t.d.ts) n))) ∧
  (∀ (core k : Nat) (loc : BitVec 2) (locId : Nat) (s : State) (t : Stream), performs s core k t → (s.core core).root k = k → t.half = none → t.d.dir ≠ .idx → t.d.op ≠ 8 →
    pinAllows t.pin loc = true → t.loc ≠ loc ∨ t.locId ≠ locId →
    (loc ≠ 0 → ∃ x u, s.place core k (t.d.addr t.d.base (if t.d.dir = .src then t.read else t.f)).1 (t.d.dir != .src && t.d.op != 7) = some (.ok x, u) ∧ s.placed { t with loc := loc, locId := locId } x = true) →
    (loc = 0 → locId = coreNumber core ∧ t.loc ≠ 0 ∧ (s.core core).recallable k = true) → (loc = 1 → locId < 16 ∧ t.loc ≠ 3 ∧ isEave core = false) →
    (loc = 2 → t.loc ≠ 3 ∨ t.locId = locId) → (loc = 3 → t.loc = 2 ∧ t.locId = locId ∧ s.nbuOk core k locId = true) →
    eventDoes (.streamMove core k loc locId) s fun w => ((w.core core).stream k).loc = loc ∧ ((w.core core).stream k).locId = locId ∧ ((w.core core).stream k).f = t.f ∧
      ((w.core core).stream k).g = t.g ∧ ((w.core core).stream k).buf = t.buf ∧ ((w.core core).stream k).d = t.d ∧ ((w.core core).stream k).ph = .running ∧ w.home.mem = s.home.mem) ∧
  (∀ (core id : Nat) (s : State) (p : Patch), (s.core core).m.patches.find? (·.id == id) = some p → (s.core core).patchBehind p = false → p.st.writes ≠ [] → (∀ w ∈ p.st.writes, s.locked w.gr = false) →
    eventDoes (.streamPatchArrival core id) s fun t => ∃ i w, p.st.writes[i]? = some w ∧
      (∀ g, g ≠ w.gr → s.lostAt g = false → t.homeGran g = s.homeGran g) ∧ inCache (t.core core).m.cache w.gr = false ∧
      (s.lostAt w.gr = false → s.denied p.st.part (8 * w.gr) = false → (w.mask = 0xFF → t.homeGran w.gr = (w.data, w.sl)) ∧
        (w.mask ≠ 0xFF → mergedAs (settled s core w.gr) w (t.homeGran w.gr).1 (t.homeGran w.gr).2)) ∧
      (p.st.writes.length ≤ 1 → (t.core core).m.patches = (s.core core).m.patches.filter (·.id != id)) ∧
      (1 < p.st.writes.length → (t.core core).m.patches.find? (·.id == id) = some { p with begun := true, st := { p.st with writes := p.st.writes.eraseIdx i } })) ∧
  (∀ (core k : Nat) (s : State),
    let t := (s.core core).stream k
    t.frec < t.f → eventDoes (.frontierAck core k) s fun w => (w.core core).stream k = { t with frec := t.frec + 1 } ∧ w.home = s.home)

/-- On an idle array owned by the actor with a ready active bank of the right sparsity, a valid rows operand and a tile of no kind or of the mode's kind: MMA and MMAS with A in readable LM, or in a started SRC slot of the format with
enough elements, begin the operation on A as it is at issue and set the tile's kind (R300, R301); MOUTL with a valid list of entries begins likewise, and with an empty list only goes on (R303). MMA_COMPLETE of an
integer operation with clean rows in LM adds to element (r, n) the sum over k of A(r, k) B(k, n), modulo 2^32, leaves the other rows and ends the operation (R38, R300); of one in floating mode it puts there the accumulation
of R38 over the K-groups, and the flags go to the FPX of the issuing context while its firing goes on; of a MOUTL it adds the products of its list. A member with no operation of its own that receives integer rows in LM of an MMA of the lead (R310): where its active bank is ready, of the same format and sparsity, and its tile of the same kind, it adds to element (r, n) of
its own tile the exact sum over its own bank modulo 2^32; where it differs the rows read zero with every column bank poisoned, and a new MATRIXBANK of kind 4 is sent to its owner (R312). Other rows and the lead's tiles
are as before. MMA, MMAS and MOUTL trap in the order of R317: MMA and MMAS from a slot STREAM 0x0C, 0x01, 0x0D, 0x03; then MATRIX 0x03, 0x06 on a member, 0x01, 0x02, 0x05, 0x04; then the first bad granule of A in LM,
or STREAM 0x05 with too few elements; MOUTL 0x03, 0x01, 0x05, the granules, and 0x07 with the index of the first bad entry. -/
def Obligations.MultiplyAndQuadResults : Prop :=
  (
  (∀ (b a : BitVec 5) (f : Fmt) (z : BitVec 1) (l : BitVec 3) (s : State) (k : Actor) (sparse : Bool), arrayIdle s k →
    let i := fun (m : Bool) => if sparse = true then Instr.mmas m b a f z l else .mma m b a f z l
    let c := s.c.arr
    let bk := c.bank c.act
    let n := kRows bk.fmt bk.sp.toNat
    let mode : BitVec 2 := if f.isFloat = false ∧ bk.fmt.isFloat = false then 1 else 2
    bk.ld = .ready → bk.sp.toNat ≤ 2 → (sparse = true ↔ bk.sp ≠ 0) → (c.tile (z == 1)).kind = 0 ∨ (c.tile (z == 1)).kind = mode →
    ∀ r w, rowsOperand ((s.seen l.toNat false).gv b.toNat) r w → (s.seen l.toNat false).clean b.toNat = true →
      (s.readyFor l.toNat false [gR a, gR b] = true → (s.seen l.toNat false).clean a.toNat = true →
        let ga := (s.seen l.toNat false).gv a.toNat
        let len := w * (n * f.bits / 8) / 8
        readableLm s ga len → arrayDoes (i false) s 0 fun e => multiplyBegun c e f (z == 1) r w n none (lmGrans s ga len)) ∧
      (s.readyFor l.toNat false [gR b] = true →
        let slot : BitVec 4 := BitVec.ofNat 4 a.toNat
        ∀ t m, openAs s slot t → t.ph ≠ .opened → t.d.dir = .src → t.bound = false → t.d.regFmt = f → s.c.total t = some m → t.f + w * n ≤ m →
        arrayDoes (i true) s 0 fun e => multiplyBegun c e f (z == 1) r w n (some slot.toNat) [])) ∧
  (∀ (b a : BitVec 5) (f : Fmt) (z : BitVec 1) (l : BitVec 3) (s : State) (k : Actor), arrayIdle s k → s.readyFor l.toNat false [gR a, gR b] = true →
    (s.seen l.toNat false).clean a.toNat = true → (s.seen l.toNat false).clean b.toNat = true →
    let c := s.c.arr
    let bk := c.bank c.act
    let n := kRows bk.fmt bk.sp.toNat
    let ga := (s.seen l.toNat false).gv a.toNat
    let w := (s.seen l.toNat false).gv b.toNat
    let at' := w.toNat / 2 ^ 32 % 2 ^ 20
    let m := w.toNat / 2 ^ 52 % 2 ^ 11
    let entry := fun (j : Nat) => (s.c.m.lm.gran (at' / 8 + (at' % 8 / 4 + j) / 2)).toNat / 2 ^ (32 * ((at' % 8 / 4 + j) % 2)) % 2 ^ 32
    bk.ld = .ready → bk.sp.toNat ≤ 2 → (c.tile (z == 1)).kind ≠ 2 → w.toNat < 2 ^ 63 → w.toNat / 2 ^ 24 % 256 = 0 → at' % 4 = 0 →
    ∀ r q, rowsOperand (BitVec.ofNat 64 (w.toNat % 2 ^ 24)) r q → readableLm s ga (q * (n * f.bits / 8) / 8) →
    (m ≠ 0 → readableLm s (BitVec.ofNat 64 (at' / 8 * 8)) ((at' % 8 + 4 * m + 7) / 8) ∧
      ∀ g ∈ lmGrans s (BitVec.ofNat 64 (at' / 8 * 8)) ((at' % 8 + 4 * m + 7) / 8), syn g.1 g.2 = 0) → (∀ j, j < m → entry j % 512 < n ∧ entry j / 512 % 128 < 96) →
    (m = 0 → arrayDoes (.moutl b a f z l) s 0 fun e => e = c) ∧
    (m ≠ 0 → arrayDoes (.moutl b a f z l) s 0 fun e => ∃ o, e.ops = [o] ∧ o.fn = 4 ∧ o.bank = c.act ∧ o.tile = (z == 1) ∧ o.fmt = f ∧ o.row0 = r ∧ o.count = q ∧ o.next = 0 ∧
      o.len = m ∧ o.data = lmGrans s ga (q * (n * f.bits / 8) / 8) ∧ (e.tile (z == 1)).kind = 1 ∧ (e.tile (z == 1)).z = (c.tile (z == 1)).z ∧ e.b0 = c.b0 ∧ e.b1 = c.b1 ∧
      (outEntries o) = (List.range m).map fun j => (entry j % 512, entry j / 512 % 128, (BitVec.ofNat 16 (entry j / 2 ^ 16)).toInt))) ∧
  (∀ (core : Nat) (s : State) (o : ArrOp), (s.core core).arr.ops = [o] → (s.core core).arr.quadOps = [] → o.fn = 3 → o.slot = none → o.quad = false → o.next = 0 → 0 < o.count → o.listBad = none → o.errs = 0 →
    o.fmt.isFloat = false → ((s.core core).arr.bank o.bank).fmt.isFloat = false → ((s.core core).arr.bank o.bank).pm = 0 → (s.core core).arrayOwner.all (fun k => !k.stopped) = true →
    (∀ g ∈ o.data, syn g.1 g.2 = 0) →
    let b := (s.core core).arr.bank o.bank
    let old := fun (r n : Nat) => tget 0 ((s.core core).arr.tile o.tile).z (96 * r + n)
    ∃ t, exec (.mmaComplete core ⟨0, 0, []⟩) s = .next t ∧ (t.core core).arr.ops = [] ∧ t.home = s.home ∧ (t.core core).m = (s.core core).m ∧
      (∀ i n, i < o.count → n < 96 → tget 0 ((t.core core).arr.tile o.tile).z (96 * (o.row0 + i) + n) =
        BitVec.ofInt 32 ((old (o.row0 + i) n).toNat + rowSum o b i n)) ∧
      (∀ r n, r < o.row0 ∨ o.row0 + o.count ≤ r → n < 96 → tget 0 ((t.core core).arr.tile o.tile).z (96 * r + n) = old r n))
  ) ∧
  (
  ∀ (core : Nat) (s : State) (o : ArrOp), (s.core core).arr.ops = [o] → (s.core core).arr.quadOps = [] → o.slot = none → o.quad = false → o.next = 0 → 0 < o.count → o.listBad = none → o.errs = 0 →
    ((s.core core).arr.bank o.bank).pm = 0 → (s.core core).arrayOwner.all (fun k => !k.stopped) = true → (∀ g ∈ o.data, syn g.1 g.2 = 0) →
    let b := (s.core core).arr.bank o.bank
    let old := fun (r n : Nat) => tget 0 ((s.core core).arr.tile o.tile).z (96 * r + n)
    let gives := fun (P : Nat → Nat → BitVec 32) (fl : Flags) => ∃ t, exec (.mmaComplete core ⟨0, 0, []⟩) s = .next t ∧ (t.core core).arr.ops = [] ∧ t.home = s.home ∧ (t.core core).m = (s.core core).m ∧
      (∀ i n, i < o.count → n < 96 → tget 0 ((t.core core).arr.tile o.tile).z (96 * (o.row0 + i) + n) = P i n) ∧
      (∀ r n, r < o.row0 ∨ o.row0 + o.count ≤ r → n < 96 → tget 0 ((t.core core).arr.tile o.tile).z (96 * r + n) = old r n) ∧
      ∀ x e, o.owner = some (x, e) → ((s.core core).ctx x).firing.map (·.entry) = e → ((t.core core).ctx x).fpx = ((s.core core).ctx x).fpx ||| (o.flags ||| fl)
    (o.fn = 3 → (o.fmt.isFloat = true ∨ b.fmt.isFloat = true) → gives (fun i n => BitVec.ofNat 32 (floatRow o b i n (old (o.row0 + i) n)).1)
      ((rowPositions 0 o.count).foldl (fun x p => x ||| (floatRow o b p.1 p.2 (old (o.row0 + p.1) p.2)).2) 0)) ∧
    (o.fn = 4 → gives (fun i n => BitVec.ofInt 32 ((old (o.row0 + i) n).toNat + listSum o i n)) 0)
  ) ∧
  (
  ∀ (b a : BitVec 5) (f : Fmt) (z : BitVec 1) (l : BitVec 3) (s : State) (k : Actor), owns s k →
    let c := s.c.arr
    let bk := c.bank c.act
    let n := kRows bk.fmt bk.sp.toNat
    let w := (s.seen l.toNat false).gv b.toNat
    let ga := (s.seen l.toNat false).gv a.toNat
    let zi : Word := z.setWidth 64
    let free := ∀ o ∈ c.ops, o.fn ≠ 6
    (∀ (m sparse : Bool), operandsOk s l (if m = true then [b] else [a, b]) →
      let i := if sparse = true then Instr.mmas m b a f z l else .mma m b a f z l
      let slot : BitVec 4 := BitVec.ofNat 4 a.toNat
      let t := s.c.stream slot.toNat
      let mode : BitVec 2 := if f.isFloat = false ∧ bk.fmt.isFloat = false then 1 else 2
      (m = true → (¬ assigned s slot → slotTraps i s slot 0x0C) ∧ (assigned s slot → (t.ph = .closed → slotTraps i s slot 0x01) ∧ (t.ph = .opened → slotTraps i s slot 0x0D) ∧
        (t.ph ≠ .closed → t.ph ≠ .opened → (t.d.dir ≠ .src ∨ t.bound = true) → slotTraps i s slot 0x03))) ∧
      ((m = true → assigned s slot ∧ t.ph ≠ .closed ∧ t.ph ≠ .opened ∧ t.d.dir = .src ∧ t.bound = false) →
        ((¬ ∃ r q, rowsOperand w r q) → matrixTraps i s 0x03 zi) ∧
        ∀ r q, rowsOperand w r q → (c.qm = .member → matrixTraps i s 0x06 zi) ∧ (c.qm ≠ .member →
          (bk.ld ≠ .ready → matrixTraps i s 0x01 zi) ∧ (bk.ld = .ready →
            ((sparse = true ↔ bk.sp = 0) → matrixTraps i s 0x02 zi) ∧ ((sparse = true ↔ bk.sp ≠ 0) →
              ((c.tile (z == 1)).kind ≠ 0 → (c.tile (z == 1)).kind ≠ mode → matrixTraps i s 0x05 zi) ∧
              ((c.tile (z == 1)).kind = 0 ∨ (c.tile (z == 1)).kind = mode →
                (m = true → t.d.regFmt ≠ f → matrixTraps i s 0x04 zi) ∧
                (m = true → t.d.regFmt = f → c.ops = [] → ∀ e, s.c.total t = some e → e < t.f + q * n → bk.sp.toNat ≤ 2 → slotTraps i s slot 0x05) ∧
                (m = false → free → bk.sp.toNat ≤ 2 → rangeTraps i s ga (q * (n * f.bits / 8) / 8) 0))))))) ∧
    (operandsOk s l [a, b] → bk.sp.toNat ≤ 2 →
      let i := Instr.moutl b a f z l
      let at' := w.toNat / 2 ^ 32 % 2 ^ 20
      let m := w.toNat / 2 ^ 52 % 2 ^ 11
      let lo := BitVec.ofNat 64 (at' / 8 * 8)
      let grans := (at' % 8 + 4 * m + 7) / 8
      let entry := fun (j : Nat) => (s.c.m.lm.gran (at' / 8 + (at' % 8 / 4 + j) / 2)).toNat / 2 ^ (32 * ((at' % 8 / 4 + j) % 2)) % 2 ^ 32
      let sound := fun (j : Nat) => syn (s.c.m.lm.gran (at' / 8 + (at' % 8 / 4 + j) / 2)) (s.c.m.lm.sealOf (at' / 8 + (at' % 8 / 4 + j) / 2)) = 0
      let bad := fun (j : Nat) => sound j ∧ (n ≤ entry j % 512 ∨ 96 ≤ entry j / 512 % 128)
      let ok := fun (r q : Nat) => rowsOperand (BitVec.ofNat 64 (w.toNat % 2 ^ 24)) r q ∧ w.toNat < 2 ^ 63 ∧ w.toNat / 2 ^ 24 % 256 = 0 ∧ at' % 4 = 0
      ((¬ ∃ r q, ok r q) → matrixTraps i s 0x03 zi) ∧
      ∀ r q, ok r q → (bk.ld ≠ .ready → matrixTraps i s 0x01 zi) ∧ (bk.ld = .ready → ((c.tile (z == 1)).kind = 2 → matrixTraps i s 0x05 zi) ∧
        ((c.tile (z == 1)).kind ≠ 2 → free → let an := q * (n * f.bits / 8) / 8
          (ga.toNat ≤ at' / 8 * 8 → rangeTraps i s ga an 0 ∧ (readableLm s ga an → m ≠ 0 → rangeTraps i s lo grans 0)) ∧
          (at' / 8 * 8 < ga.toNat → (m ≠ 0 → rangeTraps i s lo grans 0) ∧ ((m ≠ 0 → readableLm s lo grans) → rangeTraps i s ga an 0)) ∧
          (readableLm s ga an → (m ≠ 0 → readableLm s lo grans) → ∀ j, j < m → bad j → (∀ e, e < j → ¬ bad e) → matrixTraps i s 0x07 (BitVec.ofNat 64 j)))))
  ) ∧
  (
  ∀ (core : Nat) (s : State) (q : QuadOp) (o : ArrOp), core % 4 ≠ 0 → (s.core core).arr.ops = [] → (s.core core).arr.quadOps = [q] → q.bank = none → q.told = [] → q.errs = 0 →
    (s.core (core / 4 * 4)).arr.ops = [o] → (s.core (core / 4 * 4)).arr.quadOps = [] → o.id = q.id → o.fn = 3 → o.slot = none → o.listBad = none → q.next = 0 → 0 < o.next → o.next ≤ o.count →
    o.fmt.isFloat = false → (∀ g ∈ o.data, syn g.1 g.2 = 0) →
    let a := (s.core core).arr
    let b := a.bank a.act
    let lb := (s.core (core / 4 * 4)).arr.bank o.bank
    let new := fun (t : State) (r n : Nat) => tget 0 ((t.core core).arr.tile o.tile).z (96 * r + n)
    let rest := fun (t : State) => (∀ r n, r < o.row0 ∨ o.row0 + o.next ≤ r → n < 96 → new t r n = new s r n) ∧ t.home = s.home ∧ (t.core core).m = (s.core core).m ∧
      (o.next = o.count → (t.core core).arr.quadOps = [])
    (b.ld = .ready → b.fmt = lb.fmt → b.sp = lb.sp → (a.tile o.tile).kind = o.kind → b.fmt.isFloat = false → b.pm = 0 →
      eventDoes (.quadMmaReceive core ⟨0, 0, []⟩) s fun t => rest t ∧
        ∀ i n, i < o.next → n < 96 → new t (o.row0 + i) n = BitVec.ofInt 32 ((new s (o.row0 + i) n).toNat + rowSum o b i n)) ∧
    (¬ (b.ld = .ready ∧ b.fmt = lb.fmt ∧ b.sp = lb.sp ∧ (a.tile o.tile).kind = o.kind) → eventDoes (.quadMmaReceive core ⟨0, 0, []⟩) s fun t => rest t ∧
      (∀ i n, i < o.next → n < 96 → new t (o.row0 + i) n = 0 ∧ tget false ((t.core core).arr.tile o.tile).pb (8 * (o.row0 + i) + n / 12) = true) ∧
      ∀ k, (s.core core).arrayOwner = some k → ∃ m, t.dist.hw = s.dist.hw ++ [m] ∧ m.typ = 0xFFF3 ∧ m.dst = mb7 k.addr ∧ m.part = k.part ∧
        (m.payload.map (·.1)) = [BitVec.ofNat 64 (0xFF + (if o.tile = true then 2 ^ 8 else 0) + 4 * 2 ^ 9 + o.row0 % 2 ^ 8 * 2 ^ 12 + o.count * 2 ^ 20 + coreNumber core * 2 ^ 29), o.pc, 0,
          BitVec.ofNat 64 s.time])
  )

/-! ## Events: distributor, host, device -/

/-- LQRSV_READ returns RESERVE and increments it, or all ones (R394). LQTAIL_WRITE commits an index from HEAD to RESERVE and ignores any other. LAUNCH_QUEUE_SETUP enables or disables a queue. DISTRIBUTOR_TAKE_STAGE takes the
record at HEAD (R395). GANG_PLACEMENT of places that satisfy the gang entry makes the members resident and counts the gang (R190, R373), and ends a stage that can never be placed with status 4 (R191). Aging raises a class
once (R190); weight returned is added, and at exactly 2^63 the stage completes (R189). HOST_ACCESS reads or writes at home (R392), is a memory error through a discarded key
slot or at a home that takes no part (R361), or fails whole, changes no byte and tells the host, the model's choice (log 42). The empty list of committed indices of a queue set up anew is an inference (log 41). -/
def Obligations.DistributorAndHostEvents : Prop :=
  (∀ (part q : Nat) (s : State), part < 16 → q < 16 → s.vaBusy part (s.queue part q).cb.toNat 6 = false →
    (s.qTake part q = none → eventDoes (.lqrsvRead part q) s fun t => t = s.tell (.reserved (BitVec.ofNat 64 (2 ^ 64 - 1)))) ∧
    (∀ x, (s.queue part q).enabled = true → s.qReserve part q - s.qFree part q ≠ s.qCount part q → s.distXlat part ((s.queue part q).cb.toNat + 16) true = some x → s.slotGone part x = false → s.served (x.pa / 8) = true →
      eventDoes (.lqrsvRead part q) s fun t => t.host = s.host ++ [.reserved (BitVec.ofNat 64 (s.qReserve part q))] ∧
        t.homeGran (x.pa / 8) = (BitVec.ofNat 64 (s.qReserve part q + 1), sealFn (BitVec.ofNat 64 (s.qReserve part q + 1)))) ∧
    (∀ w : Word,
      let inside := (s.queue part q).enabled = true ∧ s.qHead part q ≤ w.toNat ∧ w.toNat < s.qReserve part q ∧ w.toNat ∉ (s.queue part q).committed
      (inside → eventDoes (.lqtailWrite part q w) s fun t => (t.queue part q).committed = (s.queue part q).committed ++ [w.toNat] ∧ t.home = s.home ∧ t.cores = s.cores) ∧
      (¬ inside → eventDoes (.lqtailWrite part q w) s fun t => t = s)) ∧
    (∀ (cb base : Word) (count : Nat), (s.part part).st = .active →
      eventDoes (.launchQueueSetup part q cb base count false) s (fun t => t.queue part q = { s.queue part q with enabled := false } ∧ t.home = s.home) ∧
      (∀ k, cb.toNat % 64 = 0 → base.toNat % 64 = 0 → 3 ≤ k → k ≤ 16 → count = 2 ^ k → (s.distPa part cb.toNat true).isSome = true → s.vaBusy part cb.toNat 8 = false →
        eventDoes (.launchQueueSetup part q cb base count true) s fun t => t.queue part q = ⟨cb, true, [], []⟩)) ∧
    (∀ r, (s.queue part q).enabled = true → s.qHead part q ∈ (s.queue part q).committed → (s.part part).st = .active → s.record part (s.qSlot part q (s.qHead part q)) 8 512 = some r →
      s.queueBusy part q (s.qHead part q) = false → s.stageLocked part r = false → s.stageBad part r = false → eventDoes (.distributorTakeStage part q) s fun t =>
        t.dist.stages = s.dist.stages ++ [⟨s.dist.next, part, q, s.qHead part q, r, 0, 0, 0, s.time⟩] ∧ s.qHead part q ∉ (t.queue part q).committed)) ∧
  (∀ (key gang : Nat) (places : List Place) (tags : List Nat) (s : State) (t : Stage) (e : GangEntry), s.dist.stages.find? (fun t => t.key = key) = some t → t.waits = true → s.mayPlace t = true →
    s.gangEntry t.part t.record t.placed = some e → (∀ v ∈ s.dist.stages, s.headLocked v = false) →
    (s.placeable t.part e true = false → s.stageBusy key = false → eventDoes (.gangPlacement key gang places tags []) s fun u => u = s.endStage key 4) ∧
    (∀ r, s.placeable t.part e true = true → s.actorRec t.part (bytesAt e 0 8) = some r → gangPlacesOk e places = true → s.tagsOk e places tags = true → s.placesOk t e r places = true →
      gang < 2 ^ 32 → s.gangOf gang = none → (∀ a ∈ (s.part t.part).park.take places.length, s.locked (a / 8) = false) → eventDoes (.gangPlacement key gang places tags []) s fun u =>
        (∃ g, u.dist.gangs = s.dist.gangs ++ [g] ∧ g.id = gang ∧ g.part = t.part ∧ g.stage = key ∧ g.entry = e ∧ g.stopped = false ∧ g.placedAt = s.time ∧
          g.members = places.map fun p => (p.core, p.idx, BitVec.ofNat 32 (s.devNum.toNat * 2 ^ 24 + p.id * 16))) ∧
        (∀ p ∈ places, ∃ a, (u.core p.core).actor p.idx = some a ∧ a.part = t.part ∧ a.gang = gang ∧ a.csr.lo = BitVec.ofNat 7 p.lo ∧ a.code = p.code ∧ a.stopped = false) ∧
        (∃ t', u.dist.stages.find? (fun t => t.key = key) = some t' ∧ t'.placed = t.placed + 1) ∧ u.dist.hw.length = s.dist.hw.length + places.length)) ∧
  (∀ (key : Nat) (s : State) (t : Stage), s.dist.stages.find? (fun t => t.key = key) = some t → t.waits = true → t.raised = 0 → (s.part t.part).aging < s.time - t.taken →
    eventDoes (.stageAgingExpiry key) s fun u => u.dist.stages.find? (fun t => t.key = key) = some { t with raised := 1 } ∧ u.home = s.home ∧ u.cores = s.cores) ∧
  (∀ (id : Nat) (s : State) (r : Nat × Nat × Nat) (t : Stage), s.dist.returns.find? (fun r => r.1 = id) = some r → s.dist.stages.find? (fun t => t.key = r.2.1) = some t →
    (t.sum + r.2.2 ≠ 2 ^ 63 → eventDoes (.weightReturnArrival id) s fun u => u.dist.stages.find? (fun t => t.key = r.2.1) = some { t with sum := t.sum + r.2.2 } ∧
      u.dist.returns = s.dist.returns.filter (fun q => q.1 != id) ∧ u.home = s.home ∧ u.cores = s.cores) ∧
    (t.sum + r.2.2 = 2 ^ 63 → s.stageBusy t.key = false → eventDoes (.weightReturnArrival id) s fun u => u.dist.stages.find? (fun t => t.key = r.2.1) = none)) ∧
  (∀ (part n : Nat) (va : Word) (d : Option (List Byte)) (s : State), (∀ bs, d = some bs → n = bs.length) →
    s.vaBusy part (va.toNat / 8 * 8) ((va.toNat % 8 + n + 7) / 8) = false →
    (s.hostXlats part va.toNat n d.isSome = none → eventDoes (.hostAccess part va n d) s fun t => t = s.tell .accessFault) ∧
    (∀ x, va.toNat % 8 = 0 → n = 8 → s.hostXlats part va.toNat n d.isSome = some [x] → s.denied part x.pa = false → s.denied part (8 * (x.pa / 8)) = false →
      let gr := x.pa / 8
      let gone := s.slotGone part x = true ∨ s.served gr = false
      (d = none → eventDoes (.hostAccess part va n d) s fun t => t.home.mem = s.home.mem ∧ ∃ v : List Byte, t.host = s.host ++ [.read v] ∧ v.length = 8 ∧
        (¬ gone → v = (List.range 8).map fun i => BitVec.ofNat 8 ((if (s.frame (8 * gr)).getLsbD 4 = true then 0 else s.home.mem.gran gr).toNat / 2 ^ (8 * i)))) ∧
      (∀ bs, d = some bs → eventDoes (.hostAccess part va n d) s fun t =>
        let w := BitVec.ofNat 64 (leNat bs)
        (gone → t.home.mem = s.home.mem) ∧ (¬ gone → t.homeGran gr = (w, sealFn w)) ∧ ∀ g, g ≠ gr → s.lostAt g = false → ¬ gone ∨ g / 1024 ≠ gr / 1024 → t.homeGran g = s.homeGran g)))

namespace Sys2Proof.Claims

/-- Memory, cores and the distributor are as before. -/
def onlyPower (s t : State) : Prop := t.home = s.home ∧ t.cores = s.cores ∧ t.dist = s.dist
/-- Partition n becomes p; the other partitions, memory and cores are as before. -/
def partBecomes (s t : State) (n : Nat) (p : Partition) : Prop := t.part n = p ∧ (∀ m, m ≠ n → t.part m = s.part m) ∧ t.home = s.home ∧ t.cores = s.cores

end Sys2Proof.Claims

/-- POWER_ON of a ZL7400-M takes a genuine record, else reports and holds the slates in reset (R400); a ZL7400-P has no record (R1). A function that has passed its test is ready, on a ZL7400-M once a record is verified; an eave
core of the capacity tier never on a ZL7400-P (R1); that a ZL7400-P needs no record and what hasCap holds are inferences (log 18). One that fails is not ready (R401). A bad flit counts a retry; a link over its limit leaves the
ready set (R397, R399). A sample throttles at 105 degrees (R403), its reading kept under the first core of the cluster, an inference (log 22); a ramp window grows by at most an eighth of peak (R404). Partitions go FREE, KEYED, ACTIVE, STOPPING, ERASING, FREE, with their cores, frames and key
slots (R361, R362). The checkpoint is exported under a key unless a stage runs, and imported with that key into owned frames, with what the model has it carry (log 13); the report names record, states and nonce (R402, R405). -/
def Obligations.DeviceEvents : Prop :=
  (∀ (r : Fratre) (g : Bool) (s : State), s.power.record = none → s.power.bootFailed = false → if Config.isModule = true then eventDoes (.powerOn r g) s fun t => onlyPower s t ∧
    (g = true → t.power.record = some r ∧ t.power.held = false ∧ t.devNum = r.device) ∧
    (g = false → t.power = { s.power with bootFailed := true } ∧ t.host = s.host ++ [.bootFailure]) else exec (.powerOn r g) s = .refused .notEnabled) ∧
  (∀ (f : Fn) (s : State), fnExists f = true → f ∉ s.power.ready → (∀ n ∈ fnCores f, (s.core n).failed = false) →
    let cap := ∃ n, f = .eave n ∧ 64 ≤ n % 68
    let ready := eventDoes (.functionReady f) s fun t => onlyPower s t ∧ t.power = { s.power with ready := s.power.ready ++ [f] } ∧ (t.hasCap = true ↔ s.hasCap = true ∨ cap)
    let refused := exec (.functionReady f) s = .refused .notEnabled
    (s.power.record.isSome = true → s.power.held = false → (¬ cap → ready) ∧ (cap → if Config.isModule = true then ready else refused)) ∧
    (s.power.record = none → ¬ cap → if Config.isModule = true then refused else ready)) ∧
  (∀ (f : Fn) (s : State), f ∈ s.power.ready → (∀ g ∈ s.dist.gangs, s.gangOn (fnCores f) g = false ∧ s.memoryOn g.part f = false) →
    eventDoes (.functionFailure f) s fun t => onlyPower s t ∧ t.power = { s.power with ready := s.power.ready.filter (· != f) }) ∧
  (∀ (link : Nat) (good : Bool) (s : State), .link link ∈ s.power.ready →
    eventDoes (.flitReceive link good) s (fun t => onlyPower s t ∧ tget 0 t.power.retries link = (if good = true then 0 else tget 0 s.power.retries link + 1) ∧ t.power.ready = s.power.ready) ∧
    (Config.linkRetryLimit < tget 0 s.power.retries link → eventDoes (.linkFailure link) s fun t => onlyPower s t ∧ Fn.link link ∉ t.power.ready)) ∧
  (∀ (f : Fn) (temp volt proc : Int) (im : List (Nat × List Word)) (s : State), fnExists f = true → monitored f ≠ [] → s.time % 24000 = 0 → temp < 115 → monitorName f ∉ s.power.shut →
    eventDoes (.monitorSample ⟨f, im⟩ temp volt proc) s fun t => t.home = s.home ∧ t.dist = s.dist ∧ (monitorName f, temp, volt, proc) ∈ t.power.readings ∧
      ∀ n ∈ (monitored f).flatMap fnCores, (t.core n).throttled = decide (105 ≤ temp)) ∧
  (∀ (slate demand : Nat) (s : State),
    let r := tget (0, 0) s.power.ramp slate
    slate < 4 → demand ≤ 256 * 2400 → r.2 + 2400 ≤ s.time → eventDoes (.rampWindowExpiry slate demand) s fun t => onlyPower s t ∧
      (tget (0, 0) t.power.ramp slate).1 ≤ demand ∧ (tget (0, 0) t.power.ramp slate).1 ≤ r.1 + 256 * 2400 / 8 ∧ (tget (0, 0) t.power.ramp slate).2 = r.2 + 2400) ∧
  (∀ (n k f : Nat) (s : State),
    let p := s.part n
    (n < 16 → p.st = .free → eventDoes (.partitionCreate n) s fun t => partBecomes s t n { Partition.free with st := .keyed, keys := 1 }) ∧
    (∀ q : PartSetup, n < 16 → p.st = .keyed → q.cores.Nodup → (∀ g ∈ q.frames, s.frameFree n g = true) → (∀ c ∈ q.cores, (c < 1024 ∨ (1024 ≤ c ∧ c < 1296)) ∧ (s.core c).part = none) →
      q.ptb.toNat % 64 = 0 → q.ptb.toNat < 2 ^ 52 → q.park.Nodup → (∀ a ∈ q.park, a % 8192 = 0 ∧ a / 8192 ∈ q.frames) → eventDoes (.partitionActivate n q) s fun t =>
        (t.part n).st = .active ∧ (t.part n).ptb = q.ptb ∧ (t.part n).cores = q.cores ∧ (t.part n).park = q.park ∧ (∀ c ∈ q.cores, (t.core c).part = some n) ∧
          (∀ g ∈ q.frames, s.frameFree n g = true → (tget 0 t.home.frames g).getLsbD 5 = true ∧ (tget 0 t.home.frames g).toNat % 16 = n) ∧ t.home.mem = s.home.mem) ∧
    (p.st = .active → s.partStages n = [] → eventDoes (.partitionFree n) s fun t => partBecomes s t n { p with st := .stopping }) ∧
    (p.st = .stopping → s.partStages n = [] → s.hasActors n = false → eventDoes (.partitionErase n) s fun t => (t.part n).st = .erasing ∧ (t.part n).keys = 0 ∧
      ∀ g, (tget 0 s.home.frames g).getLsbD 5 = true → (tget 0 s.home.frames g).toNat % 16 = n → (tget 0 t.home.frames g).getLsbD 5 = false ∧ (tget 0 t.home.frames g).getLsbD 4 = true) ∧
    (p.st = .erasing → eventDoes (.eraseComplete n) s fun t => t.part n = .free ∧ (∀ c ∈ p.cores, (t.core c).part = none) ∧ t.home = s.home) ∧
    (p.st = .keyed ∨ p.st = .active → 1 ≤ k → k < 4 → p.keys.getLsbD k = false → p.dead.getLsbD k = false →
      eventDoes (.keySlotGenerate n k) s fun t => partBecomes s t n { p with keys := p.keys ||| (1 : BitVec 4) <<< k }) ∧
    (p.st = .active → k < 4 → p.keys.getLsbD k = true → eventDoes (.keySlotDiscard n k) s fun t =>
      partBecomes s t n { p with keys := p.keys &&& ~~~((1 : BitVec 4) <<< k), dead := p.dead ||| (1 : BitVec 4) <<< k }) ∧
    (p.st = .active → s.frameFree n f = true → n < 16 → eventDoes (.frameAssign f n) s fun t => (tget 0 t.home.frames f).getLsbD 5 = true ∧ (tget 0 t.home.frames f).toNat % 16 = n ∧
      (tget 0 t.home.frames f).getLsbD 4 = (tget 0 s.home.frames f).getLsbD 4 ∧ t.home.mem = s.home.mem ∧ t.cores = s.cores) ∧
    (∀ key, p.st = .active → (∀ g ∈ s.framesOf n, s.frameBusy g = false) → (s.hasActors n = true → eventDoes (.checkpointExport ⟨n, key⟩) s fun t => t = s.tell .refusedExport) ∧
      (s.hasActors n = false → eventDoes (.checkpointExport ⟨n, key⟩) s fun t => t = s.tell (.exported ((s.framesOf n).map (s.ckFrame key))))) ∧
    (∀ c : CkFrame, p.st = .active → s.partStages n = [] → s.hasActors n = false → c.frame ∈ s.framesOf n → s.frameBusy c.frame = false → c.cleared = true →
      eventDoes (.checkpointImport ⟨n, c.key⟩ [c]) s fun t => (∀ g, g / 1024 = c.frame → t.lostAt g = false → t.homeGran g = (0, 0)) ∧ ∀ x, x / 8192 ≠ c.frame → t.home.mem.byte x = s.home.mem.byte x) ∧
    (∀ (c : CkFrame) (b : Nat × Byte), p.st = .active → s.partStages n = [] → s.hasActors n = false → c.frame ∈ s.framesOf n → s.frameBusy c.frame = false → c.cleared = false → c.bytes = [b] → b.1 < 8192 →
      eventDoes (.checkpointImport ⟨n, c.key⟩ [c]) s fun t => ∀ x, t.home.mem.byte x = if x = 8192 * c.frame + b.1 then b.2 else if x / 8192 = c.frame then 0 else s.home.mem.byte x)) ∧
  (∀ (nonce : Word) (r : Fratre) (s : State), s.power.record = some r → eventDoes (.attestationReport nonce) s fun t => onlyPower s t ∧
    ∃ sg, t.host = s.host ++ [.attested r.digest Config.firmwareDigest ((List.range 16).map fun n => (s.part n).st.code) nonce sg])

/-! ## The machine: fetching, decoding, reset, invariants -/

namespace Sys2Proof.Claims

/-- The acting context is one that runs now, and its budget is not spent (R77, R180, R353). -/
structure mayRun (s : State) : Prop where
  has : (∃ f, s.x.firing = some f) ∨ s.x.mbTrap = true
  goes : s.x.halted = false ∧ s.x.dead = false
  ready : (s.cur, s.curCtx) ∉ s.stalled
  budget : s.x.trap.pl = true ∨ ∀ f a, s.x.firing = some f → s.c.actor f.actor = some a → a.csr.hbudget = 0 ∨ s.time - f.entry - f.away ≤ a.csr.hbudget.toNat
/-- It runs, and no matrix follow-on of a copy counts as issued by its actor before its next instruction (R295, R334). -/
def runs (s : State) : Prop := mayRun s ∧ (s.x.firing = none ∨ s.followDue = false)
/-- The four bytes of LM from the PC (R47). -/
def bytesHere (s : State) : List Byte := (List.range 4).map fun i => s.c.m.lm.byte (s.x.pc.toNat + i)
/-- The halfwords that the instruction at the PC needs lie below XB (R81). -/
def fetches (s : State) : Prop := s.x.pc.toNat < s.c.xbAddr ∧ ((s.c.m.lm.byte s.x.pc.toNat).toNat % 4 = 3 → s.x.pc.toNat + 2 < s.c.xbAddr)

end Sys2Proof.Claims

/-- With nothing in the feed, one cycle passes; where the acting context then has an instruction to run and its bytes at the PC decode to a well-formed instruction, the step is exec of it, and where they decode to none, of the
illegal encoding. A PC at or above XB traps XFETCH (R81). While a matrix follow-on of a landed copy stands before the instruction, the context waits (R295, R334). A move of the feed (log 3) lets its time pass and runs the named context's instruction, or an event that can happen, after which no context is known to wait.
The feed and the passing of one cycle for each step are the model's (log 3). -/
def Obligations.StepRunsDecodedInstruction : Prop :=
  (∀ s : State, s.feed = [] → let u := s.later 1
    runs u →
    (fetches u → (∀ i n, decodeBytes (bytesHere u) = .instr i n → WellFormed i → step s = exec i u) ∧
      ∀ e w h, decodeBytes (bytesHere u) = .bad e w h → step s = exec (.illegalEncoding e w h) u) ∧
    (u.c.xbAddr ≤ u.x.pc.toNat → step s = .next (takeTrap u 0x05 u.x.pc u.x.prevPc u.x.pc))) ∧
  (∀ s : State, s.feed = [] → let u := s.later 1
    mayRun u → u.x.firing ≠ none → u.followDue = true → step s = .next { u with stalled := (u.cur, u.curCtx) :: u.stalled }) ∧
  (∀ (s : State) (n k dt : Nat) (r : List Move), s.feed = .run n k dt :: r →
    let u := ({ s with feed := r }.later dt).focus n k
    u.cur = n ∧ u.curCtx = k ∧ u.time = s.time + dt ∧ (runs u → fetches u → ∀ i m, decodeBytes (bytesHere u) = .instr i m → WellFormed i → step s = exec i u)) ∧
  (∀ (s : State) (i : Instr) (dt : Nat) (r : List Move) (t : State), s.feed = .event i dt :: r → Machine.Instr.happens i = true →
    exec i ({ s with feed := r }.later dt) = .next t → step s = .next { t with stalled := [] })

/-- The words that the spec works out for instructions of each family, taken from its text (R51 and the worked encodings of the family files), decode to those instructions with a length of four bytes; the compact SPOP of two bytes
decodes to that (R53). -/
def Obligations.WorkedWordsDecode : Prop :=
  (∀ p ∈ ([(0x01010817, .addi 8 1 1 0), (0x0040581B, .li 0x40 11 0), (0x5640701F, .lsh 0x5640 14 0), (0xFFD7A023, .beq 0x7FE 23 20), (0x80002027, .call 32), (0x0106002B, .loop 8 6 0),
      (0xC0014033, .ldl64 0 1 8 0), (0xE0210833, .vldl 1 1 1 0), (0x4026703B, .stg32 1 6 14 0), (0x8006283F, .cways 6 5 0), (0x74221843, .vfmaF32 5 1 2 3 0), (0x20200853, .vcltF32 0 1 0 1 0),
      (0xA1C1105B, .vnzscan 0 14 1 2 0), (0x0805305F, .vrsumF32 2 5 6 0), (0xE0270863, .kmovGk 7 1 0), (0x080A1867, .sopen .upd 10 3 0), (0x6005906B, .sgrant 5 true 2 0),
      (0x06D5A173, .send 1 22 21 20 1), (0x00E62877, .mbcfg 7 6 5 0), (0x62D5A07B, .jadd 22 21 20 0), (0x64E6007F, .strel .dv 7 6 0), (0x00E62883, .aaddS32 7 6 5 false .cl),
      (0x6002288B, .barq 2 5 0), (0x01AC5093, .mma false 13 12 .s8 0 0), (0x05A40897, .mrdz true 13 4 .f32 1 0), (0x20E6289F, .bget 7 6 5 0)] : List (Nat × Instr)),
    decodeBytes (wordBytes 4 p.1) = .instr p.2 4) ∧
  decodeBytes (wordBytes 2 0x112C) = .instr (.cSpop 2 4) 2

/-- At reset no record is verified, the slates are held and no function is ready (R400, R401); every partition is FREE with no key slot generated (R361); no message, stage, gang or copy exists; of every core every stream slot is
closed with the reset values of R129, no actor is resident, so that every mailbox and tag is still to be declared, the two banks are EMPTY, b0 is active, the tiles are zero of KIND NONE without poison, and QM is off
(R290). Registers for which the spec gives no reset value are the model's (log 1) and not claimed here. -/
def Obligations.ResetValues : Prop :=
  let r := State.reset
  r.power.record = none ∧ r.power.held = true ∧ r.power.ready = [] ∧ r.power.bootFailed = false ∧
  (∀ n, (r.part n).st = .free ∧ (r.part n).keys = 0 ∧ (r.part n).cores = [] ∧ (r.part n).amap = []) ∧
  r.dist.stages = [] ∧ r.dist.gangs = [] ∧ r.dist.hw = [] ∧ r.dist.copies = [] ∧ (∀ p q, (r.queue p q).enabled = false) ∧
  (∀ n, (∀ i, (r.core n).actor i = none) ∧ (∀ k, ((r.core n).ctx k).firing = none) ∧ (r.core n).outbound = [] ∧ (r.core n).part = none) ∧
  (∀ n k, let t := (r.core n).stream k
    t.ph = .closed ∧ t.d.t = [0, 0, 0, 0] ∧ t.d.c = [1, 1, 1, 1] ∧ t.g = 0 ∧ t.f = 0 ∧ t.loc = 0 ∧ t.evpend = 0) ∧
  ∀ n, let a := (r.core n).arr
    a.b0.ld = .empty ∧ a.b1.ld = .empty ∧ a.act = false ∧ a.qm = .off ∧ a.ops = [] ∧
      (∀ z e, tget 0 (a.tile z).z e = 0 ∧ tget false (a.tile z).pb e = false) ∧ (∀ z, (a.tile z).kind = 0) ∧ (∀ b, (a.bank b).pm = 0 ∧ (a.bank b).q4b = false)

/-- Home memory and the LM of every core are in canonical form at reset: addresses strictly rising, no entry equal to what an unlisted address reads as, for bytes and seals. -/
def Obligations.MemoryCanonicalAtReset : Prop :=
  State.reset.memoryOk

/-- From every state in which home memory and the LM of every core are in canonical form, a step that answers a next state leaves them so: whatever instruction or event it runs, equal memories stay equal data. -/
def Obligations.StepsKeepMemoryCanonical : Prop :=
  ∀ s t : State, s.memoryOk → step s = .next t → t.memoryOk

/-- For every instruction that has an encoding and is well-formed, whatever bytes follow it, decoding its words gives it back with its length: no operand bit is dropped, and no two well-formed instructions share a word.
An event has no encoding. -/
def Obligations.DecodeOfEncode : Prop :=
  ∀ i : Instr, WellFormed i → encode i ≠ .none → ∀ rest, decodeBytes (encodeBytes i ++ rest) = .instr i i.len
end

