-- ==== Sys2Proof/Laws/Table.lean ====
section
/-!
SUPPORT. Laws of sparse tables: reading after writing, and the canonical form that every operation keeps.
-/

namespace Sys2Proof.Machine

variable {α : Type}

theorem tget_tdel_same (d : α) (t : Tab α) (k : Nat) : tget d (tdel t k) k = d := by
  induction t with
  | nil => rfl
  | cons e r ih =>
    obtain ⟨k', v⟩ := e
    by_cases h : k' = k <;> simp [tdel, tget, h, ih]

theorem tget_tdel_ne (d : α) (t : Tab α) {k j : Nat} (h : j ≠ k) : tget d (tdel t k) j = tget d t j := by
  induction t with
  | nil => rfl
  | cons e r ih =>
    obtain ⟨k', v⟩ := e
    by_cases h1 : k' = k
    · have h2 : ¬ k' = j := fun h3 => h (h3.symm.trans h1)
      simp only [tdel, tget, h1, if_true, ih]
      rw [if_neg (fun h3 : k = j => h h3.symm)]
    · simp only [tdel, if_neg h1, tget, ih]

theorem tget_tins_same (d : α) (t : Tab α) (k : Nat) (v : α) :
    tget d (tins (tdel t k) k v) k = v := by
  have key : ∀ t : Tab α, (∀ e ∈ t, e.1 ≠ k) → tget d (tins t k v) k = v := by
    intro t
    induction t with
    | nil => intro _; simp [tins, tget]
    | cons e r ih =>
      obtain ⟨k', v'⟩ := e
      intro h
      have h1 : k' ≠ k := h _ (List.mem_cons_self ..)
      by_cases h2 : k < k'
      · simp [tins, tget, h2]
      · simp only [tins, if_neg h2, tget, if_neg h1]
        exact ih (fun e he => h e (List.mem_cons_of_mem _ he))
  refine key _ ?_
  clear key
  induction t with
  | nil => intro e he; exact absurd he (List.not_mem_nil)
  | cons e r ih =>
    obtain ⟨k', v'⟩ := e
    by_cases h1 : k' = k
    · simpa [tdel, h1] using ih
    · intro e he
      simp only [tdel, if_neg h1, List.mem_cons] at he
      rcases he with rfl | he
      · exact h1
      · exact ih e he

theorem tget_tins_ne (d : α) (t : Tab α) {k j : Nat} (v : α) (h : j ≠ k) : tget d (tins t k v) j = tget d t j := by
  induction t with
  | nil => simp [tins, tget, Ne.symm h]
  | cons e r ih =>
    obtain ⟨k', v'⟩ := e
    by_cases h1 : k < k'
    · simp [tins, tget, h1, Ne.symm h]
    · simp only [tins, if_neg h1, tget, ih]

/-- Reading a key after writing it. -/
@[simp] theorem tget_tset_same [DecidableEq α] (d : α) (t : Tab α) (k : Nat) (v : α) : tget d (tset d t k v) k = v := by
  unfold tset
  split
  · next h => rw [tget_tdel_same, h]
  · exact tget_tins_same d t k v

/-- Reading another key after writing one. -/
theorem tget_tset_ne [DecidableEq α] (d : α) (t : Tab α) {k j : Nat} (v : α) (h : j ≠ k) : tget d (tset d t k v) j = tget d t j := by
  unfold tset
  split
  · exact tget_tdel_ne d t h
  · rw [tget_tins_ne d _ v h, tget_tdel_ne d t h]

/-- Reading after writing, in one equation. -/
theorem tget_tset [DecidableEq α] (d : α) (t : Tab α) (k j : Nat) (v : α) : tget d (tset d t k v) j = if j = k then v else tget d t j := by
  by_cases h : j = k
  · subst h; simp
  · rw [if_neg h, tget_tset_ne d t v h]

theorem twfFrom_mono [DecidableEq α] (d : α) {lo lo' : Nat} (t : Tab α) (h : lo' ≤ lo) (w : twfFrom d lo t = true) : twfFrom d lo' t = true := by
  cases t with
  | nil => rfl
  | cons e r =>
    obtain ⟨k, v⟩ := e
    simp only [twfFrom, Bool.and_eq_true, decide_eq_true_eq] at w ⊢
    exact ⟨⟨Nat.le_trans h w.1.1, w.1.2⟩, w.2⟩

theorem twfFrom_tdel [DecidableEq α] (d : α) (t : Tab α) (k : Nat) : ∀ lo, twfFrom d lo t = true → twfFrom d lo (tdel t k) = true := by
  induction t with
  | nil => intro lo h; exact h
  | cons e r ih =>
    obtain ⟨k', v⟩ := e
    intro lo h
    simp only [twfFrom, Bool.and_eq_true, decide_eq_true_eq] at h
    by_cases h1 : k' = k
    · simp only [tdel, if_pos h1]
      exact twfFrom_mono d _ (by omega) (ih _ h.2)
    · simp only [tdel, if_neg h1, twfFrom, Bool.and_eq_true, decide_eq_true_eq]
      exact ⟨h.1, ih _ h.2⟩

theorem mem_tdel_ne (t : Tab α) (k : Nat) : ∀ e ∈ tdel t k, e.1 ≠ k := by
  induction t with
  | nil => intro e he; exact absurd he List.not_mem_nil
  | cons e r ih =>
    obtain ⟨k', v⟩ := e
    by_cases h1 : k' = k
    · simpa [tdel, h1] using ih
    · intro e he
      simp only [tdel, if_neg h1, List.mem_cons] at he
      rcases he with rfl | he
      · exact h1
      · exact ih e he

theorem twfFrom_tins [DecidableEq α] (d : α) (t : Tab α) (k : Nat) (v : α) (hv : v ≠ d) :
    ∀ lo, lo ≤ k → (∀ e ∈ t, e.1 ≠ k) → twfFrom d lo t = true → twfFrom d lo (tins t k v) = true := by
  induction t with
  | nil => intro lo hk _ _; simp [tins, twfFrom, hk, hv]
  | cons e r ih =>
    obtain ⟨k', v'⟩ := e
    intro lo hk hne h
    have h1 : k' ≠ k := hne _ (List.mem_cons_self ..)
    simp only [twfFrom, Bool.and_eq_true, decide_eq_true_eq] at h
    by_cases h2 : k < k'
    · simp only [tins, if_pos h2, twfFrom, Bool.and_eq_true, decide_eq_true_eq]
      exact ⟨⟨hk, hv⟩, ⟨by omega, h.1.2⟩, h.2⟩
    · simp only [tins, if_neg h2, twfFrom, Bool.and_eq_true, decide_eq_true_eq]
      exact ⟨h.1, ih (k' + 1) (by omega) (fun e he => hne e (List.mem_cons_of_mem _ he)) h.2⟩

/-- Writing keeps the canonical form. -/
theorem twf_tset [DecidableEq α] (d : α) (t : Tab α) (k : Nat) (v : α) (h : twf d t = true) : twf d (tset d t k v) = true := by
  unfold tset
  split
  · exact twfFrom_tdel d t k 0 h
  · next hv => exact twfFrom_tins d _ k v hv 0 (Nat.zero_le _) (mem_tdel_ne t k) (twfFrom_tdel d t k 0 h)

theorem twfFrom_filter [DecidableEq α] (d : α) (p : Nat × α → Bool) (t : Tab α) : ∀ lo, twfFrom d lo t = true → twfFrom d lo (t.filter p) = true := by
  induction t with
  | nil => intro lo h; exact h
  | cons e r ih =>
    obtain ⟨k, v⟩ := e
    intro lo h
    simp only [twfFrom, Bool.and_eq_true, decide_eq_true_eq] at h
    by_cases hp : p (k, v) = true
    · simp only [List.filter_cons, hp, if_true, twfFrom, Bool.and_eq_true, decide_eq_true_eq]
      exact ⟨h.1, ih _ h.2⟩
    · simp only [List.filter_cons, hp]
      exact twfFrom_mono d _ (by omega) (ih _ h.2)

/-- Leaving entries out keeps the canonical form. -/
theorem twf_filter [DecidableEq α] (d : α) (p : Nat × α → Bool) (t : Tab α) (h : twf d t = true) : twf d (t.filter p) = true :=
  twfFrom_filter d p t 0 h

theorem tdel_tdel (t : Tab α) (k : Nat) : tdel (tdel t k) k = tdel t k := by
  induction t with
  | nil => rfl
  | cons e r ih =>
    by_cases h : e.1 = k
    · simp [tdel, h, ih]
    · simp [tdel, h, ih]
theorem tdel_tins (t : Tab α) (k : Nat) (v : α) : tdel (tins t k v) k = tdel t k := by
  induction t with
  | nil => simp [tins, tdel]
  | cons e r ih =>
    unfold tins
    split
    · simp [tdel]
    · by_cases h : e.1 = k <;> simp [tdel, h, ih]
theorem tset_tset [DecidableEq α] (d : α) (t : Tab α) (k : Nat) (v w : α) : tset d (tset d t k v) k w = tset d t k w := by
  have e : tdel (tset d t k v) k = tdel t k := by
    unfold tset
    split
    · exact tdel_tdel t k
    · rw [tdel_tins, tdel_tdel]
  unfold tset at e ⊢
  simp only [e]

end Sys2Proof.Machine
end

