-- ==== Sys2Proof/Laws/Memory.lean ====
section
/-!
SUPPORT. Laws of memory: reading after writing, and the canonical form that every memory operation keeps.
-/

namespace Sys2Proof.Machine

@[simp] theorem Mem.byte_setByte_same (m : Mem) (a : Nat) (b : Byte) : (m.setByte a b).byte a = b := by
  simp [Mem.byte, Mem.setByte]
theorem Mem.byte_setByte (m : Mem) (a c : Nat) (b : Byte) : (m.setByte a b).byte c = if c = a then b else m.byte c := by
  simp [Mem.byte, Mem.setByte, tget_tset]
theorem Mem.byte_setByte_ne (m : Mem) {a c : Nat} (b : Byte) (h : c ≠ a) : (m.setByte a b).byte c = m.byte c := by
  simp [Mem.byte_setByte, h]
@[simp] theorem Mem.sealOf_setByte (m : Mem) (a g : Nat) (b : Byte) : (m.setByte a b).sealOf g = m.sealOf g := rfl
@[simp] theorem Mem.byte_setSeal (m : Mem) (a g : Nat) (b : Byte) : (m.setSeal g b).byte a = m.byte a := rfl
@[simp] theorem Mem.sealOf_setSeal_same (m : Mem) (g : Nat) (b : Byte) : (m.setSeal g b).sealOf g = b := by
  simp [Mem.sealOf, Mem.setSeal]
theorem Mem.sealOf_setSeal (m : Mem) (g h : Nat) (b : Byte) : (m.setSeal g b).sealOf h = if h = g then b else m.sealOf h := by
  simp [Mem.sealOf, Mem.setSeal, tget_tset]

theorem Memory.wf_setByte (m : Mem) (a : Nat) (b : Byte) (h : Memory.wf m = true) : Memory.wf (m.setByte a b) = true := by
  simp only [Memory.wf, Bool.and_eq_true, Mem.setByte] at h ⊢
  exact ⟨twf_tset 0 _ a b h.1, h.2⟩
theorem Memory.wf_setSeal (m : Mem) (g : Nat) (b : Byte) (h : Memory.wf m = true) : Memory.wf (m.setSeal g b) = true := by
  simp only [Memory.wf, Bool.and_eq_true, Mem.setSeal] at h ⊢
  exact ⟨h.1, twf_tset 0 _ g b h.2⟩
theorem Memory.wf_setGran (m : Mem) (g : Nat) (w : Word) (s : Byte) (h : Memory.wf m = true) : Memory.wf (m.setGran g w s) = true := by
  unfold Mem.setGran
  exact Memory.wf_setSeal _ _ _ (Memory.wf_setByte _ _ _ (Memory.wf_setByte _ _ _ (Memory.wf_setByte _ _ _ (Memory.wf_setByte _ _ _
    (Memory.wf_setByte _ _ _ (Memory.wf_setByte _ _ _ (Memory.wf_setByte _ _ _ (Memory.wf_setByte _ _ _ h))))))))
theorem Memory.wf_setGrans (l : List (Word × Byte)) : ∀ (m : Mem) (g : Nat), Memory.wf m = true → Memory.wf (m.setGrans g l) = true := by
  induction l with
  | nil => intro m g h; exact h
  | cons e r ih => intro m g h; exact ih _ _ (Memory.wf_setGran m g e.1 e.2 h)
theorem Memory.wf_setBytes (l : List Byte) : ∀ (m : Mem) (a : Nat), Memory.wf m = true → Memory.wf (m.setBytes a l) = true := by
  induction l with
  | nil => intro m a h; exact h
  | cons b r ih => intro m a h; exact ih _ _ (Memory.wf_setByte m a b h)
theorem Memory.wf_zero (m : Mem) (g n : Nat) (h : Memory.wf m = true) : Memory.wf (m.zero g n) = true := by
  simp only [Memory.wf, Bool.and_eq_true, Mem.zero] at h ⊢
  exact ⟨twf_filter 0 _ _ h.1, twf_filter 0 _ _ h.2⟩

/-- Memory at reset has the canonical form. -/
theorem Memory.wf_empty : Memory.wf Mem.empty = true := rfl
/-- Home memory at reset has the canonical form. -/
theorem State.reset_home_wf : Memory.wf State.reset.home.mem = true := rfl
/-- Every LM at reset has the canonical form. -/
theorem State.reset_lm_wf (n : Nat) : Memory.wf (State.reset.core n).m.lm = true := rfl

/-- The bytes of a word put together are the word (R23). -/
theorem wordOf_byteOf (w : Word) : wordOf (byteOf w 0) (byteOf w 1) (byteOf w 2) (byteOf w 3) (byteOf w 4) (byteOf w 5) (byteOf w 6) (byteOf w 7) = w := by
  apply BitVec.eq_of_getLsbD_eq
  intro i hi
  simp only [wordOf, byteOf, BitVec.getLsbD_append, BitVec.getLsbD_extractLsb']
  by_cases h0 : i < 8
  · simp [h0]
  by_cases h1 : i < 16
  · have a : i - 8 < 8 := by omega
    have b : 8 + (i - 8) = i := by omega
    simp [h0, a, b]
  by_cases h2 : i < 24
  · have a : ¬ (i - 8 < 8) := by omega
    have b : i - 8 - 8 < 8 := by omega
    have c : 16 + (i - 8 - 8) = i := by omega
    simp [h0, a, b, c]
  by_cases h3 : i < 32
  · have a : ¬ (i - 8 < 8) := by omega
    have b : ¬ (i - 8 - 8 < 8) := by omega
    have c : i - 8 - 8 - 8 < 8 := by omega
    have e : 24 + (i - 8 - 8 - 8) = i := by omega
    simp [h0, a, b, c, e]
  by_cases h4 : i < 40
  · have a : ¬ (i - 8 < 8) := by omega
    have b : ¬ (i - 8 - 8 < 8) := by omega
    have c : ¬ (i - 8 - 8 - 8 < 8) := by omega
    have e : i - 8 - 8 - 8 - 8 < 8 := by omega
    have f : 32 + (i - 8 - 8 - 8 - 8) = i := by omega
    simp [h0, a, b, c, e, f]
  by_cases h5 : i < 48
  · have a : ¬ (i - 8 < 8) := by omega
    have b : ¬ (i - 8 - 8 < 8) := by omega
    have c : ¬ (i - 8 - 8 - 8 < 8) := by omega
    have e : ¬ (i - 8 - 8 - 8 - 8 < 8) := by omega
    have f : i - 8 - 8 - 8 - 8 - 8 < 8 := by omega
    have g : 40 + (i - 8 - 8 - 8 - 8 - 8) = i := by omega
    simp [h0, a, b, c, e, f, g]
  by_cases h6 : i < 56
  · have a : ¬ (i - 8 < 8) := by omega
    have b : ¬ (i - 8 - 8 < 8) := by omega
    have c : ¬ (i - 8 - 8 - 8 < 8) := by omega
    have e : ¬ (i - 8 - 8 - 8 - 8 < 8) := by omega
    have f : ¬ (i - 8 - 8 - 8 - 8 - 8 < 8) := by omega
    have g : i - 8 - 8 - 8 - 8 - 8 - 8 < 8 := by omega
    have h : 48 + (i - 8 - 8 - 8 - 8 - 8 - 8) = i := by omega
    simp [h0, a, b, c, e, f, g, h]
  · have a : ¬ (i - 8 < 8) := by omega
    have b : ¬ (i - 8 - 8 < 8) := by omega
    have c : ¬ (i - 8 - 8 - 8 < 8) := by omega
    have e : ¬ (i - 8 - 8 - 8 - 8 < 8) := by omega
    have f : ¬ (i - 8 - 8 - 8 - 8 - 8 < 8) := by omega
    have g : ¬ (i - 8 - 8 - 8 - 8 - 8 - 8 < 8) := by omega
    have h : i - 8 - 8 - 8 - 8 - 8 - 8 - 8 < 8 := by omega
    have j : 56 + (i - 8 - 8 - 8 - 8 - 8 - 8 - 8) = i := by omega
    simp [h0, a, b, c, e, f, g, h, j]

/-- Reading a granule after writing it gives the word. -/
@[simp] theorem Mem.gran_setGran_same (m : Mem) (g : Nat) (w : Word) (s : Byte) : (m.setGran g w s).gran g = w := by
  have key : ∀ i, i < 8 → (m.setGran g w s).byte (8 * g + i) = byteOf w i := by
    intro i hi
    simp only [Mem.setGran, Mem.byte_setSeal, Mem.byte_setByte]
    have : i = 0 ∨ i = 1 ∨ i = 2 ∨ i = 3 ∨ i = 4 ∨ i = 5 ∨ i = 6 ∨ i = 7 := by omega
    rcases this with rfl | rfl | rfl | rfl | rfl | rfl | rfl | rfl <;> simp
  have k0 := key 0 (by omega)
  simp only [Nat.add_zero] at k0
  rw [Mem.gran, k0, key 1 (by omega), key 2 (by omega), key 3 (by omega), key 4 (by omega), key 5 (by omega), key 6 (by omega), key 7 (by omega)]
  exact wordOf_byteOf w
/-- Reading the seal of a granule after writing it. -/
@[simp] theorem Mem.sealOf_setGran_same (m : Mem) (g : Nat) (w : Word) (s : Byte) : (m.setGran g w s).sealOf g = s := by
  simp [Mem.setGran]
theorem Mem.sealOf_setGran_ne (m : Mem) {g h : Nat} (w : Word) (s : Byte) (hn : h ≠ g) : (m.setGran g w s).sealOf h = m.sealOf h := by
  simp only [Mem.setGran, Mem.sealOf_setSeal, if_neg hn, Mem.sealOf_setByte]
/-- A byte outside the granule that is written reads as before. -/
theorem Mem.byte_setGran_out (m : Mem) {g a : Nat} (w : Word) (s : Byte) (h : a < 8 * g ∨ 8 * g + 8 ≤ a) : (m.setGran g w s).byte a = m.byte a := by
  simp only [Mem.setGran, Mem.byte_setSeal, Mem.byte_setByte]
  repeat rw [if_neg (by omega)]
/-- A byte outside the granules that are written reads as before. -/
theorem Mem.byte_setGrans_out (l : List (Word × Byte)) : ∀ (m : Mem) (g : Nat) {a : Nat}, (a < 8 * g ∨ 8 * (g + l.length) ≤ a) →
    (m.setGrans g l).byte a = m.byte a := by
  induction l with
  | nil => intro m g a _; rfl
  | cons e r ih =>
    intro m g a h
    simp only [List.length_cons] at h
    rw [Mem.setGrans, ih _ _ (by omega), Mem.byte_setGran_out _ _ _ (by omega)]

end Sys2Proof.Machine
end

