-- ==== Sys2Proof/Laws/State.lean ====
section
/-!
SUPPORT. What each named update of the state does to each field: an update changes its own field and leaves the others.
-/

namespace Sys2Proof.Machine

/-! ## Cores -/

@[simp] theorem State.setCore_hasCap (s : State) (n : Nat) (c : Core) : (s.setCore n c).hasCap = s.hasCap := rfl
@[simp] theorem State.setCore_devNum (s : State) (n : Nat) (c : Core) : (s.setCore n c).devNum = s.devNum := rfl
@[simp] theorem State.setCore_time (s : State) (n : Nat) (c : Core) : (s.setCore n c).time = s.time := rfl
@[simp] theorem State.setCore_clusters (s : State) (n : Nat) (c : Core) : (s.setCore n c).clusters = s.clusters := rfl
@[simp] theorem State.setCore_home (s : State) (n : Nat) (c : Core) : (s.setCore n c).home = s.home := rfl
@[simp] theorem State.setCore_dist (s : State) (n : Nat) (c : Core) : (s.setCore n c).dist = s.dist := rfl
@[simp] theorem State.setCore_power (s : State) (n : Nat) (c : Core) : (s.setCore n c).power = s.power := rfl
@[simp] theorem State.setCore_host (s : State) (n : Nat) (c : Core) : (s.setCore n c).host = s.host := rfl
@[simp] theorem State.setCore_feed (s : State) (n : Nat) (c : Core) : (s.setCore n c).feed = s.feed := rfl
@[simp] theorem State.setCore_stalled (s : State) (n : Nat) (c : Core) : (s.setCore n c).stalled = s.stalled := rfl
@[simp] theorem State.setCore_cur (s : State) (n : Nat) (c : Core) : (s.setCore n c).cur = s.cur := rfl
@[simp] theorem State.setCore_curCtx (s : State) (n : Nat) (c : Core) : (s.setCore n c).curCtx = s.curCtx := rfl
@[simp] theorem State.setCore_draws (s : State) (n : Nat) (c : Core) : (s.setCore n c).draws = s.draws := rfl
@[simp] theorem State.core_setCore_same (s : State) (n : Nat) (c : Core) : (s.setCore n c).core n = c := by simp [State.core, State.setCore]
theorem State.core_setCore (s : State) (n m : Nat) (c : Core) : (s.setCore n c).core m = if m = n then c else s.core m := by simp [State.core, State.setCore, tget_tset]
@[simp] theorem State.upCore_hasCap (s : State) (n : Nat) (f : Core → Core) : (s.upCore n f).hasCap = s.hasCap := rfl
@[simp] theorem State.upCore_devNum (s : State) (n : Nat) (f : Core → Core) : (s.upCore n f).devNum = s.devNum := rfl
@[simp] theorem State.upCore_time (s : State) (n : Nat) (f : Core → Core) : (s.upCore n f).time = s.time := rfl
@[simp] theorem State.upCore_clusters (s : State) (n : Nat) (f : Core → Core) : (s.upCore n f).clusters = s.clusters := rfl
@[simp] theorem State.upCore_home (s : State) (n : Nat) (f : Core → Core) : (s.upCore n f).home = s.home := rfl
@[simp] theorem State.upCore_dist (s : State) (n : Nat) (f : Core → Core) : (s.upCore n f).dist = s.dist := rfl
@[simp] theorem State.upCore_power (s : State) (n : Nat) (f : Core → Core) : (s.upCore n f).power = s.power := rfl
@[simp] theorem State.upCore_host (s : State) (n : Nat) (f : Core → Core) : (s.upCore n f).host = s.host := rfl
@[simp] theorem State.upCore_feed (s : State) (n : Nat) (f : Core → Core) : (s.upCore n f).feed = s.feed := rfl
@[simp] theorem State.upCore_stalled (s : State) (n : Nat) (f : Core → Core) : (s.upCore n f).stalled = s.stalled := rfl
@[simp] theorem State.upCore_cur (s : State) (n : Nat) (f : Core → Core) : (s.upCore n f).cur = s.cur := rfl
@[simp] theorem State.upCore_curCtx (s : State) (n : Nat) (f : Core → Core) : (s.upCore n f).curCtx = s.curCtx := rfl
@[simp] theorem State.upCore_draws (s : State) (n : Nat) (f : Core → Core) : (s.upCore n f).draws = s.draws := rfl
@[simp] theorem State.core_upCore_same (s : State) (n : Nat) (f : Core → Core) : (s.upCore n f).core n = f (s.core n) := by simp [State.upCore]
theorem State.core_upCore (s : State) (n m : Nat) (f : Core → Core) : (s.upCore n f).core m = if m = n then f (s.core n) else s.core m := by simp [State.upCore, State.core_setCore]
@[simp] theorem State.upC_hasCap (s : State) (f : Core → Core) : (s.upC f).hasCap = s.hasCap := rfl
@[simp] theorem State.upC_devNum (s : State) (f : Core → Core) : (s.upC f).devNum = s.devNum := rfl
@[simp] theorem State.upC_time (s : State) (f : Core → Core) : (s.upC f).time = s.time := rfl
@[simp] theorem State.upC_clusters (s : State) (f : Core → Core) : (s.upC f).clusters = s.clusters := rfl
@[simp] theorem State.upC_home (s : State) (f : Core → Core) : (s.upC f).home = s.home := rfl
@[simp] theorem State.upC_dist (s : State) (f : Core → Core) : (s.upC f).dist = s.dist := rfl
@[simp] theorem State.upC_power (s : State) (f : Core → Core) : (s.upC f).power = s.power := rfl
@[simp] theorem State.upC_host (s : State) (f : Core → Core) : (s.upC f).host = s.host := rfl
@[simp] theorem State.upC_feed (s : State) (f : Core → Core) : (s.upC f).feed = s.feed := rfl
@[simp] theorem State.upC_stalled (s : State) (f : Core → Core) : (s.upC f).stalled = s.stalled := rfl
@[simp] theorem State.upC_cur (s : State) (f : Core → Core) : (s.upC f).cur = s.cur := rfl
@[simp] theorem State.upC_curCtx (s : State) (f : Core → Core) : (s.upC f).curCtx = s.curCtx := rfl
@[simp] theorem State.upC_draws (s : State) (f : Core → Core) : (s.upC f).draws = s.draws := rfl
@[simp] theorem State.c_upC (s : State) (f : Core → Core) : (s.upC f).c = f s.c := by simp [State.c, State.upC]
theorem State.core_upC (s : State) (m : Nat) (f : Core → Core) : (s.upC f).core m = if m = s.cur then f s.c else s.core m := by simp [State.upC, State.core_upCore, State.c]
@[simp] theorem State.upX_hasCap (s : State) (f : Ctx → Ctx) : (s.upX f).hasCap = s.hasCap := rfl
@[simp] theorem State.upX_devNum (s : State) (f : Ctx → Ctx) : (s.upX f).devNum = s.devNum := rfl
@[simp] theorem State.upX_time (s : State) (f : Ctx → Ctx) : (s.upX f).time = s.time := rfl
@[simp] theorem State.upX_clusters (s : State) (f : Ctx → Ctx) : (s.upX f).clusters = s.clusters := rfl
@[simp] theorem State.upX_home (s : State) (f : Ctx → Ctx) : (s.upX f).home = s.home := rfl
@[simp] theorem State.upX_dist (s : State) (f : Ctx → Ctx) : (s.upX f).dist = s.dist := rfl
@[simp] theorem State.upX_power (s : State) (f : Ctx → Ctx) : (s.upX f).power = s.power := rfl
@[simp] theorem State.upX_host (s : State) (f : Ctx → Ctx) : (s.upX f).host = s.host := rfl
@[simp] theorem State.upX_feed (s : State) (f : Ctx → Ctx) : (s.upX f).feed = s.feed := rfl
@[simp] theorem State.upX_stalled (s : State) (f : Ctx → Ctx) : (s.upX f).stalled = s.stalled := rfl
@[simp] theorem State.upX_cur (s : State) (f : Ctx → Ctx) : (s.upX f).cur = s.cur := rfl
@[simp] theorem State.upX_curCtx (s : State) (f : Ctx → Ctx) : (s.upX f).curCtx = s.curCtx := rfl
@[simp] theorem State.upX_draws (s : State) (f : Ctx → Ctx) : (s.upX f).draws = s.draws := rfl
@[simp] theorem State.upM_hasCap (s : State) (f : CoreMem → CoreMem) : (s.upM f).hasCap = s.hasCap := rfl
@[simp] theorem State.upM_devNum (s : State) (f : CoreMem → CoreMem) : (s.upM f).devNum = s.devNum := rfl
@[simp] theorem State.upM_time (s : State) (f : CoreMem → CoreMem) : (s.upM f).time = s.time := rfl
@[simp] theorem State.upM_clusters (s : State) (f : CoreMem → CoreMem) : (s.upM f).clusters = s.clusters := rfl
@[simp] theorem State.upM_home (s : State) (f : CoreMem → CoreMem) : (s.upM f).home = s.home := rfl
@[simp] theorem State.upM_dist (s : State) (f : CoreMem → CoreMem) : (s.upM f).dist = s.dist := rfl
@[simp] theorem State.upM_power (s : State) (f : CoreMem → CoreMem) : (s.upM f).power = s.power := rfl
@[simp] theorem State.upM_host (s : State) (f : CoreMem → CoreMem) : (s.upM f).host = s.host := rfl
@[simp] theorem State.upM_feed (s : State) (f : CoreMem → CoreMem) : (s.upM f).feed = s.feed := rfl
@[simp] theorem State.upM_stalled (s : State) (f : CoreMem → CoreMem) : (s.upM f).stalled = s.stalled := rfl
@[simp] theorem State.upM_cur (s : State) (f : CoreMem → CoreMem) : (s.upM f).cur = s.cur := rfl
@[simp] theorem State.upM_curCtx (s : State) (f : CoreMem → CoreMem) : (s.upM f).curCtx = s.curCtx := rfl
@[simp] theorem State.upM_draws (s : State) (f : CoreMem → CoreMem) : (s.upM f).draws = s.draws := rfl

/-! ## Contexts and actors -/

@[simp] theorem Core.setCtx_actors (c : Core) (n : Nat) (x : Ctx) : (c.setCtx n x).actors = c.actors := rfl
@[simp] theorem Core.setCtx_m (c : Core) (n : Nat) (x : Ctx) : (c.setCtx n x).m = c.m := rfl
@[simp] theorem Core.setCtx_streams (c : Core) (n : Nat) (x : Ctx) : (c.setCtx n x).streams = c.streams := rfl
@[simp] theorem Core.setCtx_arr (c : Core) (n : Nat) (x : Ctx) : (c.setCtx n x).arr = c.arr := rfl
@[simp] theorem Core.setCtx_outbound (c : Core) (n : Nat) (x : Ctx) : (c.setCtx n x).outbound = c.outbound := rfl
@[simp] theorem Core.setCtx_overflow (c : Core) (n : Nat) (x : Ctx) : (c.setCtx n x).overflow = c.overflow := rfl
@[simp] theorem Core.setCtx_part (c : Core) (n : Nat) (x : Ctx) : (c.setCtx n x).part = c.part := rfl
@[simp] theorem Core.setCtx_tvec (c : Core) (n : Nat) (x : Ctx) : (c.setCtx n x).tvec = c.tvec := rfl
@[simp] theorem Core.setCtx_evt (c : Core) (n : Nat) (x : Ctx) : (c.setCtx n x).evt = c.evt := rfl
@[simp] theorem Core.setCtx_dbgsel (c : Core) (n : Nat) (x : Ctx) : (c.setCtx n x).dbgsel = c.dbgsel := rfl
@[simp] theorem Core.setCtx_counts (c : Core) (n : Nat) (x : Ctx) : (c.setCtx n x).counts = c.counts := rfl
@[simp] theorem Core.setCtx_failed (c : Core) (n : Nat) (x : Ctx) : (c.setCtx n x).failed = c.failed := rfl
@[simp] theorem Core.setCtx_throttled (c : Core) (n : Nat) (x : Ctx) : (c.setCtx n x).throttled = c.throttled := rfl
@[simp] theorem Core.ctx_setCtx_same (c : Core) (n : Nat) (x : Ctx) : (c.setCtx n x).ctx n = x := by simp [Core.ctx, Core.setCtx]
theorem Core.ctx_setCtx (c : Core) (n m : Nat) (x : Ctx) : (c.setCtx n x).ctx m = if m = n then x else c.ctx m := by simp [Core.ctx, Core.setCtx, tget_tset]
@[simp] theorem Core.actor_setCtx (c : Core) (n i : Nat) (x : Ctx) : (c.setCtx n x).actor i = c.actor i := rfl
@[simp] theorem Core.setActor_m (c : Core) (n : Nat) (a : Option Actor) : (c.setActor n a).m = c.m := rfl
@[simp] theorem Core.setActor_streams (c : Core) (n : Nat) (a : Option Actor) : (c.setActor n a).streams = c.streams := rfl
@[simp] theorem Core.setActor_arr (c : Core) (n : Nat) (a : Option Actor) : (c.setActor n a).arr = c.arr := rfl
@[simp] theorem Core.setActor_outbound (c : Core) (n : Nat) (a : Option Actor) : (c.setActor n a).outbound = c.outbound := rfl
@[simp] theorem Core.setActor_overflow (c : Core) (n : Nat) (a : Option Actor) : (c.setActor n a).overflow = c.overflow := rfl
@[simp] theorem Core.setActor_part (c : Core) (n : Nat) (a : Option Actor) : (c.setActor n a).part = c.part := rfl
@[simp] theorem Core.setActor_tvec (c : Core) (n : Nat) (a : Option Actor) : (c.setActor n a).tvec = c.tvec := rfl
@[simp] theorem Core.setActor_evt (c : Core) (n : Nat) (a : Option Actor) : (c.setActor n a).evt = c.evt := rfl
@[simp] theorem Core.setActor_dbgsel (c : Core) (n : Nat) (a : Option Actor) : (c.setActor n a).dbgsel = c.dbgsel := rfl
@[simp] theorem Core.setActor_counts (c : Core) (n : Nat) (a : Option Actor) : (c.setActor n a).counts = c.counts := rfl
@[simp] theorem Core.setActor_failed (c : Core) (n : Nat) (a : Option Actor) : (c.setActor n a).failed = c.failed := rfl
@[simp] theorem Core.setActor_throttled (c : Core) (n : Nat) (a : Option Actor) : (c.setActor n a).throttled = c.throttled := rfl
@[simp] theorem Core.ctx_setActor (c : Core) (n k : Nat) (a : Option Actor) : (c.setActor n a).ctx k = c.ctx k := rfl
@[simp] theorem Core.actor_setActor_same (c : Core) (n : Nat) (a : Option Actor) : (c.setActor n a).actor n = a := by simp [Core.actor, Core.setActor]
theorem Core.actor_setActor (c : Core) (n i : Nat) (a : Option Actor) : (c.setActor n a).actor i = if i = n then a else c.actor i := by simp [Core.actor, Core.setActor, tget_tset]
@[simp] theorem Core.count_actors (c : Core) (n k : Nat) : (c.count n k).actors = c.actors := rfl
@[simp] theorem Core.count_m (c : Core) (n k : Nat) : (c.count n k).m = c.m := rfl
@[simp] theorem Core.count_streams (c : Core) (n k : Nat) : (c.count n k).streams = c.streams := rfl
@[simp] theorem Core.count_arr (c : Core) (n k : Nat) : (c.count n k).arr = c.arr := rfl
@[simp] theorem Core.count_outbound (c : Core) (n k : Nat) : (c.count n k).outbound = c.outbound := rfl
@[simp] theorem Core.count_overflow (c : Core) (n k : Nat) : (c.count n k).overflow = c.overflow := rfl
@[simp] theorem Core.count_part (c : Core) (n k : Nat) : (c.count n k).part = c.part := rfl
@[simp] theorem Core.count_tvec (c : Core) (n k : Nat) : (c.count n k).tvec = c.tvec := rfl
@[simp] theorem Core.count_evt (c : Core) (n k : Nat) : (c.count n k).evt = c.evt := rfl
@[simp] theorem Core.count_dbgsel (c : Core) (n k : Nat) : (c.count n k).dbgsel = c.dbgsel := rfl
@[simp] theorem Core.count_failed (c : Core) (n k : Nat) : (c.count n k).failed = c.failed := rfl
@[simp] theorem Core.count_throttled (c : Core) (n k : Nat) : (c.count n k).throttled = c.throttled := rfl
@[simp] theorem Core.ctx_count (c : Core) (n k m : Nat) : (c.count n k).ctx m = c.ctx m := rfl
@[simp] theorem Core.actor_count (c : Core) (n k m : Nat) : (c.count n k).actor m = c.actor m := rfl
@[simp] theorem State.upX_c_actors (s : State) (f : Ctx → Ctx) : (s.upX f).c.actors = s.c.actors := by simp [State.upX]
@[simp] theorem State.upX_c_m (s : State) (f : Ctx → Ctx) : (s.upX f).c.m = s.c.m := by simp [State.upX]
@[simp] theorem State.upX_c_streams (s : State) (f : Ctx → Ctx) : (s.upX f).c.streams = s.c.streams := by simp [State.upX]
@[simp] theorem State.upX_c_arr (s : State) (f : Ctx → Ctx) : (s.upX f).c.arr = s.c.arr := by simp [State.upX]
@[simp] theorem State.upX_c_outbound (s : State) (f : Ctx → Ctx) : (s.upX f).c.outbound = s.c.outbound := by simp [State.upX]
@[simp] theorem State.upX_c_overflow (s : State) (f : Ctx → Ctx) : (s.upX f).c.overflow = s.c.overflow := by simp [State.upX]
@[simp] theorem State.upX_c_part (s : State) (f : Ctx → Ctx) : (s.upX f).c.part = s.c.part := by simp [State.upX]
@[simp] theorem State.upX_c_tvec (s : State) (f : Ctx → Ctx) : (s.upX f).c.tvec = s.c.tvec := by simp [State.upX]
@[simp] theorem State.upX_c_evt (s : State) (f : Ctx → Ctx) : (s.upX f).c.evt = s.c.evt := by simp [State.upX]
@[simp] theorem State.upX_c_dbgsel (s : State) (f : Ctx → Ctx) : (s.upX f).c.dbgsel = s.c.dbgsel := by simp [State.upX]
@[simp] theorem State.upX_c_counts (s : State) (f : Ctx → Ctx) : (s.upX f).c.counts = s.c.counts := by simp [State.upX]
@[simp] theorem State.upX_c_failed (s : State) (f : Ctx → Ctx) : (s.upX f).c.failed = s.c.failed := by simp [State.upX]
@[simp] theorem State.upX_c_throttled (s : State) (f : Ctx → Ctx) : (s.upX f).c.throttled = s.c.throttled := by simp [State.upX]
@[simp] theorem State.x_upX (s : State) (f : Ctx → Ctx) : (s.upX f).x = f s.x := by simp [State.x, State.upX]
@[simp] theorem State.actor_upX (s : State) (f : Ctx → Ctx) (i : Nat) : (s.upX f).c.actor i = s.c.actor i := by simp [State.upX]
@[simp] theorem State.x_upC_count (s : State) (n k : Nat) : (s.upC (·.count n k)).x = s.x := by simp [State.x]
@[simp] theorem State.upM_c_m (s : State) (f : CoreMem → CoreMem) : (s.upM f).c.m = f s.c.m := by simp [State.upM]
@[simp] theorem State.x_upM (s : State) (f : CoreMem → CoreMem) : (s.upM f).x = s.x := by simp [State.x, State.upM, Core.ctx]
@[simp] theorem State.actor_upM (s : State) (f : CoreMem → CoreMem) (i : Nat) : (s.upM f).c.actor i = s.c.actor i := by
  simp [State.upM, Core.actor]

/-! ## Registers -/

@[simp] theorem Regs.gv_zero (r : Regs) : r.gv 0 = 0 := rfl
@[simp] theorem Regs.gsl_zero (r : Regs) : r.gsl 0 = 0 := rfl
@[simp] theorem Regs.kv_zero (r : Regs) : r.kv 0 = BitVec.allOnes 32 := rfl
@[simp] theorem Regs.setG_zero (r : Regs) (w : Word) (sl : Byte) : r.setG 0 w sl = r := rfl
theorem Regs.gv_setG (r : Regs) (n m : Nat) (w : Word) (sl : Byte) : (r.setG n w sl).gv m = if m = n ∧ m ≠ 0 then w else r.gv m := by
  unfold Regs.setG Regs.gv
  by_cases h : m = 0
  · simp [h]
  · by_cases h2 : n = 0
    · have : ¬ m = n := fun h3 => h (h3.trans h2)
      simp [h, h2]
    · simp [h, h2, tget_tset]
theorem Regs.gsl_setG (r : Regs) (n m : Nat) (w : Word) (sl : Byte) : (r.setG n w sl).gsl m = if m = n ∧ m ≠ 0 then sl else r.gsl m := by
  unfold Regs.setG Regs.gsl
  by_cases h : m = 0
  · simp [h]
  · by_cases h2 : n = 0
    · have : ¬ m = n := fun h3 => h (h3.trans h2)
      simp [h, h2]
    · simp [h, h2, tget_tset]
@[simp] theorem Regs.vv_setG (r : Regs) (n m : Nat) (w : Word) (sl : Byte) : (r.setG n w sl).vv m = r.vv m := by
  unfold Regs.setG Regs.vv; split <;> rfl
@[simp] theorem Regs.vsl_setG (r : Regs) (n m : Nat) (w : Word) (sl : Byte) : (r.setG n w sl).vsl m = r.vsl m := by
  unfold Regs.setG Regs.vsl; split <;> rfl
@[simp] theorem Regs.kv_setG (r : Regs) (n m : Nat) (w : Word) (sl : Byte) : (r.setG n w sl).kv m = r.kv m := by
  unfold Regs.setG; split <;> rfl
@[simp] theorem Regs.gv_setV (r : Regs) (n m : Nat) (w : Vec) (sl : VSeals) : (r.setV n w sl).gv m = r.gv m := rfl
@[simp] theorem Regs.gsl_setV (r : Regs) (n m : Nat) (w : Vec) (sl : VSeals) : (r.setV n w sl).gsl m = r.gsl m := rfl
@[simp] theorem Regs.kv_setV (r : Regs) (n m : Nat) (w : Vec) (sl : VSeals) : (r.setV n w sl).kv m = r.kv m := rfl
theorem Regs.vv_setV (r : Regs) (n m : Nat) (w : Vec) (sl : VSeals) : (r.setV n w sl).vv m = if m = n then w else r.vv m := by
  simp [Regs.setV, Regs.vv, tget_tset]
theorem Regs.vsl_setV (r : Regs) (n m : Nat) (w : Vec) (sl : VSeals) : (r.setV n w sl).vsl m = if m = n then sl else r.vsl m := by
  simp [Regs.setV, Regs.vsl, tget_tset]
theorem Regs.kv_setK (r : Regs) (n m : Nat) (w : Mask) : (r.setK n w).kv m = if m = n ∧ m ≠ 0 then w else r.kv m := by
  unfold Regs.setK Regs.kv
  by_cases h : m = 0
  · simp [h]
  · by_cases h2 : n = 0
    · have : ¬ m = n := fun h3 => h (h3.trans h2)
      simp [h, h2]
    · simp [h, h2, tget_tset]
@[simp] theorem Regs.gv_setK (r : Regs) (n m : Nat) (w : Mask) : (r.setK n w).gv m = r.gv m := by
  unfold Regs.setK; split <;> rfl
@[simp] theorem Regs.gsl_setK (r : Regs) (n m : Nat) (w : Mask) : (r.setK n w).gsl m = r.gsl m := by
  unfold Regs.setK; split <;> rfl
@[simp] theorem Regs.vv_setK (r : Regs) (n m : Nat) (w : Mask) : (r.setK n w).vv m = r.vv m := by
  unfold Regs.setK Regs.vv; split <;> rfl
@[simp] theorem Regs.vsl_setK (r : Regs) (n m : Nat) (w : Mask) : (r.setK n w).vsl m = r.vsl m := by
  unfold Regs.setK Regs.vsl; split <;> rfl

/-! ## Results of instructions -/

@[simp] theorem Ctx.aged_loadG (x : Ctx) (n : Nat) : (x.aged n).loadG = x.loadG := rfl
@[simp] theorem Ctx.aged_swapWait (x : Ctx) (n : Nat) : (x.aged n).swapWait = x.swapWait := rfl
@[simp] theorem Ctx.aged_swait (x : Ctx) (n : Nat) : (x.aged n).swait = x.swait := rfl
@[simp] theorem Ctx.aged_fpx (x : Ctx) (n : Nat) : (x.aged n).fpx = x.fpx := rfl
@[simp] theorem Ctx.aged_pc (x : Ctx) (n : Nat) : (x.aged n).pc = x.pc := rfl
@[simp] theorem Ctx.aged_prevPc (x : Ctx) (n : Nat) : (x.aged n).prevPc = x.prevPc := rfl
@[simp] theorem Ctx.aged_loops (x : Ctx) (n : Nat) : (x.aged n).loops = x.loops := rfl
@[simp] theorem Ctx.aged_rstack (x : Ctx) (n : Nat) : (x.aged n).rstack = x.rstack := rfl
@[simp] theorem Ctx.aged_rspTop (x : Ctx) (n : Nat) : (x.aged n).rspTop = x.rspTop := rfl
@[simp] theorem Ctx.aged_bbData (x : Ctx) (n : Nat) : (x.aged n).bbData = x.bbData := rfl
@[simp] theorem Ctx.aged_bbPos (x : Ctx) (n : Nat) : (x.aged n).bbPos = x.bbPos := rfl
@[simp] theorem Ctx.aged_rs (x : Ctx) (n : Nat) : (x.aged n).rs = x.rs := rfl
@[simp] theorem Ctx.aged_bp (x : Ctx) (n : Nat) : (x.aged n).bp = x.bp := rfl
@[simp] theorem Ctx.aged_trap (x : Ctx) (n : Nat) : (x.aged n).trap = x.trap := rfl
@[simp] theorem Ctx.aged_firing (x : Ctx) (n : Nat) : (x.aged n).firing = x.firing := rfl
@[simp] theorem Ctx.aged_mbTrap (x : Ctx) (n : Nat) : (x.aged n).mbTrap = x.mbTrap := rfl
@[simp] theorem Ctx.aged_halted (x : Ctx) (n : Nat) : (x.aged n).halted = x.halted := rfl
@[simp] theorem Ctx.aged_dead (x : Ctx) (n : Nat) : (x.aged n).dead = x.dead := rfl
@[simp] theorem Ctx.aged_barvSent (x : Ctx) (n : Nat) : (x.aged n).barvSent = x.barvSent := rfl
@[simp] theorem Ctx.aged_waitw (x : Ctx) (n : Nat) : (x.aged n).waitw = x.waitw := rfl
@[simp] theorem Ctx.aged_heldWait (x : Ctx) (n : Nat) : (x.aged n).heldWait = x.heldWait := rfl
@[simp] theorem Ctx.aged_lost (x : Ctx) (n : Nat) : (x.aged n).lost = x.lost := rfl
@[simp] theorem Ctx.aged_regs (x : Ctx) (n : Nat) : (x.aged n).regs = x.regs := rfl
@[simp] theorem Ctx.aged_varp (x : Ctx) (n : Nat) : (x.aged n).varp = x.varp := rfl
@[simp] theorem Ctx.wrFixed_loadG (x : Ctx) (lat : Nat) (i : RegId) (w : Vec) (sl : VSeals) : (x.wrFixed lat i w sl).loadG = x.loadG := by unfold Ctx.wrFixed; split <;> rfl
@[simp] theorem Ctx.wrFixed_swapWait (x : Ctx) (lat : Nat) (i : RegId) (w : Vec) (sl : VSeals) : (x.wrFixed lat i w sl).swapWait = x.swapWait := by unfold Ctx.wrFixed; split <;> rfl
@[simp] theorem Ctx.wrFixed_swait (x : Ctx) (lat : Nat) (i : RegId) (w : Vec) (sl : VSeals) : (x.wrFixed lat i w sl).swait = x.swait := by unfold Ctx.wrFixed; split <;> rfl
@[simp] theorem Ctx.wrFixed_fpx (x : Ctx) (lat : Nat) (i : RegId) (w : Vec) (sl : VSeals) : (x.wrFixed lat i w sl).fpx = x.fpx := by unfold Ctx.wrFixed; split <;> rfl
@[simp] theorem Ctx.wrFixed_pc (x : Ctx) (lat : Nat) (i : RegId) (w : Vec) (sl : VSeals) : (x.wrFixed lat i w sl).pc = x.pc := by unfold Ctx.wrFixed; split <;> rfl
@[simp] theorem Ctx.wrFixed_prevPc (x : Ctx) (lat : Nat) (i : RegId) (w : Vec) (sl : VSeals) : (x.wrFixed lat i w sl).prevPc = x.prevPc := by unfold Ctx.wrFixed; split <;> rfl
@[simp] theorem Ctx.wrFixed_loops (x : Ctx) (lat : Nat) (i : RegId) (w : Vec) (sl : VSeals) : (x.wrFixed lat i w sl).loops = x.loops := by unfold Ctx.wrFixed; split <;> rfl
@[simp] theorem Ctx.wrFixed_rstack (x : Ctx) (lat : Nat) (i : RegId) (w : Vec) (sl : VSeals) : (x.wrFixed lat i w sl).rstack = x.rstack := by unfold Ctx.wrFixed; split <;> rfl
@[simp] theorem Ctx.wrFixed_rspTop (x : Ctx) (lat : Nat) (i : RegId) (w : Vec) (sl : VSeals) : (x.wrFixed lat i w sl).rspTop = x.rspTop := by unfold Ctx.wrFixed; split <;> rfl
@[simp] theorem Ctx.wrFixed_bbData (x : Ctx) (lat : Nat) (i : RegId) (w : Vec) (sl : VSeals) : (x.wrFixed lat i w sl).bbData = x.bbData := by unfold Ctx.wrFixed; split <;> rfl
@[simp] theorem Ctx.wrFixed_bbPos (x : Ctx) (lat : Nat) (i : RegId) (w : Vec) (sl : VSeals) : (x.wrFixed lat i w sl).bbPos = x.bbPos := by unfold Ctx.wrFixed; split <;> rfl
@[simp] theorem Ctx.wrFixed_rs (x : Ctx) (lat : Nat) (i : RegId) (w : Vec) (sl : VSeals) : (x.wrFixed lat i w sl).rs = x.rs := by unfold Ctx.wrFixed; split <;> rfl
@[simp] theorem Ctx.wrFixed_bp (x : Ctx) (lat : Nat) (i : RegId) (w : Vec) (sl : VSeals) : (x.wrFixed lat i w sl).bp = x.bp := by unfold Ctx.wrFixed; split <;> rfl
@[simp] theorem Ctx.wrFixed_trap (x : Ctx) (lat : Nat) (i : RegId) (w : Vec) (sl : VSeals) : (x.wrFixed lat i w sl).trap = x.trap := by unfold Ctx.wrFixed; split <;> rfl
@[simp] theorem Ctx.wrFixed_firing (x : Ctx) (lat : Nat) (i : RegId) (w : Vec) (sl : VSeals) : (x.wrFixed lat i w sl).firing = x.firing := by unfold Ctx.wrFixed; split <;> rfl
@[simp] theorem Ctx.wrFixed_mbTrap (x : Ctx) (lat : Nat) (i : RegId) (w : Vec) (sl : VSeals) : (x.wrFixed lat i w sl).mbTrap = x.mbTrap := by unfold Ctx.wrFixed; split <;> rfl
@[simp] theorem Ctx.wrFixed_halted (x : Ctx) (lat : Nat) (i : RegId) (w : Vec) (sl : VSeals) : (x.wrFixed lat i w sl).halted = x.halted := by unfold Ctx.wrFixed; split <;> rfl
@[simp] theorem Ctx.wrFixed_dead (x : Ctx) (lat : Nat) (i : RegId) (w : Vec) (sl : VSeals) : (x.wrFixed lat i w sl).dead = x.dead := by unfold Ctx.wrFixed; split <;> rfl
@[simp] theorem Ctx.wrFixed_barvSent (x : Ctx) (lat : Nat) (i : RegId) (w : Vec) (sl : VSeals) : (x.wrFixed lat i w sl).barvSent = x.barvSent := by unfold Ctx.wrFixed; split <;> rfl
@[simp] theorem Ctx.wrFixed_waitw (x : Ctx) (lat : Nat) (i : RegId) (w : Vec) (sl : VSeals) : (x.wrFixed lat i w sl).waitw = x.waitw := by unfold Ctx.wrFixed; split <;> rfl
@[simp] theorem Ctx.wrFixed_heldWait (x : Ctx) (lat : Nat) (i : RegId) (w : Vec) (sl : VSeals) : (x.wrFixed lat i w sl).heldWait = x.heldWait := by unfold Ctx.wrFixed; split <;> rfl
@[simp] theorem Ctx.wrFixed_lost (x : Ctx) (lat : Nat) (i : RegId) (w : Vec) (sl : VSeals) : (x.wrFixed lat i w sl).lost = x.lost := by unfold Ctx.wrFixed; split <;> rfl
@[simp] theorem Ctx.wrVar_loadG (x : Ctx) (i : RegId) (w : Vec) (sl : VSeals) : (x.wrVar i w sl).loadG = x.loadG := by unfold Ctx.wrVar; split <;> rfl
@[simp] theorem Ctx.wrVar_swapWait (x : Ctx) (i : RegId) (w : Vec) (sl : VSeals) : (x.wrVar i w sl).swapWait = x.swapWait := by unfold Ctx.wrVar; split <;> rfl
@[simp] theorem Ctx.wrVar_swait (x : Ctx) (i : RegId) (w : Vec) (sl : VSeals) : (x.wrVar i w sl).swait = x.swait := by unfold Ctx.wrVar; split <;> rfl
@[simp] theorem Ctx.wrVar_fpx (x : Ctx) (i : RegId) (w : Vec) (sl : VSeals) : (x.wrVar i w sl).fpx = x.fpx := by unfold Ctx.wrVar; split <;> rfl
@[simp] theorem Ctx.wrVar_pc (x : Ctx) (i : RegId) (w : Vec) (sl : VSeals) : (x.wrVar i w sl).pc = x.pc := by unfold Ctx.wrVar; split <;> rfl
@[simp] theorem Ctx.wrVar_prevPc (x : Ctx) (i : RegId) (w : Vec) (sl : VSeals) : (x.wrVar i w sl).prevPc = x.prevPc := by unfold Ctx.wrVar; split <;> rfl
@[simp] theorem Ctx.wrVar_loops (x : Ctx) (i : RegId) (w : Vec) (sl : VSeals) : (x.wrVar i w sl).loops = x.loops := by unfold Ctx.wrVar; split <;> rfl
@[simp] theorem Ctx.wrVar_rstack (x : Ctx) (i : RegId) (w : Vec) (sl : VSeals) : (x.wrVar i w sl).rstack = x.rstack := by unfold Ctx.wrVar; split <;> rfl
@[simp] theorem Ctx.wrVar_rspTop (x : Ctx) (i : RegId) (w : Vec) (sl : VSeals) : (x.wrVar i w sl).rspTop = x.rspTop := by unfold Ctx.wrVar; split <;> rfl
@[simp] theorem Ctx.wrVar_bbData (x : Ctx) (i : RegId) (w : Vec) (sl : VSeals) : (x.wrVar i w sl).bbData = x.bbData := by unfold Ctx.wrVar; split <;> rfl
@[simp] theorem Ctx.wrVar_bbPos (x : Ctx) (i : RegId) (w : Vec) (sl : VSeals) : (x.wrVar i w sl).bbPos = x.bbPos := by unfold Ctx.wrVar; split <;> rfl
@[simp] theorem Ctx.wrVar_rs (x : Ctx) (i : RegId) (w : Vec) (sl : VSeals) : (x.wrVar i w sl).rs = x.rs := by unfold Ctx.wrVar; split <;> rfl
@[simp] theorem Ctx.wrVar_bp (x : Ctx) (i : RegId) (w : Vec) (sl : VSeals) : (x.wrVar i w sl).bp = x.bp := by unfold Ctx.wrVar; split <;> rfl
@[simp] theorem Ctx.wrVar_trap (x : Ctx) (i : RegId) (w : Vec) (sl : VSeals) : (x.wrVar i w sl).trap = x.trap := by unfold Ctx.wrVar; split <;> rfl
@[simp] theorem Ctx.wrVar_firing (x : Ctx) (i : RegId) (w : Vec) (sl : VSeals) : (x.wrVar i w sl).firing = x.firing := by unfold Ctx.wrVar; split <;> rfl
@[simp] theorem Ctx.wrVar_mbTrap (x : Ctx) (i : RegId) (w : Vec) (sl : VSeals) : (x.wrVar i w sl).mbTrap = x.mbTrap := by unfold Ctx.wrVar; split <;> rfl
@[simp] theorem Ctx.wrVar_halted (x : Ctx) (i : RegId) (w : Vec) (sl : VSeals) : (x.wrVar i w sl).halted = x.halted := by unfold Ctx.wrVar; split <;> rfl
@[simp] theorem Ctx.wrVar_dead (x : Ctx) (i : RegId) (w : Vec) (sl : VSeals) : (x.wrVar i w sl).dead = x.dead := by unfold Ctx.wrVar; split <;> rfl
@[simp] theorem Ctx.wrVar_barvSent (x : Ctx) (i : RegId) (w : Vec) (sl : VSeals) : (x.wrVar i w sl).barvSent = x.barvSent := by unfold Ctx.wrVar; split <;> rfl
@[simp] theorem Ctx.wrVar_waitw (x : Ctx) (i : RegId) (w : Vec) (sl : VSeals) : (x.wrVar i w sl).waitw = x.waitw := by unfold Ctx.wrVar; split <;> rfl
@[simp] theorem Ctx.wrVar_heldWait (x : Ctx) (i : RegId) (w : Vec) (sl : VSeals) : (x.wrVar i w sl).heldWait = x.heldWait := by unfold Ctx.wrVar; split <;> rfl
@[simp] theorem Ctx.wrVar_lost (x : Ctx) (i : RegId) (w : Vec) (sl : VSeals) : (x.wrVar i w sl).lost = x.lost := by unfold Ctx.wrVar; split <;> rfl
@[simp] theorem Ctx.wrLate_loadG (x : Ctx) (id : Nat) (i : RegId) (res : Option (Vec × VSeals)) : (x.wrLate id i res).loadG = x.loadG := by unfold Ctx.wrLate; split <;> rfl
@[simp] theorem Ctx.wrLate_swapWait (x : Ctx) (id : Nat) (i : RegId) (res : Option (Vec × VSeals)) : (x.wrLate id i res).swapWait = x.swapWait := by unfold Ctx.wrLate; split <;> rfl
@[simp] theorem Ctx.wrLate_swait (x : Ctx) (id : Nat) (i : RegId) (res : Option (Vec × VSeals)) : (x.wrLate id i res).swait = x.swait := by unfold Ctx.wrLate; split <;> rfl
@[simp] theorem Ctx.wrLate_fpx (x : Ctx) (id : Nat) (i : RegId) (res : Option (Vec × VSeals)) : (x.wrLate id i res).fpx = x.fpx := by unfold Ctx.wrLate; split <;> rfl
@[simp] theorem Ctx.wrLate_pc (x : Ctx) (id : Nat) (i : RegId) (res : Option (Vec × VSeals)) : (x.wrLate id i res).pc = x.pc := by unfold Ctx.wrLate; split <;> rfl
@[simp] theorem Ctx.wrLate_prevPc (x : Ctx) (id : Nat) (i : RegId) (res : Option (Vec × VSeals)) : (x.wrLate id i res).prevPc = x.prevPc := by unfold Ctx.wrLate; split <;> rfl
@[simp] theorem Ctx.wrLate_loops (x : Ctx) (id : Nat) (i : RegId) (res : Option (Vec × VSeals)) : (x.wrLate id i res).loops = x.loops := by unfold Ctx.wrLate; split <;> rfl
@[simp] theorem Ctx.wrLate_rstack (x : Ctx) (id : Nat) (i : RegId) (res : Option (Vec × VSeals)) : (x.wrLate id i res).rstack = x.rstack := by unfold Ctx.wrLate; split <;> rfl
@[simp] theorem Ctx.wrLate_rspTop (x : Ctx) (id : Nat) (i : RegId) (res : Option (Vec × VSeals)) : (x.wrLate id i res).rspTop = x.rspTop := by unfold Ctx.wrLate; split <;> rfl
@[simp] theorem Ctx.wrLate_bbData (x : Ctx) (id : Nat) (i : RegId) (res : Option (Vec × VSeals)) : (x.wrLate id i res).bbData = x.bbData := by unfold Ctx.wrLate; split <;> rfl
@[simp] theorem Ctx.wrLate_bbPos (x : Ctx) (id : Nat) (i : RegId) (res : Option (Vec × VSeals)) : (x.wrLate id i res).bbPos = x.bbPos := by unfold Ctx.wrLate; split <;> rfl
@[simp] theorem Ctx.wrLate_rs (x : Ctx) (id : Nat) (i : RegId) (res : Option (Vec × VSeals)) : (x.wrLate id i res).rs = x.rs := by unfold Ctx.wrLate; split <;> rfl
@[simp] theorem Ctx.wrLate_bp (x : Ctx) (id : Nat) (i : RegId) (res : Option (Vec × VSeals)) : (x.wrLate id i res).bp = x.bp := by unfold Ctx.wrLate; split <;> rfl
@[simp] theorem Ctx.wrLate_trap (x : Ctx) (id : Nat) (i : RegId) (res : Option (Vec × VSeals)) : (x.wrLate id i res).trap = x.trap := by unfold Ctx.wrLate; split <;> rfl
@[simp] theorem Ctx.wrLate_firing (x : Ctx) (id : Nat) (i : RegId) (res : Option (Vec × VSeals)) : (x.wrLate id i res).firing = x.firing := by unfold Ctx.wrLate; split <;> rfl
@[simp] theorem Ctx.wrLate_mbTrap (x : Ctx) (id : Nat) (i : RegId) (res : Option (Vec × VSeals)) : (x.wrLate id i res).mbTrap = x.mbTrap := by unfold Ctx.wrLate; split <;> rfl
@[simp] theorem Ctx.wrLate_halted (x : Ctx) (id : Nat) (i : RegId) (res : Option (Vec × VSeals)) : (x.wrLate id i res).halted = x.halted := by unfold Ctx.wrLate; split <;> rfl
@[simp] theorem Ctx.wrLate_dead (x : Ctx) (id : Nat) (i : RegId) (res : Option (Vec × VSeals)) : (x.wrLate id i res).dead = x.dead := by unfold Ctx.wrLate; split <;> rfl
@[simp] theorem Ctx.wrLate_barvSent (x : Ctx) (id : Nat) (i : RegId) (res : Option (Vec × VSeals)) : (x.wrLate id i res).barvSent = x.barvSent := by unfold Ctx.wrLate; split <;> rfl
@[simp] theorem Ctx.wrLate_waitw (x : Ctx) (id : Nat) (i : RegId) (res : Option (Vec × VSeals)) : (x.wrLate id i res).waitw = x.waitw := by unfold Ctx.wrLate; split <;> rfl
@[simp] theorem Ctx.wrLate_heldWait (x : Ctx) (id : Nat) (i : RegId) (res : Option (Vec × VSeals)) : (x.wrLate id i res).heldWait = x.heldWait := by unfold Ctx.wrLate; split <;> rfl
@[simp] theorem Ctx.wrLate_lost (x : Ctx) (id : Nat) (i : RegId) (res : Option (Vec × VSeals)) : (x.wrLate id i res).lost = x.lost := by unfold Ctx.wrLate; split <;> rfl
@[simp] theorem Ctx.wrLate_regs (x : Ctx) (id : Nat) (i : RegId) (res : Option (Vec × VSeals)) : (x.wrLate id i res).regs = x.regs := by unfold Ctx.wrLate; split <;> rfl

/-! ## Transfers and traps -/

@[simp] theorem State.sequel_hasCap (s : State) (p q : Word) : (s.sequel p q).hasCap = s.hasCap := rfl
@[simp] theorem State.retired_hasCap (s : State) (n : Nat) : (s.retired n).hasCap = s.hasCap := rfl
@[simp] theorem State.jumped_hasCap (s : State) (t : Word) : (s.jumped t).hasCap = s.hasCap := rfl
@[simp] theorem State.called_hasCap (s : State) (t : Word) : (s.called t).hasCap = s.hasCap := rfl
@[simp] theorem State.sequel_devNum (s : State) (p q : Word) : (s.sequel p q).devNum = s.devNum := rfl
@[simp] theorem State.retired_devNum (s : State) (n : Nat) : (s.retired n).devNum = s.devNum := rfl
@[simp] theorem State.jumped_devNum (s : State) (t : Word) : (s.jumped t).devNum = s.devNum := rfl
@[simp] theorem State.called_devNum (s : State) (t : Word) : (s.called t).devNum = s.devNum := rfl
@[simp] theorem State.sequel_time (s : State) (p q : Word) : (s.sequel p q).time = s.time := rfl
@[simp] theorem State.retired_time (s : State) (n : Nat) : (s.retired n).time = s.time := rfl
@[simp] theorem State.jumped_time (s : State) (t : Word) : (s.jumped t).time = s.time := rfl
@[simp] theorem State.called_time (s : State) (t : Word) : (s.called t).time = s.time := rfl
@[simp] theorem State.sequel_clusters (s : State) (p q : Word) : (s.sequel p q).clusters = s.clusters := rfl
@[simp] theorem State.retired_clusters (s : State) (n : Nat) : (s.retired n).clusters = s.clusters := rfl
@[simp] theorem State.jumped_clusters (s : State) (t : Word) : (s.jumped t).clusters = s.clusters := rfl
@[simp] theorem State.called_clusters (s : State) (t : Word) : (s.called t).clusters = s.clusters := rfl
@[simp] theorem State.sequel_home (s : State) (p q : Word) : (s.sequel p q).home = s.home := rfl
@[simp] theorem State.retired_home (s : State) (n : Nat) : (s.retired n).home = s.home := rfl
@[simp] theorem State.jumped_home (s : State) (t : Word) : (s.jumped t).home = s.home := rfl
@[simp] theorem State.called_home (s : State) (t : Word) : (s.called t).home = s.home := rfl
@[simp] theorem State.sequel_dist (s : State) (p q : Word) : (s.sequel p q).dist = s.dist := rfl
@[simp] theorem State.retired_dist (s : State) (n : Nat) : (s.retired n).dist = s.dist := rfl
@[simp] theorem State.jumped_dist (s : State) (t : Word) : (s.jumped t).dist = s.dist := rfl
@[simp] theorem State.called_dist (s : State) (t : Word) : (s.called t).dist = s.dist := rfl
@[simp] theorem State.sequel_power (s : State) (p q : Word) : (s.sequel p q).power = s.power := rfl
@[simp] theorem State.retired_power (s : State) (n : Nat) : (s.retired n).power = s.power := rfl
@[simp] theorem State.jumped_power (s : State) (t : Word) : (s.jumped t).power = s.power := rfl
@[simp] theorem State.called_power (s : State) (t : Word) : (s.called t).power = s.power := rfl
@[simp] theorem State.sequel_host (s : State) (p q : Word) : (s.sequel p q).host = s.host := rfl
@[simp] theorem State.retired_host (s : State) (n : Nat) : (s.retired n).host = s.host := rfl
@[simp] theorem State.jumped_host (s : State) (t : Word) : (s.jumped t).host = s.host := rfl
@[simp] theorem State.called_host (s : State) (t : Word) : (s.called t).host = s.host := rfl
@[simp] theorem State.sequel_feed (s : State) (p q : Word) : (s.sequel p q).feed = s.feed := rfl
@[simp] theorem State.retired_feed (s : State) (n : Nat) : (s.retired n).feed = s.feed := rfl
@[simp] theorem State.jumped_feed (s : State) (t : Word) : (s.jumped t).feed = s.feed := rfl
@[simp] theorem State.called_feed (s : State) (t : Word) : (s.called t).feed = s.feed := rfl
@[simp] theorem State.sequel_stalled (s : State) (p q : Word) : (s.sequel p q).stalled = s.stalled := rfl
@[simp] theorem State.retired_stalled (s : State) (n : Nat) : (s.retired n).stalled = s.stalled := rfl
@[simp] theorem State.jumped_stalled (s : State) (t : Word) : (s.jumped t).stalled = s.stalled := rfl
@[simp] theorem State.called_stalled (s : State) (t : Word) : (s.called t).stalled = s.stalled := rfl
@[simp] theorem State.sequel_cur (s : State) (p q : Word) : (s.sequel p q).cur = s.cur := rfl
@[simp] theorem State.retired_cur (s : State) (n : Nat) : (s.retired n).cur = s.cur := rfl
@[simp] theorem State.jumped_cur (s : State) (t : Word) : (s.jumped t).cur = s.cur := rfl
@[simp] theorem State.called_cur (s : State) (t : Word) : (s.called t).cur = s.cur := rfl
@[simp] theorem State.sequel_curCtx (s : State) (p q : Word) : (s.sequel p q).curCtx = s.curCtx := rfl
@[simp] theorem State.retired_curCtx (s : State) (n : Nat) : (s.retired n).curCtx = s.curCtx := rfl
@[simp] theorem State.jumped_curCtx (s : State) (t : Word) : (s.jumped t).curCtx = s.curCtx := rfl
@[simp] theorem State.called_curCtx (s : State) (t : Word) : (s.called t).curCtx = s.curCtx := rfl
@[simp] theorem State.sequel_draws (s : State) (p q : Word) : (s.sequel p q).draws = s.draws := rfl
@[simp] theorem State.retired_draws (s : State) (n : Nat) : (s.retired n).draws = s.draws := rfl
@[simp] theorem State.jumped_draws (s : State) (t : Word) : (s.jumped t).draws = s.draws := rfl
@[simp] theorem State.called_draws (s : State) (t : Word) : (s.called t).draws = s.draws := rfl
@[simp] theorem State.retired_x_regs (s : State) (n : Nat) : (s.retired n).x.regs = s.x.regs := by simp [State.retired, State.sequel]
@[simp] theorem State.retired_x_fpx (s : State) (n : Nat) : (s.retired n).x.fpx = s.x.fpx := by simp [State.retired, State.sequel]
@[simp] theorem State.retired_x_rstack (s : State) (n : Nat) : (s.retired n).x.rstack = s.x.rstack := by simp [State.retired, State.sequel]
@[simp] theorem State.retired_x_rspTop (s : State) (n : Nat) : (s.retired n).x.rspTop = s.x.rspTop := by simp [State.retired, State.sequel]
@[simp] theorem State.retired_x_bbData (s : State) (n : Nat) : (s.retired n).x.bbData = s.x.bbData := by simp [State.retired, State.sequel]
@[simp] theorem State.retired_x_bbPos (s : State) (n : Nat) : (s.retired n).x.bbPos = s.x.bbPos := by simp [State.retired, State.sequel]
@[simp] theorem State.retired_x_pend (s : State) (n : Nat) : (s.retired n).x.pend = s.x.pend := by simp [State.retired, State.sequel]
@[simp] theorem State.retired_x_varp (s : State) (n : Nat) : (s.retired n).x.varp = s.x.varp := by simp [State.retired, State.sequel]
@[simp] theorem State.retired_x_rs (s : State) (n : Nat) : (s.retired n).x.rs = s.x.rs := by simp [State.retired, State.sequel]
@[simp] theorem State.retired_x_bp (s : State) (n : Nat) : (s.retired n).x.bp = s.x.bp := by simp [State.retired, State.sequel]
@[simp] theorem State.retired_x_trap (s : State) (n : Nat) : (s.retired n).x.trap = s.x.trap := by simp [State.retired, State.sequel]
@[simp] theorem State.retired_x_firing (s : State) (n : Nat) : (s.retired n).x.firing = s.x.firing := by simp [State.retired, State.sequel]
@[simp] theorem State.retired_x_mbTrap (s : State) (n : Nat) : (s.retired n).x.mbTrap = s.x.mbTrap := by simp [State.retired, State.sequel]
@[simp] theorem State.retired_x_halted (s : State) (n : Nat) : (s.retired n).x.halted = s.x.halted := by simp [State.retired, State.sequel]
@[simp] theorem State.retired_x_dead (s : State) (n : Nat) : (s.retired n).x.dead = s.x.dead := by simp [State.retired, State.sequel]
@[simp] theorem State.retired_x_barvSent (s : State) (n : Nat) : (s.retired n).x.barvSent = none := by simp [State.retired, State.sequel]
@[simp] theorem State.retired_x_waitw (s : State) (n : Nat) : (s.retired n).x.waitw = none := by simp [State.retired, State.sequel]
@[simp] theorem State.retired_x_heldWait (s : State) (n : Nat) : (s.retired n).x.heldWait = s.x.heldWait := by simp [State.retired, State.sequel]
@[simp] theorem State.retired_x_lost (s : State) (n : Nat) : (s.retired n).x.lost = s.x.lost := by simp [State.retired, State.sequel]
@[simp] theorem State.retired_x_loadG (s : State) (n : Nat) : (s.retired n).x.loadG = none := by simp [State.retired, State.sequel]
@[simp] theorem State.retired_x_swapWait (s : State) (n : Nat) : (s.retired n).x.swapWait = false := by simp [State.retired, State.sequel]
@[simp] theorem State.retired_x_swait (s : State) (n : Nat) : (s.retired n).x.swait = none := by simp [State.retired, State.sequel]
@[simp] theorem State.retired_c_actors (s : State) (n : Nat) : (s.retired n).c.actors = s.c.actors := by simp [State.retired, State.sequel]
@[simp] theorem State.retired_c_m (s : State) (n : Nat) : (s.retired n).c.m = s.c.m := by simp [State.retired, State.sequel]
@[simp] theorem State.retired_c_streams (s : State) (n : Nat) : (s.retired n).c.streams = s.c.streams := by simp [State.retired, State.sequel]
@[simp] theorem State.retired_c_arr (s : State) (n : Nat) : (s.retired n).c.arr = s.c.arr := by simp [State.retired, State.sequel]
@[simp] theorem State.retired_c_outbound (s : State) (n : Nat) : (s.retired n).c.outbound = s.c.outbound := by simp [State.retired, State.sequel]
@[simp] theorem State.retired_c_overflow (s : State) (n : Nat) : (s.retired n).c.overflow = s.c.overflow := by simp [State.retired, State.sequel]
@[simp] theorem State.retired_c_part (s : State) (n : Nat) : (s.retired n).c.part = s.c.part := by simp [State.retired, State.sequel]
@[simp] theorem State.retired_c_tvec (s : State) (n : Nat) : (s.retired n).c.tvec = s.c.tvec := by simp [State.retired, State.sequel]
@[simp] theorem State.retired_c_evt (s : State) (n : Nat) : (s.retired n).c.evt = s.c.evt := by simp [State.retired, State.sequel]
@[simp] theorem State.retired_c_dbgsel (s : State) (n : Nat) : (s.retired n).c.dbgsel = s.c.dbgsel := by simp [State.retired, State.sequel]
@[simp] theorem State.retired_c_failed (s : State) (n : Nat) : (s.retired n).c.failed = s.c.failed := by simp [State.retired, State.sequel]
@[simp] theorem State.retired_c_throttled (s : State) (n : Nat) : (s.retired n).c.throttled = s.c.throttled := by simp [State.retired, State.sequel]
@[simp] theorem State.jumped_x_regs (s : State) (n : Word) : (s.jumped n).x.regs = s.x.regs := by simp [State.jumped]
@[simp] theorem State.jumped_x_fpx (s : State) (n : Word) : (s.jumped n).x.fpx = s.x.fpx := by simp [State.jumped]
@[simp] theorem State.jumped_x_rstack (s : State) (n : Word) : (s.jumped n).x.rstack = s.x.rstack := by simp [State.jumped]
@[simp] theorem State.jumped_x_rspTop (s : State) (n : Word) : (s.jumped n).x.rspTop = s.x.rspTop := by simp [State.jumped]
@[simp] theorem State.jumped_x_bbData (s : State) (n : Word) : (s.jumped n).x.bbData = s.x.bbData := by simp [State.jumped]
@[simp] theorem State.jumped_x_bbPos (s : State) (n : Word) : (s.jumped n).x.bbPos = s.x.bbPos := by simp [State.jumped]
@[simp] theorem State.jumped_x_pend (s : State) (n : Word) : (s.jumped n).x.pend = s.x.pend := by simp [State.jumped]
@[simp] theorem State.jumped_x_varp (s : State) (n : Word) : (s.jumped n).x.varp = s.x.varp := by simp [State.jumped]
@[simp] theorem State.jumped_x_rs (s : State) (n : Word) : (s.jumped n).x.rs = s.x.rs := by simp [State.jumped]
@[simp] theorem State.jumped_x_bp (s : State) (n : Word) : (s.jumped n).x.bp = s.x.bp := by simp [State.jumped]
@[simp] theorem State.jumped_x_trap (s : State) (n : Word) : (s.jumped n).x.trap = s.x.trap := by simp [State.jumped]
@[simp] theorem State.jumped_x_firing (s : State) (n : Word) : (s.jumped n).x.firing = s.x.firing := by simp [State.jumped]
@[simp] theorem State.jumped_x_mbTrap (s : State) (n : Word) : (s.jumped n).x.mbTrap = s.x.mbTrap := by simp [State.jumped]
@[simp] theorem State.jumped_x_halted (s : State) (n : Word) : (s.jumped n).x.halted = s.x.halted := by simp [State.jumped]
@[simp] theorem State.jumped_x_dead (s : State) (n : Word) : (s.jumped n).x.dead = s.x.dead := by simp [State.jumped]
@[simp] theorem State.jumped_x_barvSent (s : State) (n : Word) : (s.jumped n).x.barvSent = none := by simp [State.jumped]
@[simp] theorem State.jumped_x_waitw (s : State) (n : Word) : (s.jumped n).x.waitw = none := by simp [State.jumped]
@[simp] theorem State.jumped_x_heldWait (s : State) (n : Word) : (s.jumped n).x.heldWait = s.x.heldWait := by simp [State.jumped]
@[simp] theorem State.jumped_x_lost (s : State) (n : Word) : (s.jumped n).x.lost = s.x.lost := by simp [State.jumped]
@[simp] theorem State.jumped_x_loadG (s : State) (n : Word) : (s.jumped n).x.loadG = s.x.loadG := by simp [State.jumped]
@[simp] theorem State.jumped_x_swapWait (s : State) (n : Word) : (s.jumped n).x.swapWait = s.x.swapWait := by simp [State.jumped]
@[simp] theorem State.jumped_x_swait (s : State) (n : Word) : (s.jumped n).x.swait = s.x.swait := by simp [State.jumped]
@[simp] theorem State.jumped_c_actors (s : State) (n : Word) : (s.jumped n).c.actors = s.c.actors := by simp [State.jumped]
@[simp] theorem State.jumped_c_m (s : State) (n : Word) : (s.jumped n).c.m = s.c.m := by simp [State.jumped]
@[simp] theorem State.jumped_c_streams (s : State) (n : Word) : (s.jumped n).c.streams = s.c.streams := by simp [State.jumped]
@[simp] theorem State.jumped_c_arr (s : State) (n : Word) : (s.jumped n).c.arr = s.c.arr := by simp [State.jumped]
@[simp] theorem State.jumped_c_outbound (s : State) (n : Word) : (s.jumped n).c.outbound = s.c.outbound := by simp [State.jumped]
@[simp] theorem State.jumped_c_overflow (s : State) (n : Word) : (s.jumped n).c.overflow = s.c.overflow := by simp [State.jumped]
@[simp] theorem State.jumped_c_part (s : State) (n : Word) : (s.jumped n).c.part = s.c.part := by simp [State.jumped]
@[simp] theorem State.jumped_c_tvec (s : State) (n : Word) : (s.jumped n).c.tvec = s.c.tvec := by simp [State.jumped]
@[simp] theorem State.jumped_c_evt (s : State) (n : Word) : (s.jumped n).c.evt = s.c.evt := by simp [State.jumped]
@[simp] theorem State.jumped_c_dbgsel (s : State) (n : Word) : (s.jumped n).c.dbgsel = s.c.dbgsel := by simp [State.jumped]
@[simp] theorem State.jumped_c_failed (s : State) (n : Word) : (s.jumped n).c.failed = s.c.failed := by simp [State.jumped]
@[simp] theorem State.jumped_c_throttled (s : State) (n : Word) : (s.jumped n).c.throttled = s.c.throttled := by simp [State.jumped]
@[simp] theorem State.called_x_regs (s : State) (n : Word) : (s.called n).x.regs = s.x.regs := by simp [State.called]
@[simp] theorem State.called_x_fpx (s : State) (n : Word) : (s.called n).x.fpx = s.x.fpx := by simp [State.called]
@[simp] theorem State.called_x_rstack (s : State) (n : Word) : (s.called n).x.rstack = s.x.rstack := by simp [State.called]
@[simp] theorem State.called_x_rspTop (s : State) (n : Word) : (s.called n).x.rspTop = s.x.rspTop := by simp [State.called]
@[simp] theorem State.called_x_bbData (s : State) (n : Word) : (s.called n).x.bbData = s.x.bbData := by simp [State.called]
@[simp] theorem State.called_x_bbPos (s : State) (n : Word) : (s.called n).x.bbPos = s.x.bbPos := by simp [State.called]
@[simp] theorem State.called_x_pend (s : State) (n : Word) : (s.called n).x.pend = s.x.pend := by simp [State.called]
@[simp] theorem State.called_x_varp (s : State) (n : Word) : (s.called n).x.varp = s.x.varp := by simp [State.called]
@[simp] theorem State.called_x_rs (s : State) (n : Word) : (s.called n).x.rs = s.x.rs := by simp [State.called]
@[simp] theorem State.called_x_bp (s : State) (n : Word) : (s.called n).x.bp = s.x.bp := by simp [State.called]
@[simp] theorem State.called_x_trap (s : State) (n : Word) : (s.called n).x.trap = s.x.trap := by simp [State.called]
@[simp] theorem State.called_x_firing (s : State) (n : Word) : (s.called n).x.firing = s.x.firing := by simp [State.called]
@[simp] theorem State.called_x_mbTrap (s : State) (n : Word) : (s.called n).x.mbTrap = s.x.mbTrap := by simp [State.called]
@[simp] theorem State.called_x_halted (s : State) (n : Word) : (s.called n).x.halted = s.x.halted := by simp [State.called]
@[simp] theorem State.called_x_dead (s : State) (n : Word) : (s.called n).x.dead = s.x.dead := by simp [State.called]
@[simp] theorem State.called_x_barvSent (s : State) (n : Word) : (s.called n).x.barvSent = none := by simp [State.called]
@[simp] theorem State.called_x_waitw (s : State) (n : Word) : (s.called n).x.waitw = none := by simp [State.called]
@[simp] theorem State.called_x_heldWait (s : State) (n : Word) : (s.called n).x.heldWait = s.x.heldWait := by simp [State.called]
@[simp] theorem State.called_x_lost (s : State) (n : Word) : (s.called n).x.lost = s.x.lost := by simp [State.called]
@[simp] theorem State.called_x_loadG (s : State) (n : Word) : (s.called n).x.loadG = s.x.loadG := by simp [State.called]
@[simp] theorem State.called_x_swapWait (s : State) (n : Word) : (s.called n).x.swapWait = s.x.swapWait := by simp [State.called]
@[simp] theorem State.called_x_swait (s : State) (n : Word) : (s.called n).x.swait = s.x.swait := by simp [State.called]
@[simp] theorem State.called_c_actors (s : State) (n : Word) : (s.called n).c.actors = s.c.actors := by simp [State.called]
@[simp] theorem State.called_c_m (s : State) (n : Word) : (s.called n).c.m = s.c.m := by simp [State.called]
@[simp] theorem State.called_c_streams (s : State) (n : Word) : (s.called n).c.streams = s.c.streams := by simp [State.called]
@[simp] theorem State.called_c_arr (s : State) (n : Word) : (s.called n).c.arr = s.c.arr := by simp [State.called]
@[simp] theorem State.called_c_outbound (s : State) (n : Word) : (s.called n).c.outbound = s.c.outbound := by simp [State.called]
@[simp] theorem State.called_c_overflow (s : State) (n : Word) : (s.called n).c.overflow = s.c.overflow := by simp [State.called]
@[simp] theorem State.called_c_part (s : State) (n : Word) : (s.called n).c.part = s.c.part := by simp [State.called]
@[simp] theorem State.called_c_tvec (s : State) (n : Word) : (s.called n).c.tvec = s.c.tvec := by simp [State.called]
@[simp] theorem State.called_c_evt (s : State) (n : Word) : (s.called n).c.evt = s.c.evt := by simp [State.called]
@[simp] theorem State.called_c_dbgsel (s : State) (n : Word) : (s.called n).c.dbgsel = s.c.dbgsel := by simp [State.called]
@[simp] theorem State.called_c_failed (s : State) (n : Word) : (s.called n).c.failed = s.c.failed := by simp [State.called]
@[simp] theorem State.called_c_throttled (s : State) (n : Word) : (s.called n).c.throttled = s.c.throttled := by simp [State.called]
@[simp] theorem State.jumped_pc (s : State) (t : Word) : (s.jumped t).x.pc = t := by simp [State.jumped]
@[simp] theorem State.called_pc (s : State) (t : Word) : (s.called t).x.pc = t := by simp [State.called]
@[simp] theorem State.jumped_prevPc (s : State) (t : Word) : (s.jumped t).x.prevPc = s.x.pc := by simp [State.jumped]
@[simp] theorem State.called_prevPc (s : State) (t : Word) : (s.called t).x.prevPc = s.x.pc := by simp [State.called]
@[simp] theorem State.called_loops (s : State) (t : Word) : (s.called t).x.loops = s.x.loops := by simp [State.called]
@[simp] theorem State.retired_prevPc (s : State) (n : Nat) : (s.retired n).x.prevPc = s.x.pc := by simp [State.retired, State.sequel]
@[simp] theorem State.park_hasCap (s : State) : s.park.hasCap = s.hasCap := rfl
@[simp] theorem State.park_devNum (s : State) : s.park.devNum = s.devNum := rfl
@[simp] theorem State.park_time (s : State) : s.park.time = s.time := rfl
@[simp] theorem State.park_clusters (s : State) : s.park.clusters = s.clusters := rfl
@[simp] theorem State.park_home (s : State) : s.park.home = s.home := rfl
@[simp] theorem State.park_dist (s : State) : s.park.dist = s.dist := rfl
@[simp] theorem State.park_power (s : State) : s.park.power = s.power := rfl
@[simp] theorem State.park_host (s : State) : s.park.host = s.host := rfl
@[simp] theorem State.park_feed (s : State) : s.park.feed = s.feed := rfl
@[simp] theorem State.park_cur (s : State) : s.park.cur = s.cur := rfl
@[simp] theorem State.park_curCtx (s : State) : s.park.curCtx = s.curCtx := rfl
@[simp] theorem State.park_draws (s : State) : s.park.draws = s.draws := rfl
@[simp] theorem State.park_cores (s : State) : s.park.cores = s.cores := rfl
@[simp] theorem State.stirred_hasCap (s : State) : s.stirred.hasCap = s.hasCap := rfl
@[simp] theorem State.stirred_devNum (s : State) : s.stirred.devNum = s.devNum := rfl
@[simp] theorem State.stirred_time (s : State) : s.stirred.time = s.time := rfl
@[simp] theorem State.stirred_clusters (s : State) : s.stirred.clusters = s.clusters := rfl
@[simp] theorem State.stirred_home (s : State) : s.stirred.home = s.home := rfl
@[simp] theorem State.stirred_dist (s : State) : s.stirred.dist = s.dist := rfl
@[simp] theorem State.stirred_power (s : State) : s.stirred.power = s.power := rfl
@[simp] theorem State.stirred_host (s : State) : s.stirred.host = s.host := rfl
@[simp] theorem State.stirred_feed (s : State) : s.stirred.feed = s.feed := rfl
@[simp] theorem State.stirred_cur (s : State) : s.stirred.cur = s.cur := rfl
@[simp] theorem State.stirred_curCtx (s : State) : s.stirred.curCtx = s.curCtx := rfl
@[simp] theorem State.stirred_draws (s : State) : s.stirred.draws = s.draws := rfl
@[simp] theorem State.stirred_cores (s : State) : s.stirred.cores = s.cores := rfl
@[simp] theorem State.later_hasCap (s : State) (n : Nat) : (s.later n).hasCap = s.hasCap := rfl
@[simp] theorem State.later_devNum (s : State) (n : Nat) : (s.later n).devNum = s.devNum := rfl
@[simp] theorem State.later_clusters (s : State) (n : Nat) : (s.later n).clusters = s.clusters := rfl
@[simp] theorem State.later_home (s : State) (n : Nat) : (s.later n).home = s.home := rfl
@[simp] theorem State.later_dist (s : State) (n : Nat) : (s.later n).dist = s.dist := rfl
@[simp] theorem State.later_power (s : State) (n : Nat) : (s.later n).power = s.power := rfl
@[simp] theorem State.later_host (s : State) (n : Nat) : (s.later n).host = s.host := rfl
@[simp] theorem State.later_feed (s : State) (n : Nat) : (s.later n).feed = s.feed := rfl
@[simp] theorem State.later_cur (s : State) (n : Nat) : (s.later n).cur = s.cur := rfl
@[simp] theorem State.later_curCtx (s : State) (n : Nat) : (s.later n).curCtx = s.curCtx := rfl
@[simp] theorem State.later_draws (s : State) (n : Nat) : (s.later n).draws = s.draws := rfl
@[simp] theorem State.later_cores (s : State) (n : Nat) : (s.later n).cores = s.cores := rfl
@[simp] theorem State.later_stalled (s : State) (n : Nat) : (s.later n).stalled = s.stalled := rfl
@[simp] theorem State.focus_hasCap (s : State) (n k : Nat) : (s.focus n k).hasCap = s.hasCap := rfl
@[simp] theorem State.focus_devNum (s : State) (n k : Nat) : (s.focus n k).devNum = s.devNum := rfl
@[simp] theorem State.focus_time (s : State) (n k : Nat) : (s.focus n k).time = s.time := rfl
@[simp] theorem State.focus_clusters (s : State) (n k : Nat) : (s.focus n k).clusters = s.clusters := rfl
@[simp] theorem State.focus_home (s : State) (n k : Nat) : (s.focus n k).home = s.home := rfl
@[simp] theorem State.focus_dist (s : State) (n k : Nat) : (s.focus n k).dist = s.dist := rfl
@[simp] theorem State.focus_power (s : State) (n k : Nat) : (s.focus n k).power = s.power := rfl
@[simp] theorem State.focus_host (s : State) (n k : Nat) : (s.focus n k).host = s.host := rfl
@[simp] theorem State.focus_feed (s : State) (n k : Nat) : (s.focus n k).feed = s.feed := rfl
@[simp] theorem State.focus_draws (s : State) (n k : Nat) : (s.focus n k).draws = s.draws := rfl
@[simp] theorem State.focus_cores (s : State) (n k : Nat) : (s.focus n k).cores = s.cores := rfl

end Sys2Proof.Machine
end

