-- ==== Sys2Proof/Laws/Ops.lean ====
section
/-!
SUPPORT. What each shared operation can do, said once: a sequence of operations goes on from where the first one left, an operation whose
condition holds answers its value, and an instruction ends as its last operation does.
-/

namespace Sys2Proof.Machine

/-! ## Sequences of operations -/

theorem bind_ok {α β : Type} {m : M α} {f : α → M β} {s t : State} {a : α} (h : m s = .ok (a, t)) : (m >>= f) s = f a t := by
  simp [bind, StateT.bind, Except.bind, h]
theorem bind_error {α β : Type} {m : M α} {f : α → M β} {s : State} {e : Stop} (h : m s = .error e) : (m >>= f) s = .error e := by
  simp [bind, StateT.bind, Except.bind, h]
/-- What a sequence that succeeds did. -/
theorem bind_inv {α β : Type} {m : M α} {f : α → M β} {s t : State} {b : β} (h : (m >>= f) s = .ok (b, t)) :
    ∃ a u, m s = .ok (a, u) ∧ f a u = .ok (b, t) := by
  simp only [bind, StateT.bind, Except.bind] at h
  split at h
  · cases h
  · next p hp => exact ⟨p.1, p.2, hp, h⟩
@[simp] theorem pure_run {α : Type} (a : α) (s : State) : (pure a : M α) s = .ok (a, s) := rfl
@[simp] theorem get_run (s : State) : (get : M State) s = .ok (s, s) := rfl
@[simp] theorem set_run (s t : State) : (set t : M Unit) s = .ok ((), t) := rfl
@[simp] theorem modify_run (f : State → State) (s : State) : (modify f : M Unit) s = .ok ((), f s) := rfl
@[simp] theorem waitUntil_true : waitUntil true = pure () := rfl
@[simp] theorem need_true : need true = pure () := rfl
@[simp] theorem needSome_some {α : Type} (a : α) : needSome (some a) = pure a := rfl
@[simp] theorem orTrap_true (c : Nat) (i j : Word) : orTrap true c i j = pure () := rfl

/-! ## The end of an instruction -/

theorem finish_ok {s t : State} {m : M Unit} (h : m s = .ok ((), t)) : finish s m = .next t := by simp [finish, h]
theorem finish_trap {s : State} {m : M Unit} {c : Nat} {i j : Word} {p : Option Word} (h : m s = .error (.trap c i j p)) :
    finish s m = .next (takeTrap s c i j (p.getD s.x.pc)) := by simp [finish, h]
theorem finish_wait {s : State} {m : M Unit} {t : Option State} (h : m s = .error (.wait t)) : finish s m = .next (t.getD s).park := by
  simp [finish, h]
theorem runEvent_ok {s t : State} {m : M Unit} (h : m s = .ok ((), t)) : runEvent s m = .next t := by simp [runEvent, h]
/-- An event that gives a next state happened. -/
theorem runEvent_inv {s t : State} {m : M Unit} (h : runEvent s m = .next t) : m s = .ok ((), t) := by
  unfold runEvent at h
  split at h
  · next u hu => simp only [Host.Outcome.next.injEq] at h; rw [hu, h]
  · cases h
/-- An instruction that gives a next state completed, trapped or waits. -/
theorem finish_inv {s t : State} {m : M Unit} (h : finish s m = .next t) :
    m s = .ok ((), t) ∨ (∃ c i j p, m s = .error (.trap c i j p) ∧ t = takeTrap s c i j (p.getD s.x.pc)) ∨
      ∃ u, m s = .error (.wait u) ∧ t = (u.getD s).park := by
  unfold finish at h
  split at h
  · next u hu => simp only [Host.Outcome.next.injEq] at h; exact .inl (by rw [hu, h])
  · next c i j p hp => simp only [Host.Outcome.next.injEq] at h; exact .inr (.inl ⟨c, i, j, p, hp, h.symm⟩)
  · next u hu => simp only [Host.Outcome.next.injEq] at h; exact .inr (.inr ⟨u, hu, h.symm⟩)
  · cases h

/-! ## Operands -/

theorem issue_ok {s : State} {l : Nat} {c : Bool} {rd : List RegId} (h : s.readyFor l c rd = true) :
    issue l c rd s = .ok (s.seen l c, s.issued l) := by
  simp only [State.readyFor, Bool.and_eq_true, Bool.not_eq_true', Bool.and_eq_false_iff] at h
  have h2 : (if s.scbMode = 2 && !c then rd.find? (fun r => (s.x.aged (1 + l)).pend.any (·.reg == r)) else none) = none := by
    split
    · next h3 =>
      simp only [Bool.and_eq_true, decide_eq_true_eq, Bool.not_eq_true'] at h3
      rw [List.find?_eq_none]
      intro r hr
      have := h.2
      simp only [beq_eq_false_iff_ne, ne_eq] at this
      rcases this with (h4 | h4) | h4
      · exact absurd h3.1 h4
      · simp [h3.2] at h4
      · rw [List.any_eq_false] at h4; exact h4 r hr
    · rfl
  have h1 : (rd.any fun r => (s.x.aged (1 + l)).varp.any (·.reg == r)) = false := by
    simpa using h.1
  unfold issue
  simp only [h2, h1, Bool.false_eq_true, if_false, State.seen, State.issued, Ctx.aged_regs]

@[simp] theorem check_ok {w : Word} {sl : Byte} {src pr a : Nat} {s : State} (h : syn w sl = 0) : check w sl src pr a s = .ok ((), s) := by
  simp [check, h]
theorem readG_ok {n : Nat} {r : Regs} {i : BitVec n} {s : State} (h : r.clean i.toNat = true) : readG r i s = .ok (r.gv i.toNat, s) := by
  unfold readG
  by_cases h0 : i.toNat = 0
  · simp [h0]
  · simp only [Regs.clean, Bool.or_eq_true, beq_iff_eq, h0, false_or] at h
    rw [if_neg h0, bind_ok (check_ok h)]; rfl
theorem checkPairs_ok {w : Vec} {sl : VSeals} {n : Nat} {s : State} :
    ∀ {ps : List Nat}, (ps.all fun j => syn (pair w j) (pairSeal sl j) == 0) = true → checkPairs w sl n ps s = .ok ((), s) := by
  intro ps
  induction ps with
  | nil => intro _; rfl
  | cons j r ih =>
    intro h
    simp only [List.all_cons, Bool.and_eq_true, beq_iff_eq] at h
    unfold checkPairs
    rw [bind_ok (check_ok h.1)]
    exact ih h.2
theorem readV_ok {n : Nat} {r : Regs} {i : BitVec n} {ps : List Nat} {s : State} (h : r.cleanV i.toNat ps = true) :
    readV r i ps s = .ok (r.vv i.toNat, s) := by
  unfold readV
  rw [bind_ok (checkPairs_ok h)]; rfl
@[simp] theorem writeG_run {n : Nat} (lat : Nat) (d : BitVec n) (w : Word) (s : State) :
    writeG lat d w s = .ok ((), s.upX fun x => x.wrFixed lat (gR d) (w.setWidth 1024) ((sealFn w).setWidth 128)) := rfl
@[simp] theorem writeGs_run {n : Nat} (lat : Nat) (d : BitVec n) (w : Word) (sl : Byte) (s : State) :
    writeGs lat d w sl s = .ok ((), s.upX fun x => x.wrFixed lat (gR d) (w.setWidth 1024) (sl.setWidth 128)) := rfl
@[simp] theorem writeVarG_run {n : Nat} (d : BitVec n) (w : Word) (s : State) :
    writeVarG d w s = .ok ((), s.upX fun x => x.wrVar (gR d) (w.setWidth 1024) ((sealFn w).setWidth 128)) := rfl
@[simp] theorem writeVarGs_run {n : Nat} (d : BitVec n) (w : Word) (sl : Byte) (s : State) :
    writeVarGs d w sl s = .ok ((), s.upX fun x => x.wrVar (gR d) (w.setWidth 1024) (sl.setWidth 128)) := rfl
@[simp] theorem writeV_run {n : Nat} (lat : Nat) (d : BitVec n) (w : Vec) (sl : VSeals) (s : State) :
    writeV lat d w sl s = .ok ((), s.upX fun x => x.wrFixed lat (vR d) w sl) := rfl
@[simp] theorem writeVarV_run {n : Nat} (d : BitVec n) (w : Vec) (sl : VSeals) (s : State) :
    writeVarV d w sl s = .ok ((), s.upX fun x => x.wrVar (vR d) w sl) := rfl
@[simp] theorem writeK_run {n : Nat} (lat : Nat) (d : BitVec n) (w : Mask) (s : State) :
    writeK lat d w s = .ok ((), s.upX fun x => x.wrFixed lat (kR d) (w.setWidth 1024) 0) := rfl
@[simp] theorem retire_run (len : Nat) (s : State) : retire len s = .ok ((), s.retired len) := rfl
@[simp] theorem freshId_run (s : State) : freshId s = .ok (s.dist.next, { s with dist := { s.dist with next := s.dist.next + 1 } }) := rfl
@[simp] theorem drawM_run (s : State) : drawM s = .ok (s.draws, { s with draws := s.draws + 1 }) := rfl

/-! ## Local memory -/

theorem lmFaults_ok {a : Word} {n align : Nat} {i : Acc} {s : State} (h : s.lmOk a n align = true) : lmFaults a n align i s = .ok ((), s) := by
  simp only [State.lmOk, Bool.and_eq_true, beq_iff_eq, decide_eq_true_eq, Bool.not_eq_true'] at h
  obtain ⟨⟨⟨h1, h2⟩, h3⟩, h4⟩ := h
  unfold lmFaults
  rw [if_neg (by simp [h1]), if_neg (by omega), if_neg (by simp [h3]), if_neg (by simp [h4])]

@[simp] theorem landedFirst_ok {a n : Nat} {s : State} (h : s.landingAt a n = false) : landedFirst a n s = .ok ((), s) := by
  simp [landedFirst, h]
@[simp] theorem State.landingAt_issued (s : State) (l a n : Nat) : (s.issued l).landingAt a n = s.landingAt a n := by
  simp [State.issued, State.landingAt, Core.landingAt]
theorem State.loadOk_inv {s : State} {a : Word} {n align : Nat} (h : s.loadOk a n align = true) :
    s.lmOk a n align = true ∧ s.landingAt a.toNat n = false := by simpa [State.loadOk] using h

/-- Aging leaves what an LM access depends on. -/
@[simp] theorem State.lmOk_issued (s : State) (l : Nat) (a : Word) (n align : Nat) : (s.issued l).lmOk a n align = s.lmOk a n align := by
  have h1 : (s.issued l).c.m = s.c.m := by simp [State.issued]
  have h2 : (s.issued l).c.arr = s.c.arr := by simp [State.issued]
  have h3 : (s.issued l).x.trap = s.x.trap := by simp [State.issued]
  have h4 : (s.issued l).x.firing = s.x.firing := by simp [State.issued]
  have h5 : ∀ i, (s.issued l).c.actor i = s.c.actor i := by intro i; simp [State.issued]
  have h6 : (s.issued l).curCtx = s.curCtx := by simp [State.issued]
  simp only [State.lmOk, State.lmInside, Core.xbAddr, Core.inLm, Core.storesLm, h6, State.act, State.actIdx, Ctx.actIdx, h1, h2, h3, h4, h5]
  rfl

end Sys2Proof.Machine
end

