-- ==== Sys2Proof/Laws/Frames.lean ====
section
/-!
SUPPORT. What a completed instruction leaves unchanged, said once per shape: a change of the acting context's registers, a write of LM.
-/

namespace Sys2Proof.Machine

/-- Two changes of the acting context are one. -/
theorem State.upX_upX (s : State) (f g : Ctx → Ctx) : (s.upX f).upX g = s.upX fun x => g (f x) := by
  simp [State.upX, State.upC, State.upCore, State.setCore, State.core, Core.setCtx, Core.ctx, tset_tset]
@[simp] theorem State.cd_upX_kept {s : State} {f : Ctx → Ctx} (h : s.x.kept (f s.x)) : (s.upX f).cd = s.cd := by
  unfold Ctx.kept at h
  have h1 : (f s.x).rstack = s.x.rstack := by rw [h]
  have h2 : (f s.x).rspTop = s.x.rspTop := by rw [h]
  have h3 : (f s.x).firing = s.x.firing := by rw [h]
  have h4 : (f s.x).trap = s.x.trap := by rw [h]
  simp only [State.cd, State.rspBase, State.ownActor, State.x_upX, h1, h2, h3, h4, State.actor_upX]

/-- A change of registers, results in flight and FPX, then sequential flow. -/
theorem wroteRegs_of {s : State} {f : Ctx → Ctx} {len : Nat} {fl : BitVec 6} {g v k : Nat → Bool} (hk : s.x.kept (f s.x))
    (hpc : (f s.x).pc = s.x.pc) (hl : (f s.x).loops = s.x.loops) (hf : (f s.x).fpx = s.x.fpx ||| fl) (hg : s.x.regs.sameG (f s.x).regs g)
    (hv : s.x.regs.sameV (f s.x).regs v) (hkk : s.x.regs.sameK (f s.x).regs k) : s.wroteRegs ((s.upX f).retired len) len fl g v k := by
  have hx : ((s.upX f).retired len).x =
      { f s.x with
        loops := (s.onward len).1, pc := (s.onward len).2, prevPc := (f s.x).pc, loadG := none, swapWait := false, swait := none, barvSent := none
        waitw := none } := by
    simp [State.retired, State.sequel, State.onward, State.cd_upX_kept hk, hpc, hl]
  refine ⟨?_, ?_, ?_, ?_, ?_, ⟨?_, ?_, ?_, ?_, ?_⟩⟩
  · rw [hx]; unfold Ctx.kept at hk ⊢; rw [hk]
  · rw [hx]; exact hf
  · rw [hx]; exact hg
  · rw [hx]; exact hv
  · rw [hx]; exact hkk
  · rw [hx]
  · rw [hx]; exact hpc
  · rw [hx]
  · rw [hx]; unfold Ctx.kept at hk; rw [hk]
  · rfl
theorem sameButCtx_of {s : State} {f : Ctx → Ctx} {len : Nat} : s.sameButCtx ((s.upX f).retired len) := by
  refine ⟨⟨rfl, ?_⟩, ?_, ?_⟩
  · intro n hn
    simp [State.retired, State.sequel, State.upX, State.core_upC, hn]
  · intro k hk
    simp [State.retired, State.sequel, State.upX, Core.ctx_setCtx, hk]
  · simp [State.retired, State.sequel, State.upX, Core.count, Core.setCtx]

/-- A change of the acting context's registers, then sequential flow: all that can be said of it. -/
theorem wrote_of {s : State} {f : Ctx → Ctx} {len : Nat} {fl : BitVec 6} {g v k : Nat → Bool} (hk : s.x.kept (f s.x))
    (hpc : (f s.x).pc = s.x.pc) (hl : (f s.x).loops = s.x.loops) (hf : (f s.x).fpx = s.x.fpx ||| fl) (hg : s.x.regs.sameG (f s.x).regs g)
    (hv : s.x.regs.sameV (f s.x).regs v) (hkk : s.x.regs.sameK (f s.x).regs k) :
    s.sameButCtx ((s.upX f).retired len) ∧ s.wroteRegs ((s.upX f).retired len) len fl g v k ∧ ((s.upX f).retired len).x.regs = (f s.x).regs :=
  ⟨sameButCtx_of, wroteRegs_of hk hpc hl hf hg hv hkk, by simp⟩

/-! ## Writes of one register -/

theorem Ctx.kept_aged (x : Ctx) (n : Nat) : x.kept (x.aged n) := rfl
theorem Ctx.kept_wrFixed (x : Ctx) (lat : Nat) (i : RegId) (w : Vec) (sl : VSeals) : x.kept (x.wrFixed lat i w sl) := by
  unfold Ctx.kept Ctx.wrFixed; split <;> rfl
theorem Ctx.kept_wrVar (x : Ctx) (i : RegId) (w : Vec) (sl : VSeals) : x.kept (x.wrVar i w sl) := by unfold Ctx.kept Ctx.wrVar; split <;> rfl
theorem Ctx.kept_wrLate (x : Ctx) (id : Nat) (i : RegId) (r : Option (Vec × VSeals)) : x.kept (x.wrLate id i r) := by
  unfold Ctx.kept Ctx.wrLate; split <;> rfl
theorem Ctx.kept_trans {x y z : Ctx} (h : x.kept y) (g : y.kept z) : x.kept z := by
  unfold Ctx.kept at *; rw [g]; rw [h]

theorem Regs.sameG_refl (r : Regs) (p : Nat → Bool) : r.sameG r p := fun _ _ => ⟨rfl, rfl⟩
theorem Regs.sameV_refl (r : Regs) (p : Nat → Bool) : r.sameV r p := fun _ _ => ⟨rfl, rfl⟩
theorem Regs.sameK_refl (r : Regs) (p : Nat → Bool) : r.sameK r p := fun _ _ => rfl
theorem Regs.sameG_setG (r : Regs) {n : Nat} (d : BitVec n) (w : Word) (sl : Byte) : r.sameG (r.setG d.toNat w sl) (oneReg d) := by
  intro k hk
  have hk : k ≠ d.toNat := by simpa [oneReg] using hk
  constructor
  · rw [Regs.gv_setG, if_neg (by simp [hk])]
  · rw [Regs.gsl_setG, if_neg (by simp [hk])]
theorem Regs.sameV_setV (r : Regs) {n : Nat} (d : BitVec n) (w : Vec) (sl : VSeals) : r.sameV (r.setV d.toNat w sl) (oneReg d) := by
  intro k hk
  have hk : k ≠ d.toNat := by simpa [oneReg] using hk
  constructor
  · rw [Regs.vv_setV, if_neg hk]
  · rw [Regs.vsl_setV, if_neg hk]
theorem Regs.sameK_setK (r : Regs) {n : Nat} (d : BitVec n) (w : Mask) : r.sameK (r.setK d.toNat w) (oneReg d) := by
  intro k hk
  have hk : k ≠ d.toNat := by simpa [oneReg] using hk
  rw [Regs.kv_setK, if_neg (by simp [hk])]
theorem Regs.holdsG_setG (r : Regs) (d : Nat) (w : Word) (sl : Byte) : (r.setG d w sl).holdsG d w sl := by
  unfold Regs.holdsG
  rw [Regs.gv_setG, Regs.gsl_setG]
  by_cases h : d = 0 <;> simp [h]
/-- What a write of a register leaves of the registers, for a context whose registers were r. -/
structure Wrote (r t : Regs) (i : RegId) (w : Vec) (sl : VSeals) : Prop where
  put : t = if i.fixed then r else r.put i w sl
theorem Ctx.wrote_wrFixed (x : Ctx) (lat : Nat) (i : RegId) (w : Vec) (sl : VSeals) : Wrote x.regs (x.wrFixed lat i w sl).regs i w sl := by
  constructor; unfold Ctx.wrFixed; split <;> rfl
theorem Ctx.wrote_wrVar (x : Ctx) (i : RegId) (w : Vec) (sl : VSeals) : Wrote x.regs (x.wrVar i w sl).regs i w sl := by
  constructor; unfold Ctx.wrVar; split <;> rfl
theorem Wrote.g {r t : Regs} {n : Nat} {d : BitVec n} {w : Word} {sl : Byte} (h : Wrote r t (gR d) (w.setWidth 1024) (sl.setWidth 128)) :
    r.sameG t (oneReg d) ∧ r.sameV t noReg ∧ r.sameK t noReg ∧ t.holdsG d.toNat w sl := by
  have hw : (w.setWidth 1024).setWidth 64 = w := by simp
  have hs : (sl.setWidth 128).setWidth 8 = sl := by simp
  have e : t = r.setG d.toNat w sl := by
    rw [h.put]
    by_cases h0 : d.toNat = 0
    · simp [gR, RegId.fixed, h0]
    · simp only [gR, RegId.fixed, beq_iff_eq, h0, if_false, Regs.put, hw, hs]
  rw [e]
  refine ⟨r.sameG_setG d w sl, ?_, ?_, r.holdsG_setG _ _ _⟩
  · intro k _; simp
  · intro k _; simp
theorem Wrote.v {r t : Regs} {n : Nat} {d : BitVec n} {w : Vec} {sl : VSeals} (h : Wrote r t (vR d) w sl) :
    r.sameG t noReg ∧ r.sameV t (oneReg d) ∧ r.sameK t noReg ∧ t.vv d.toNat = w ∧ t.vsl d.toNat = sl := by
  have e : t = r.setV d.toNat w sl := h.put
  rw [e]
  refine ⟨?_, r.sameV_setV d w sl, ?_, ?_, ?_⟩
  · intro k _; simp
  · intro k _; simp
  · simp [Regs.vv_setV]
  · simp [Regs.vsl_setV]
theorem Wrote.k {r t : Regs} {n : Nat} {d : BitVec n} {w : Mask} (h : Wrote r t (kR d) (w.setWidth 1024) 0) :
    r.sameG t noReg ∧ r.sameV t noReg ∧ r.sameK t (oneReg d) ∧ t.kv d.toNat = if d.toNat = 0 then BitVec.allOnes 32 else w := by
  have hw : (w.setWidth 1024).setWidth 32 = w := by simp
  have e : t = r.setK d.toNat w := by
    rw [h.put]
    by_cases h0 : d.toNat = 0
    · simp [kR, RegId.fixed, h0, Regs.setK]
    · simp only [kR, RegId.fixed, beq_iff_eq, h0, if_false, Regs.put, hw]
  rw [e]
  refine ⟨?_, ?_, r.sameK_setK d w, ?_⟩
  · intro k _; simp
  · intro k _; simp
  · rw [Regs.kv_setK]
    by_cases h : d.toNat = 0 <;> simp [h, Regs.kv]

/-- An instruction that issues and writes one fixed-latency result to a g register. -/
theorem wroteG_fixed (s : State) (l lat len : Nat) (d : BitVec 5) (w : Word) (sl : Byte) :
    let t := ((s.issued l).upX fun x => x.wrFixed lat (gR d) (w.setWidth 1024) (sl.setWidth 128)).retired len
    s.sameButCtx t ∧ s.wroteRegs t len 0 (oneReg d) noReg noReg ∧ t.x.regs.holdsG d.toNat w sl := by
  intro t
  have hw := (Ctx.wrote_wrFixed (s.x.aged (1 + l)) lat (gR d) (w.setWidth 1024) (sl.setWidth 128)).g
  rw [Ctx.aged_regs] at hw
  have h := wrote_of (s := s) (f := fun x => (x.aged (1 + l)).wrFixed lat (gR d) (w.setWidth 1024) (sl.setWidth 128)) (len := len) (fl := 0)
    (Ctx.kept_trans (Ctx.kept_aged ..) (Ctx.kept_wrFixed ..)) (by simp) (by simp) (by simp) hw.1 hw.2.1 hw.2.2.1
  have e : t = (s.upX fun x => (x.aged (1 + l)).wrFixed lat (gR d) (w.setWidth 1024) (sl.setWidth 128)).retired len := by
    simp only [t, State.issued, State.upX_upX]
  rw [e]
  exact ⟨h.1, h.2.1, by rw [h.2.2]; exact hw.2.2.2⟩

end Sys2Proof.Machine
end

