-- ==== Sys2Proof/Laws/PerInstr.lean ====
section
/-!
SUPPORT. The decoder reads back every well-formed instruction that the encoder writes, one lemma per constructor (R47 to R53).
A word is put together from the fields of its format (R49); for each format, one lemma per field that the decoder reads.
-/

namespace Sys2Proof.Laws.RoundTrip

set_option Elab.async false

/-- Decoding the bytes of the encoding of i, whatever follows them, gives i and its length; an event has no encoding. -/
def Statement (i : Instr) : Prop :=
  WellFormed i → encode i ≠ .none → ∀ rest : List Byte, decodeBytes (encodeBytes i ++ rest) = .instr i i.len

/-! ## Bytes -/

theorem half_toNat (b0 b1 : Byte) : (halfOf b0 b1).toNat = b1.toNat * 256 + b0.toNat := by
  have h := Nat.shiftLeft_add_eq_or_of_lt (a := b1.toNat) (b := b0.toNat) (i := 8) b0.isLt
  rw [halfOf, BitVec.toNat_append, ← h, Nat.shiftLeft_eq]
theorem bytes32 (w : BitVec 32) : ∃ b0 b1 b2 b3 : Byte, wordBytes 4 w.toNat = [b0, b1, b2, b3] ∧ halfOf b2 b3 ++ halfOf b0 b1 = w ∧
    b0.extractLsb' 0 2 = fld w 0 2 := by
  refine ⟨_, _, _, _, rfl, ?_, ?_⟩
  · apply BitVec.eq_of_toNat_eq
    have hw := w.isLt
    rw [BitVec.toNat_append, ← Nat.shiftLeft_add_eq_or_of_lt (BitVec.isLt _), half_toNat, half_toNat, Nat.shiftLeft_eq]
    simp only [BitVec.toNat_ofNat]
    omega
  · apply BitVec.eq_of_toNat_eq
    simp only [fld, BitVec.extractLsb'_toNat, BitVec.toNat_ofNat, Nat.shiftRight_zero]
    omega
theorem bytes16 (h : BitVec 16) : ∃ b0 b1 : Byte, wordBytes 2 h.toNat = [b0, b1] ∧ halfOf b0 b1 = h ∧ b0.extractLsb' 0 2 = fld16 h 0 2 := by
  refine ⟨_, _, rfl, ?_, ?_⟩
  · apply BitVec.eq_of_toNat_eq
    have hw := h.isLt
    rw [half_toNat]
    simp only [BitVec.toNat_ofNat]
    omega
  · apply BitVec.eq_of_toNat_eq
    simp only [fld16, BitVec.extractLsb'_toNat, BitVec.toNat_ofNat, Nat.shiftRight_zero]
    omega
/-- What a lemma about a 32-bit form has to show. -/
theorem of32 {i : Instr} {w : BitVec 32} (he : encode i = .w32 w) (h3 : fld w 0 2 = 3) (hd : WellFormed i → decode32 w = .ok i) (hl : i.len = 4) :
    Statement i := by
  intro hw _ rest
  obtain ⟨b0, b1, b2, b3, hb, hW, hL⟩ := bytes32 w
  simp only [encodeBytes, he, hb, List.cons_append, List.nil_append, decodeBytes, hL, h3, hW, hd hw, hl]
  rfl
/-- What a lemma about a 16-bit form has to show. -/
theorem of16 {i : Instr} {w : BitVec 16} (he : encode i = .w16 w) (h3 : fld16 w 0 2 = 0) (hd : decode16 w = .ok i) (hl : i.len = 2) :
    Statement i := by
  intro _ _ rest
  obtain ⟨b0, b1, hb, hW, hL⟩ := bytes16 w
  simp only [encodeBytes, he, hb, List.cons_append, List.nil_append, decodeBytes, hL, h3, hW, hd, hl]
  rfl
/-- An event has no encoding. -/
theorem ofNone {i : Instr} (h : encode i = .none) : Statement i := fun _ hn => absurd h hn

/-! ## Checks -/

theorem nil {i : Instr} : accept [] i = .ok i := rfl
theorem cons {c : Check} {cs : List Check} {i : Instr} (h : c.fails = false) (t : accept cs i = .ok i) : accept (c :: cs) i = .ok i := by
  unfold accept at t ⊢
  rw [List.filter_cons, h]
  exact t
theorem kreg3 (d : BitVec 3) : (kreg (d.setWidth 5)).fails = false := by
  have : ∀ d : BitVec 3, (kreg (d.setWidth 5)).fails = false := by decide
  exact this d
theorem notK {d : BitVec 3} (h : okKDest d = true) : (notK0 (d.setWidth 5)).fails = false := by
  have : ∀ d : BitVec 3, okKDest d = true → (notK0 (d.setWidth 5)).fails = false := by decide
  exact this d h
theorem mask {k : BitVec 3} (h : okMask k = true) : (maskK k).fails = false := by
  have : ∀ k : BitVec 3, okMask k = true → (maskK k).fails = false := by decide
  exact this k h
theorem mask2 (k : BitVec 2) : (k28 (k.setWidth 3)).fails = false := by
  have : ∀ k : BitVec 2, (k28 (k.setWidth 3)).fails = false := by decide
  exact this k
theorem fmt {f : Fmt} {allowed : Fmt → Bool} {cs : List Check} {i : Fmt → Instr} (h : allowed f = true) (t : accept cs (i f) = .ok (i f)) :
    withFmt f.code allowed cs i = .ok (i f) := by
  have e : Fmt.ofCode f.code = some f := by cases f <;> rfl
  simp only [withFmt, e]
  exact cons (by simp [h]) t
theorem scope {f : Scope} {n : Nat} {cs : List Check} {i : Scope → Instr} (e : Scope.ofCode n = some f) (t : accept cs (i f) = .ok (i f)) :
    withScope n cs i = .ok (i f) := by
  simp only [withScope, e, t]
theorem dir {f : Dir} {cs : List Check} {i : Dir → Instr} (t : accept cs (i f) = .ok (i f)) : withDir f.code cs i = .ok (i f) := by
  have e : Dir.ofCode f.code = some f := by cases f <;> rfl
  simp only [withDir, e, t]
theorem csr {f : Csr} {w : BitVec 32} {cs : List Check} {i : Csr → Instr} (h : fld w 21 8 = f.num) (t : accept cs (i f) = .ok (i f)) :
    withCsr w cs i = .ok (i f) := by
  have e : Csr.ofNum f.num = some f := by cases f <;> rfl
  simp only [withCsr, h, e, t]
theorem posted0 {w : BitVec 32} (h : fld w 10 1 = 0) : (postedD w).fails = false := by simp only [postedD, h]; rfl
theorem posted1 {w : BitVec 32} {d : BitVec 5} (e : fld w 11 5 = d) (h : okPosted true d = true) : (postedD w).fails = false := by
  have h0 : d = 0 := by simpa [okPosted] using h
  subst h0
  simp [postedD, e]
theorem rule2 (i : BitVec 2) : (rule (decide (3 < BitVec.setWidth 3 i)) (BitVec.setWidth 3 i)).fails = false := by
  have : ∀ i : BitVec 2, (rule (decide (3 < BitVec.setWidth 3 i)) (BitVec.setWidth 3 i)).fails = false := by decide
  exact this i
theorem size {z : BitVec 3} (h : okSize z = true) : (rule (decide (4 < z)) z).fails = false := by
  have : ∀ z : BitVec 3, okSize z = true → (rule (decide (4 < z)) z).fails = false := by decide
  exact this z h
theorem query {i : BitVec 3} (h : decide (i.toNat ≤ 5) = true) : (rule (decide (5 < i)) i).fails = false := by
  have : ∀ i : BitVec 3, decide (i.toNat ≤ 5) = true → (rule (decide (5 < i)) i).fails = false := by decide
  exact this i h
theorem low {a : BitVec 5} (h : (!true || decide (a.toNat < 16)) = true) :
    (bit0 (BitVec.extractLsb' 0 1 (1#3) == 1 && BitVec.extractLsb' 4 1 a != 0) a).fails = false := by
  have : ∀ a : BitVec 5, (!true || decide (a.toNat < 16)) = true →
    (bit0 (BitVec.extractLsb' 0 1 (1#3) == 1 && BitVec.extractLsb' 4 1 a != 0) a).fails = false := by decide
  exact this a h
theorem and1 {a b : Bool} (h : (a && b) = true) : a = true := by cases a <;> simp_all
theorem and2 {a b : Bool} (h : (a && b) = true) : b = true := by cases a <;> simp_all

theorem maj01 {w : BitVec 32} (h : fld w 2 6 = 1) : decode32 w = decodeMaj01 w := by simp only [decode32, h]; rfl
theorem maj02 {w : BitVec 32} (h : fld w 2 6 = 2) : decode32 w = decodeMaj02 w := by simp only [decode32, h]; rfl
theorem maj03 {w : BitVec 32} (h : fld w 2 6 = 3) : decode32 w = decodeMaj03 w := by simp only [decode32, h]; rfl
theorem maj04 {w : BitVec 32} (h : fld w 2 6 = 4) : decode32 w = decodeMaj04 w := by simp only [decode32, h]; rfl
theorem maj05 {w : BitVec 32} (h : fld w 2 6 = 5) : decode32 w = decodeMaj05 w := by simp only [decode32, h]; rfl
theorem maj06 {w : BitVec 32} (h : fld w 2 6 = 6) : decode32 w = decodeMaj06 w := by simp only [decode32, h]; rfl
theorem maj07 {w : BitVec 32} (h : fld w 2 6 = 7) : decode32 w = decodeMaj07 w := by simp only [decode32, h]; rfl
theorem maj08 {w : BitVec 32} (h : fld w 2 6 = 8) : decode32 w = decodeMaj08 w := by simp only [decode32, h]; rfl
theorem maj09 {w : BitVec 32} (h : fld w 2 6 = 9) : decode32 w = decodeMaj09 w := by simp only [decode32, h]; rfl
theorem maj0A {w : BitVec 32} (h : fld w 2 6 = 10) : decode32 w = decodeMaj0A w := by simp only [decode32, h]; rfl
theorem maj0B {w : BitVec 32} (h : fld w 2 6 = 11) : decode32 w = decodeMaj0B w := by simp only [decode32, h]; rfl
theorem maj0C {w : BitVec 32} (h : fld w 2 6 = 12) : decode32 w = decodeMaj0C w := by simp only [decode32, h]; rfl
theorem maj0D {w : BitVec 32} (h : fld w 2 6 = 13) : decode32 w = decodeMaj0D w := by simp only [decode32, h]; rfl
theorem maj0E {w : BitVec 32} (h : fld w 2 6 = 14) : decode32 w = decodeMaj0E w := by simp only [decode32, h]; rfl
theorem maj0F {w : BitVec 32} (h : fld w 2 6 = 15) : decode32 w = decodeMaj0F w := by simp only [decode32, h]; rfl
theorem maj10 {w : BitVec 32} (h : fld w 2 6 = 16) : decode32 w = decodeMaj10 w := by simp only [decode32, h]; rfl
theorem maj11 {w : BitVec 32} (h : fld w 2 6 = 17) : decode32 w = decodeMaj11 w := by simp only [decode32, h]; rfl
theorem maj12 {w : BitVec 32} (h : fld w 2 6 = 18) : decode32 w = decodeMaj12 w := by simp only [decode32, h]; rfl
theorem maj13 {w : BitVec 32} (h : fld w 2 6 = 19) : decode32 w = decodeMaj13 w := by simp only [decode32, h]; rfl
theorem maj14 {w : BitVec 32} (h : fld w 2 6 = 20) : decode32 w = decodeMaj14 w := by simp only [decode32, h]; rfl
theorem maj15 {w : BitVec 32} (h : fld w 2 6 = 21) : decode32 w = decodeMaj15 w := by simp only [decode32, h]; rfl
theorem maj16 {w : BitVec 32} (h : fld w 2 6 = 22) : decode32 w = decodeMaj16 w := by simp only [decode32, h]; rfl
theorem maj17 {w : BitVec 32} (h : fld w 2 6 = 23) : decode32 w = decodeMaj17 w := by simp only [decode32, h]; rfl
theorem maj18 {w : BitVec 32} (h : fld w 2 6 = 24) : decode32 w = decodeMaj18 w := by simp only [decode32, h]; rfl
theorem maj19 {w : BitVec 32} (h : fld w 2 6 = 25) : decode32 w = decodeMaj19 w := by simp only [decode32, h]; rfl
theorem maj1A {w : BitVec 32} (h : fld w 2 6 = 26) : decode32 w = decodeMaj1A w := by simp only [decode32, h]; rfl
theorem maj1B {w : BitVec 32} (h : fld w 2 6 = 27) : decode32 w = decodeMaj1B w := by simp only [decode32, h]; rfl
theorem maj1C {w : BitVec 32} (h : fld w 2 6 = 28) : decode32 w = decodeMaj1C w := by simp only [decode32, h]; rfl
theorem maj1D {w : BitVec 32} (h : fld w 2 6 = 29) : decode32 w = decodeMaj1D w := by simp only [decode32, h]; rfl
theorem maj1E {w : BitVec 32} (h : fld w 2 6 = 30) : decode32 w = decodeMaj1E w := by simp only [decode32, h]; rfl
theorem maj1F {w : BitVec 32} (h : fld w 2 6 = 31) : decode32 w = decodeMaj1F w := by simp only [decode32, h]; rfl
theorem maj20 {w : BitVec 32} (h : fld w 2 6 = 32) : decode32 w = decodeMaj20 w := by simp only [decode32, h]; rfl
theorem maj21 {w : BitVec 32} (h : fld w 2 6 = 33) : decode32 w = decodeMaj21 w := by simp only [decode32, h]; rfl
theorem maj22 {w : BitVec 32} (h : fld w 2 6 = 34) : decode32 w = decodeMaj22 w := by simp only [decode32, h]; rfl
theorem maj23 {w : BitVec 32} (h : fld w 2 6 = 35) : decode32 w = decodeMaj23 w := by simp only [decode32, h]; rfl
theorem maj24 {w : BitVec 32} (h : fld w 2 6 = 36) : decode32 w = decodeMaj24 w := by simp only [decode32, h]; rfl
theorem maj25 {w : BitVec 32} (h : fld w 2 6 = 37) : decode32 w = decodeMaj25 w := by simp only [decode32, h]; rfl
theorem maj26 {w : BitVec 32} (h : fld w 2 6 = 38) : decode32 w = decodeMaj26 w := by simp only [decode32, h]; rfl
theorem maj27 {w : BitVec 32} (h : fld w 2 6 = 39) : decode32 w = decodeMaj27 w := by simp only [decode32, h]; rfl
theorem maj28 {w : BitVec 32} (h : fld w 2 6 = 40) : decode32 w = decodeMaj28 w := by simp only [decode32, h]; rfl
theorem maj29 {w : BitVec 32} (h : fld w 2 6 = 41) : decode32 w = decodeMaj29 w := by simp only [decode32, h]; rfl
theorem maj2A {w : BitVec 32} (h : fld w 2 6 = 42) : decode32 w = decodeMaj2A w := by simp only [decode32, h]; rfl
theorem maj2B {w : BitVec 32} (h : fld w 2 6 = 43) : decode32 w = decodeMaj2B w := by simp only [decode32, h]; rfl

/-! ## Formats -/

/-- A word of format R. -/
def fR (fn : BitVec 3) (k : BitVec 3) (b : BitVec 5) (a : BitVec 5) (d : BitVec 5) (l : BitVec 3) (m : BitVec 6) : BitVec 32 := fn ++ k ++ b ++ a ++ d ++ l ++ m ++ 3#2
theorem fR_toNat (fn : BitVec 3) (k : BitVec 3) (b : BitVec 5) (a : BitVec 5) (d : BitVec 5) (l : BitVec 3) (m : BitVec 6) : (fR fn k b a d l m).toNat = fn.toNat * 2 ^ 29 + k.toNat * 2 ^ 26 + b.toNat * 2 ^ 21 + a.toNat * 2 ^ 16 + d.toNat * 2 ^ 11 + l.toNat * 2 ^ 8 + m.toNat * 4 + 3 := by
  unfold fR
  simp only [BitVec.toNat_append]
  repeat rw [← Nat.shiftLeft_add_eq_or_of_lt (by first | exact BitVec.isLt _ | decide)]
  simp only [Nat.shiftLeft_eq, BitVec.toNat_ofNat]
  omega
theorem fld_fR (fn : BitVec 3) (k : BitVec 3) (b : BitVec 5) (a : BitVec 5) (d : BitVec 5) (l : BitVec 3) (m : BitVec 6) {lo n : Nat} {v : BitVec n} (h : (fn.toNat * 2 ^ 29 + k.toNat * 2 ^ 26 + b.toNat * 2 ^ 21 + a.toNat * 2 ^ 16 + d.toNat * 2 ^ 11 + l.toNat * 2 ^ 8 + m.toNat * 4 + 3) / 2 ^ lo % 2 ^ n = v.toNat) : fld (fR fn k b a d l m) lo n = v := by
  apply BitVec.eq_of_toNat_eq
  rw [fld, BitVec.extractLsb'_toNat, fR_toNat, Nat.shiftRight_eq_div_pow, h]
theorem lowR (fn : BitVec 3) (k : BitVec 3) (b : BitVec 5) (a : BitVec 5) (d : BitVec 5) (l : BitVec 3) (m : BitVec 6) : fld (fR fn k b a d l m) 0 2 = 3 := by
  have h0 := fn.isLt
  have h1 := k.isLt
  have h2 := b.isLt
  have h3 := a.isLt
  have h4 := d.isLt
  have h5 := l.isLt
  have hm := m.isLt
  exact fld_fR fn k b a d l m (v := 3) (by change _ = 3; omega)
theorem R_2_6 (fn : BitVec 3) (k : BitVec 3) (b : BitVec 5) (a : BitVec 5) (d : BitVec 5) (l : BitVec 3) (m : BitVec 6) : fld (fR fn k b a d l m) 2 6 = m := by
  have h0 := fn.isLt
  have h1 := k.isLt
  have h2 := b.isLt
  have h3 := a.isLt
  have h4 := d.isLt
  have h5 := l.isLt
  have hm := m.isLt
  exact fld_fR fn k b a d l m (by omega)
theorem R_8_2 (fn : BitVec 3) (k : BitVec 3) (b : BitVec 5) (a : BitVec 5) (d : BitVec 5) (l : BitVec 3) (m : BitVec 6) : fld (fR fn k b a d l m) 8 2 = l.extractLsb' 0 2 := by
  have h0 := fn.isLt
  have h1 := k.isLt
  have h2 := b.isLt
  have h3 := a.isLt
  have h4 := d.isLt
  have h5 := l.isLt
  have hm := m.isLt
  exact fld_fR fn k b a d l m (by simp only [BitVec.extractLsb'_toNat, Nat.shiftRight_eq_div_pow]; omega)
theorem R_8_3 (fn : BitVec 3) (k : BitVec 3) (b : BitVec 5) (a : BitVec 5) (d : BitVec 5) (l : BitVec 3) (m : BitVec 6) : fld (fR fn k b a d l m) 8 3 = l := by
  have h0 := fn.isLt
  have h1 := k.isLt
  have h2 := b.isLt
  have h3 := a.isLt
  have h4 := d.isLt
  have h5 := l.isLt
  have hm := m.isLt
  exact fld_fR fn k b a d l m (by omega)
theorem R_10_1 (fn : BitVec 3) (k : BitVec 3) (b : BitVec 5) (a : BitVec 5) (d : BitVec 5) (l : BitVec 3) (m : BitVec 6) : fld (fR fn k b a d l m) 10 1 = l.extractLsb' 2 1 := by
  have h0 := fn.isLt
  have h1 := k.isLt
  have h2 := b.isLt
  have h3 := a.isLt
  have h4 := d.isLt
  have h5 := l.isLt
  have hm := m.isLt
  exact fld_fR fn k b a d l m (by simp only [BitVec.extractLsb'_toNat, Nat.shiftRight_eq_div_pow]; omega)
theorem R_11_1 (fn : BitVec 3) (k : BitVec 3) (b : BitVec 5) (a : BitVec 5) (d : BitVec 5) (l : BitVec 3) (m : BitVec 6) : fld (fR fn k b a d l m) 11 1 = d.extractLsb' 0 1 := by
  have h0 := fn.isLt
  have h1 := k.isLt
  have h2 := b.isLt
  have h3 := a.isLt
  have h4 := d.isLt
  have h5 := l.isLt
  have hm := m.isLt
  exact fld_fR fn k b a d l m (by simp only [BitVec.extractLsb'_toNat, Nat.shiftRight_eq_div_pow]; omega)
theorem R_11_3 (fn : BitVec 3) (k : BitVec 3) (b : BitVec 5) (a : BitVec 5) (d : BitVec 5) (l : BitVec 3) (m : BitVec 6) : fld (fR fn k b a d l m) 11 3 = d.extractLsb' 0 3 := by
  have h0 := fn.isLt
  have h1 := k.isLt
  have h2 := b.isLt
  have h3 := a.isLt
  have h4 := d.isLt
  have h5 := l.isLt
  have hm := m.isLt
  exact fld_fR fn k b a d l m (by simp only [BitVec.extractLsb'_toNat, Nat.shiftRight_eq_div_pow]; omega)
theorem R_11_4 (fn : BitVec 3) (k : BitVec 3) (b : BitVec 5) (a : BitVec 5) (d : BitVec 5) (l : BitVec 3) (m : BitVec 6) : fld (fR fn k b a d l m) 11 4 = d.extractLsb' 0 4 := by
  have h0 := fn.isLt
  have h1 := k.isLt
  have h2 := b.isLt
  have h3 := a.isLt
  have h4 := d.isLt
  have h5 := l.isLt
  have hm := m.isLt
  exact fld_fR fn k b a d l m (by simp only [BitVec.extractLsb'_toNat, Nat.shiftRight_eq_div_pow]; omega)
theorem R_11_5 (fn : BitVec 3) (k : BitVec 3) (b : BitVec 5) (a : BitVec 5) (d : BitVec 5) (l : BitVec 3) (m : BitVec 6) : fld (fR fn k b a d l m) 11 5 = d := by
  have h0 := fn.isLt
  have h1 := k.isLt
  have h2 := b.isLt
  have h3 := a.isLt
  have h4 := d.isLt
  have h5 := l.isLt
  have hm := m.isLt
  exact fld_fR fn k b a d l m (by omega)
theorem R_12_4 (fn : BitVec 3) (k : BitVec 3) (b : BitVec 5) (a : BitVec 5) (d : BitVec 5) (l : BitVec 3) (m : BitVec 6) : fld (fR fn k b a d l m) 12 4 = d.extractLsb' 1 4 := by
  have h0 := fn.isLt
  have h1 := k.isLt
  have h2 := b.isLt
  have h3 := a.isLt
  have h4 := d.isLt
  have h5 := l.isLt
  have hm := m.isLt
  exact fld_fR fn k b a d l m (by simp only [BitVec.extractLsb'_toNat, Nat.shiftRight_eq_div_pow]; omega)
theorem R_15_1 (fn : BitVec 3) (k : BitVec 3) (b : BitVec 5) (a : BitVec 5) (d : BitVec 5) (l : BitVec 3) (m : BitVec 6) : fld (fR fn k b a d l m) 15 1 = d.extractLsb' 4 1 := by
  have h0 := fn.isLt
  have h1 := k.isLt
  have h2 := b.isLt
  have h3 := a.isLt
  have h4 := d.isLt
  have h5 := l.isLt
  have hm := m.isLt
  exact fld_fR fn k b a d l m (by simp only [BitVec.extractLsb'_toNat, Nat.shiftRight_eq_div_pow]; omega)
theorem R_16_3 (fn : BitVec 3) (k : BitVec 3) (b : BitVec 5) (a : BitVec 5) (d : BitVec 5) (l : BitVec 3) (m : BitVec 6) : fld (fR fn k b a d l m) 16 3 = a.extractLsb' 0 3 := by
  have h0 := fn.isLt
  have h1 := k.isLt
  have h2 := b.isLt
  have h3 := a.isLt
  have h4 := d.isLt
  have h5 := l.isLt
  have hm := m.isLt
  exact fld_fR fn k b a d l m (by simp only [BitVec.extractLsb'_toNat, Nat.shiftRight_eq_div_pow]; omega)
theorem R_16_4 (fn : BitVec 3) (k : BitVec 3) (b : BitVec 5) (a : BitVec 5) (d : BitVec 5) (l : BitVec 3) (m : BitVec 6) : fld (fR fn k b a d l m) 16 4 = a.extractLsb' 0 4 := by
  have h0 := fn.isLt
  have h1 := k.isLt
  have h2 := b.isLt
  have h3 := a.isLt
  have h4 := d.isLt
  have h5 := l.isLt
  have hm := m.isLt
  exact fld_fR fn k b a d l m (by simp only [BitVec.extractLsb'_toNat, Nat.shiftRight_eq_div_pow]; omega)
theorem R_16_5 (fn : BitVec 3) (k : BitVec 3) (b : BitVec 5) (a : BitVec 5) (d : BitVec 5) (l : BitVec 3) (m : BitVec 6) : fld (fR fn k b a d l m) 16 5 = a := by
  have h0 := fn.isLt
  have h1 := k.isLt
  have h2 := b.isLt
  have h3 := a.isLt
  have h4 := d.isLt
  have h5 := l.isLt
  have hm := m.isLt
  exact fld_fR fn k b a d l m (by omega)
theorem R_20_1 (fn : BitVec 3) (k : BitVec 3) (b : BitVec 5) (a : BitVec 5) (d : BitVec 5) (l : BitVec 3) (m : BitVec 6) : fld (fR fn k b a d l m) 20 1 = a.extractLsb' 4 1 := by
  have h0 := fn.isLt
  have h1 := k.isLt
  have h2 := b.isLt
  have h3 := a.isLt
  have h4 := d.isLt
  have h5 := l.isLt
  have hm := m.isLt
  exact fld_fR fn k b a d l m (by simp only [BitVec.extractLsb'_toNat, Nat.shiftRight_eq_div_pow]; omega)
theorem R_21_3 (fn : BitVec 3) (k : BitVec 3) (b : BitVec 5) (a : BitVec 5) (d : BitVec 5) (l : BitVec 3) (m : BitVec 6) : fld (fR fn k b a d l m) 21 3 = b.extractLsb' 0 3 := by
  have h0 := fn.isLt
  have h1 := k.isLt
  have h2 := b.isLt
  have h3 := a.isLt
  have h4 := d.isLt
  have h5 := l.isLt
  have hm := m.isLt
  exact fld_fR fn k b a d l m (by simp only [BitVec.extractLsb'_toNat, Nat.shiftRight_eq_div_pow]; omega)
theorem R_21_5 (fn : BitVec 3) (k : BitVec 3) (b : BitVec 5) (a : BitVec 5) (d : BitVec 5) (l : BitVec 3) (m : BitVec 6) : fld (fR fn k b a d l m) 21 5 = b := by
  have h0 := fn.isLt
  have h1 := k.isLt
  have h2 := b.isLt
  have h3 := a.isLt
  have h4 := d.isLt
  have h5 := l.isLt
  have hm := m.isLt
  exact fld_fR fn k b a d l m (by omega)
theorem R_26_1 (fn : BitVec 3) (k : BitVec 3) (b : BitVec 5) (a : BitVec 5) (d : BitVec 5) (l : BitVec 3) (m : BitVec 6) : fld (fR fn k b a d l m) 26 1 = k.extractLsb' 0 1 := by
  have h0 := fn.isLt
  have h1 := k.isLt
  have h2 := b.isLt
  have h3 := a.isLt
  have h4 := d.isLt
  have h5 := l.isLt
  have hm := m.isLt
  exact fld_fR fn k b a d l m (by simp only [BitVec.extractLsb'_toNat, Nat.shiftRight_eq_div_pow]; omega)
theorem R_26_2 (fn : BitVec 3) (k : BitVec 3) (b : BitVec 5) (a : BitVec 5) (d : BitVec 5) (l : BitVec 3) (m : BitVec 6) : fld (fR fn k b a d l m) 26 2 = k.extractLsb' 0 2 := by
  have h0 := fn.isLt
  have h1 := k.isLt
  have h2 := b.isLt
  have h3 := a.isLt
  have h4 := d.isLt
  have h5 := l.isLt
  have hm := m.isLt
  exact fld_fR fn k b a d l m (by simp only [BitVec.extractLsb'_toNat, Nat.shiftRight_eq_div_pow]; omega)
theorem R_26_3 (fn : BitVec 3) (k : BitVec 3) (b : BitVec 5) (a : BitVec 5) (d : BitVec 5) (l : BitVec 3) (m : BitVec 6) : fld (fR fn k b a d l m) 26 3 = k := by
  have h0 := fn.isLt
  have h1 := k.isLt
  have h2 := b.isLt
  have h3 := a.isLt
  have h4 := d.isLt
  have h5 := l.isLt
  have hm := m.isLt
  exact fld_fR fn k b a d l m (by omega)
theorem R_27_2 (fn : BitVec 3) (k : BitVec 3) (b : BitVec 5) (a : BitVec 5) (d : BitVec 5) (l : BitVec 3) (m : BitVec 6) : fld (fR fn k b a d l m) 27 2 = k.extractLsb' 1 2 := by
  have h0 := fn.isLt
  have h1 := k.isLt
  have h2 := b.isLt
  have h3 := a.isLt
  have h4 := d.isLt
  have h5 := l.isLt
  have hm := m.isLt
  exact fld_fR fn k b a d l m (by simp only [BitVec.extractLsb'_toNat, Nat.shiftRight_eq_div_pow]; omega)
theorem R_29_3 (fn : BitVec 3) (k : BitVec 3) (b : BitVec 5) (a : BitVec 5) (d : BitVec 5) (l : BitVec 3) (m : BitVec 6) : fld (fR fn k b a d l m) 29 3 = fn := by
  have h0 := fn.isLt
  have h1 := k.isLt
  have h2 := b.isLt
  have h3 := a.isLt
  have h4 := d.isLt
  have h5 := l.isLt
  have hm := m.isLt
  exact fld_fR fn k b a d l m (by omega)
/-- A word of format M or I. -/
def fM (fn : BitVec 3) (o : BitVec 8) (a : BitVec 5) (d : BitVec 5) (l : BitVec 3) (m : BitVec 6) : BitVec 32 := fn ++ o ++ a ++ d ++ l ++ m ++ 3#2
theorem fM_toNat (fn : BitVec 3) (o : BitVec 8) (a : BitVec 5) (d : BitVec 5) (l : BitVec 3) (m : BitVec 6) : (fM fn o a d l m).toNat = fn.toNat * 2 ^ 29 + o.toNat * 2 ^ 21 + a.toNat * 2 ^ 16 + d.toNat * 2 ^ 11 + l.toNat * 2 ^ 8 + m.toNat * 4 + 3 := by
  unfold fM
  simp only [BitVec.toNat_append]
  repeat rw [← Nat.shiftLeft_add_eq_or_of_lt (by first | exact BitVec.isLt _ | decide)]
  simp only [Nat.shiftLeft_eq, BitVec.toNat_ofNat]
  omega
theorem fld_fM (fn : BitVec 3) (o : BitVec 8) (a : BitVec 5) (d : BitVec 5) (l : BitVec 3) (m : BitVec 6) {lo n : Nat} {v : BitVec n} (h : (fn.toNat * 2 ^ 29 + o.toNat * 2 ^ 21 + a.toNat * 2 ^ 16 + d.toNat * 2 ^ 11 + l.toNat * 2 ^ 8 + m.toNat * 4 + 3) / 2 ^ lo % 2 ^ n = v.toNat) : fld (fM fn o a d l m) lo n = v := by
  apply BitVec.eq_of_toNat_eq
  rw [fld, BitVec.extractLsb'_toNat, fM_toNat, Nat.shiftRight_eq_div_pow, h]
theorem lowM (fn : BitVec 3) (o : BitVec 8) (a : BitVec 5) (d : BitVec 5) (l : BitVec 3) (m : BitVec 6) : fld (fM fn o a d l m) 0 2 = 3 := by
  have h0 := fn.isLt
  have h1 := o.isLt
  have h2 := a.isLt
  have h3 := d.isLt
  have h4 := l.isLt
  have hm := m.isLt
  exact fld_fM fn o a d l m (v := 3) (by change _ = 3; omega)
theorem M_2_6 (fn : BitVec 3) (o : BitVec 8) (a : BitVec 5) (d : BitVec 5) (l : BitVec 3) (m : BitVec 6) : fld (fM fn o a d l m) 2 6 = m := by
  have h0 := fn.isLt
  have h1 := o.isLt
  have h2 := a.isLt
  have h3 := d.isLt
  have h4 := l.isLt
  have hm := m.isLt
  exact fld_fM fn o a d l m (by omega)
theorem M_8_3 (fn : BitVec 3) (o : BitVec 8) (a : BitVec 5) (d : BitVec 5) (l : BitVec 3) (m : BitVec 6) : fld (fM fn o a d l m) 8 3 = l := by
  have h0 := fn.isLt
  have h1 := o.isLt
  have h2 := a.isLt
  have h3 := d.isLt
  have h4 := l.isLt
  have hm := m.isLt
  exact fld_fM fn o a d l m (by omega)
theorem M_11_5 (fn : BitVec 3) (o : BitVec 8) (a : BitVec 5) (d : BitVec 5) (l : BitVec 3) (m : BitVec 6) : fld (fM fn o a d l m) 11 5 = d := by
  have h0 := fn.isLt
  have h1 := o.isLt
  have h2 := a.isLt
  have h3 := d.isLt
  have h4 := l.isLt
  have hm := m.isLt
  exact fld_fM fn o a d l m (by omega)
theorem M_16_5 (fn : BitVec 3) (o : BitVec 8) (a : BitVec 5) (d : BitVec 5) (l : BitVec 3) (m : BitVec 6) : fld (fM fn o a d l m) 16 5 = a := by
  have h0 := fn.isLt
  have h1 := o.isLt
  have h2 := a.isLt
  have h3 := d.isLt
  have h4 := l.isLt
  have hm := m.isLt
  exact fld_fM fn o a d l m (by omega)
theorem M_21_6 (fn : BitVec 3) (o : BitVec 8) (a : BitVec 5) (d : BitVec 5) (l : BitVec 3) (m : BitVec 6) : fld (fM fn o a d l m) 21 6 = o.extractLsb' 0 6 := by
  have h0 := fn.isLt
  have h1 := o.isLt
  have h2 := a.isLt
  have h3 := d.isLt
  have h4 := l.isLt
  have hm := m.isLt
  exact fld_fM fn o a d l m (by simp only [BitVec.extractLsb'_toNat, Nat.shiftRight_eq_div_pow]; omega)
theorem M_21_8 (fn : BitVec 3) (o : BitVec 8) (a : BitVec 5) (d : BitVec 5) (l : BitVec 3) (m : BitVec 6) : fld (fM fn o a d l m) 21 8 = o := by
  have h0 := fn.isLt
  have h1 := o.isLt
  have h2 := a.isLt
  have h3 := d.isLt
  have h4 := l.isLt
  have hm := m.isLt
  exact fld_fM fn o a d l m (by omega)
theorem M_27_2 (fn : BitVec 3) (o : BitVec 8) (a : BitVec 5) (d : BitVec 5) (l : BitVec 3) (m : BitVec 6) : fld (fM fn o a d l m) 27 2 = o.extractLsb' 6 2 := by
  have h0 := fn.isLt
  have h1 := o.isLt
  have h2 := a.isLt
  have h3 := d.isLt
  have h4 := l.isLt
  have hm := m.isLt
  exact fld_fM fn o a d l m (by simp only [BitVec.extractLsb'_toNat, Nat.shiftRight_eq_div_pow]; omega)
theorem M_29_3 (fn : BitVec 3) (o : BitVec 8) (a : BitVec 5) (d : BitVec 5) (l : BitVec 3) (m : BitVec 6) : fld (fM fn o a d l m) 29 3 = fn := by
  have h0 := fn.isLt
  have h1 := o.isLt
  have h2 := a.isLt
  have h3 := d.isLt
  have h4 := l.isLt
  have hm := m.isLt
  exact fld_fM fn o a d l m (by omega)
/-- A word of format B or LP. -/
def fB (o : BitVec 11) (b : BitVec 5) (a : BitVec 5) (l : BitVec 3) (m : BitVec 6) : BitVec 32 := o ++ b ++ a ++ l ++ m ++ 3#2
theorem fB_toNat (o : BitVec 11) (b : BitVec 5) (a : BitVec 5) (l : BitVec 3) (m : BitVec 6) : (fB o b a l m).toNat = o.toNat * 2 ^ 21 + b.toNat * 2 ^ 16 + a.toNat * 2 ^ 11 + l.toNat * 2 ^ 8 + m.toNat * 4 + 3 := by
  unfold fB
  simp only [BitVec.toNat_append]
  repeat rw [← Nat.shiftLeft_add_eq_or_of_lt (by first | exact BitVec.isLt _ | decide)]
  simp only [Nat.shiftLeft_eq, BitVec.toNat_ofNat]
  omega
theorem fld_fB (o : BitVec 11) (b : BitVec 5) (a : BitVec 5) (l : BitVec 3) (m : BitVec 6) {lo n : Nat} {v : BitVec n} (h : (o.toNat * 2 ^ 21 + b.toNat * 2 ^ 16 + a.toNat * 2 ^ 11 + l.toNat * 2 ^ 8 + m.toNat * 4 + 3) / 2 ^ lo % 2 ^ n = v.toNat) : fld (fB o b a l m) lo n = v := by
  apply BitVec.eq_of_toNat_eq
  rw [fld, BitVec.extractLsb'_toNat, fB_toNat, Nat.shiftRight_eq_div_pow, h]
theorem lowB (o : BitVec 11) (b : BitVec 5) (a : BitVec 5) (l : BitVec 3) (m : BitVec 6) : fld (fB o b a l m) 0 2 = 3 := by
  have h0 := o.isLt
  have h1 := b.isLt
  have h2 := a.isLt
  have h3 := l.isLt
  have hm := m.isLt
  exact fld_fB o b a l m (v := 3) (by change _ = 3; omega)
theorem B_2_6 (o : BitVec 11) (b : BitVec 5) (a : BitVec 5) (l : BitVec 3) (m : BitVec 6) : fld (fB o b a l m) 2 6 = m := by
  have h0 := o.isLt
  have h1 := b.isLt
  have h2 := a.isLt
  have h3 := l.isLt
  have hm := m.isLt
  exact fld_fB o b a l m (by omega)
theorem B_8_3 (o : BitVec 11) (b : BitVec 5) (a : BitVec 5) (l : BitVec 3) (m : BitVec 6) : fld (fB o b a l m) 8 3 = l := by
  have h0 := o.isLt
  have h1 := b.isLt
  have h2 := a.isLt
  have h3 := l.isLt
  have hm := m.isLt
  exact fld_fB o b a l m (by omega)
theorem B_11_3 (o : BitVec 11) (b : BitVec 5) (a : BitVec 5) (l : BitVec 3) (m : BitVec 6) : fld (fB o b a l m) 11 3 = a.extractLsb' 0 3 := by
  have h0 := o.isLt
  have h1 := b.isLt
  have h2 := a.isLt
  have h3 := l.isLt
  have hm := m.isLt
  exact fld_fB o b a l m (by simp only [BitVec.extractLsb'_toNat, Nat.shiftRight_eq_div_pow]; omega)
theorem B_11_5 (o : BitVec 11) (b : BitVec 5) (a : BitVec 5) (l : BitVec 3) (m : BitVec 6) : fld (fB o b a l m) 11 5 = a := by
  have h0 := o.isLt
  have h1 := b.isLt
  have h2 := a.isLt
  have h3 := l.isLt
  have hm := m.isLt
  exact fld_fB o b a l m (by omega)
theorem B_16_5 (o : BitVec 11) (b : BitVec 5) (a : BitVec 5) (l : BitVec 3) (m : BitVec 6) : fld (fB o b a l m) 16 5 = b := by
  have h0 := o.isLt
  have h1 := b.isLt
  have h2 := a.isLt
  have h3 := l.isLt
  have hm := m.isLt
  exact fld_fB o b a l m (by omega)
theorem B_21_11 (o : BitVec 11) (b : BitVec 5) (a : BitVec 5) (l : BitVec 3) (m : BitVec 6) : fld (fB o b a l m) 21 11 = o := by
  have h0 := o.isLt
  have h1 := b.isLt
  have h2 := a.isLt
  have h3 := l.isLt
  have hm := m.isLt
  exact fld_fB o b a l m (by omega)
/-- A word of format L. -/
def fL (i : BitVec 16) (d : BitVec 5) (l : BitVec 3) (m : BitVec 6) : BitVec 32 := i ++ d ++ l ++ m ++ 3#2
theorem fL_toNat (i : BitVec 16) (d : BitVec 5) (l : BitVec 3) (m : BitVec 6) : (fL i d l m).toNat = i.toNat * 2 ^ 16 + d.toNat * 2 ^ 11 + l.toNat * 2 ^ 8 + m.toNat * 4 + 3 := by
  unfold fL
  simp only [BitVec.toNat_append]
  repeat rw [← Nat.shiftLeft_add_eq_or_of_lt (by first | exact BitVec.isLt _ | decide)]
  simp only [Nat.shiftLeft_eq, BitVec.toNat_ofNat]
  omega
theorem fld_fL (i : BitVec 16) (d : BitVec 5) (l : BitVec 3) (m : BitVec 6) {lo n : Nat} {v : BitVec n} (h : (i.toNat * 2 ^ 16 + d.toNat * 2 ^ 11 + l.toNat * 2 ^ 8 + m.toNat * 4 + 3) / 2 ^ lo % 2 ^ n = v.toNat) : fld (fL i d l m) lo n = v := by
  apply BitVec.eq_of_toNat_eq
  rw [fld, BitVec.extractLsb'_toNat, fL_toNat, Nat.shiftRight_eq_div_pow, h]
theorem lowL (i : BitVec 16) (d : BitVec 5) (l : BitVec 3) (m : BitVec 6) : fld (fL i d l m) 0 2 = 3 := by
  have h0 := i.isLt
  have h1 := d.isLt
  have h2 := l.isLt
  have hm := m.isLt
  exact fld_fL i d l m (v := 3) (by change _ = 3; omega)
theorem L_2_6 (i : BitVec 16) (d : BitVec 5) (l : BitVec 3) (m : BitVec 6) : fld (fL i d l m) 2 6 = m := by
  have h0 := i.isLt
  have h1 := d.isLt
  have h2 := l.isLt
  have hm := m.isLt
  exact fld_fL i d l m (by omega)
theorem L_8_3 (i : BitVec 16) (d : BitVec 5) (l : BitVec 3) (m : BitVec 6) : fld (fL i d l m) 8 3 = l := by
  have h0 := i.isLt
  have h1 := d.isLt
  have h2 := l.isLt
  have hm := m.isLt
  exact fld_fL i d l m (by omega)
theorem L_11_5 (i : BitVec 16) (d : BitVec 5) (l : BitVec 3) (m : BitVec 6) : fld (fL i d l m) 11 5 = d := by
  have h0 := i.isLt
  have h1 := d.isLt
  have h2 := l.isLt
  have hm := m.isLt
  exact fld_fL i d l m (by omega)
theorem L_16_16 (i : BitVec 16) (d : BitVec 5) (l : BitVec 3) (m : BitVec 6) : fld (fL i d l m) 16 16 = i := by
  have h0 := i.isLt
  have h1 := d.isLt
  have h2 := l.isLt
  have hm := m.isLt
  exact fld_fL i d l m (by omega)
/-- A word of format J. -/
def fJ (j : BitVec 1) (o : BitVec 23) (m : BitVec 6) : BitVec 32 := j ++ o ++ m ++ 3#2
theorem fJ_toNat (j : BitVec 1) (o : BitVec 23) (m : BitVec 6) : (fJ j o m).toNat = j.toNat * 2 ^ 31 + o.toNat * 2 ^ 8 + m.toNat * 4 + 3 := by
  unfold fJ
  simp only [BitVec.toNat_append]
  repeat rw [← Nat.shiftLeft_add_eq_or_of_lt (by first | exact BitVec.isLt _ | decide)]
  simp only [Nat.shiftLeft_eq, BitVec.toNat_ofNat]
  omega
theorem fld_fJ (j : BitVec 1) (o : BitVec 23) (m : BitVec 6) {lo n : Nat} {v : BitVec n} (h : (j.toNat * 2 ^ 31 + o.toNat * 2 ^ 8 + m.toNat * 4 + 3) / 2 ^ lo % 2 ^ n = v.toNat) : fld (fJ j o m) lo n = v := by
  apply BitVec.eq_of_toNat_eq
  rw [fld, BitVec.extractLsb'_toNat, fJ_toNat, Nat.shiftRight_eq_div_pow, h]
theorem lowJ (j : BitVec 1) (o : BitVec 23) (m : BitVec 6) : fld (fJ j o m) 0 2 = 3 := by
  have h0 := j.isLt
  have h1 := o.isLt
  have hm := m.isLt
  exact fld_fJ j o m (v := 3) (by change _ = 3; omega)
theorem J_2_6 (j : BitVec 1) (o : BitVec 23) (m : BitVec 6) : fld (fJ j o m) 2 6 = m := by
  have h0 := j.isLt
  have h1 := o.isLt
  have hm := m.isLt
  exact fld_fJ j o m (by omega)
theorem J_8_23 (j : BitVec 1) (o : BitVec 23) (m : BitVec 6) : fld (fJ j o m) 8 23 = o := by
  have h0 := j.isLt
  have h1 := o.isLt
  have hm := m.isLt
  exact fld_fJ j o m (by omega)
theorem J_31_1 (j : BitVec 1) (o : BitVec 23) (m : BitVec 6) : fld (fJ j o m) 31 1 = j := by
  have h0 := j.isLt
  have h1 := o.isLt
  have hm := m.isLt
  exact fld_fJ j o m (by omega)

theorem fld16_eq {N lo n : Nat} {v : BitVec n} (hn : lo + n ≤ 16) (h : N / 2 ^ lo % 2 ^ n = v.toNat) : fld16 (BitVec.ofNat 16 N) lo n = v := by
  apply BitVec.eq_of_toNat_eq
  have e : 2 ^ 16 = 2 ^ lo * 2 ^ (16 - lo) := by rw [← Nat.pow_add]; congr 1; omega
  rw [fld16, BitVec.extractLsb'_toNat, BitVec.toNat_ofNat, Nat.shiftRight_eq_div_pow, ← h, e, Nat.mod_mul_right_div_self,
    Nat.mod_mod_of_dvd _ (Nat.pow_dvd_pow 2 (by omega))]

/-! ## Parts of fields -/

theorem c1_4_0_4 (x0 : BitVec 1) (x1 : BitVec 4) : (x0 ++ x1).extractLsb' 0 4 = x1 := by
  have h : ∀ (x0 : BitVec 1) (x1 : BitVec 4), (x0 ++ x1).extractLsb' 0 4 = x1 := by decide
  exact h x0 x1
theorem c1_4_4_1 (x0 : BitVec 1) (x1 : BitVec 4) : (x0 ++ x1).extractLsb' 4 1 = x0 := by
  have h : ∀ (x0 : BitVec 1) (x1 : BitVec 4), (x0 ++ x1).extractLsb' 4 1 = x0 := by decide
  exact h x0 x1
theorem c2_1_0_1 (x0 : BitVec 2) (x1 : BitVec 1) : (x0 ++ x1).extractLsb' 0 1 = x1 := by
  have h : ∀ (x0 : BitVec 2) (x1 : BitVec 1), (x0 ++ x1).extractLsb' 0 1 = x1 := by decide
  exact h x0 x1
theorem c2_1_1_2 (x0 : BitVec 2) (x1 : BitVec 1) : (x0 ++ x1).extractLsb' 1 2 = x0 := by
  have h : ∀ (x0 : BitVec 2) (x1 : BitVec 1), (x0 ++ x1).extractLsb' 1 2 = x0 := by decide
  exact h x0 x1
theorem c4_1_0_1 (x0 : BitVec 4) (x1 : BitVec 1) : (x0 ++ x1).extractLsb' 0 1 = x1 := by
  have h : ∀ (x0 : BitVec 4) (x1 : BitVec 1), (x0 ++ x1).extractLsb' 0 1 = x1 := by decide
  exact h x0 x1
theorem c4_1_1_4 (x0 : BitVec 4) (x1 : BitVec 1) : (x0 ++ x1).extractLsb' 1 4 = x0 := by
  have h : ∀ (x0 : BitVec 4) (x1 : BitVec 1), (x0 ++ x1).extractLsb' 1 4 = x0 := by decide
  exact h x0 x1
theorem n1_5_0_1 (x : BitVec 1) : (x.setWidth 5).extractLsb' 0 1 = x := by
  have h : ∀ x : BitVec 1, (x.setWidth 5).extractLsb' 0 1 = x := by decide
  exact h x
theorem n1_5_1_4 (x : BitVec 1) : (x.setWidth 5).extractLsb' 1 4 = 0 := by
  have h : ∀ x : BitVec 1, (x.setWidth 5).extractLsb' 1 4 = 0 := by decide
  exact h x
theorem n2_3_0_2 (x : BitVec 2) : (x.setWidth 3).extractLsb' 0 2 = x := by
  have h : ∀ x : BitVec 2, (x.setWidth 3).extractLsb' 0 2 = x := by decide
  exact h x
theorem n2_3_2_1 (x : BitVec 2) : (x.setWidth 3).extractLsb' 2 1 = 0 := by
  have h : ∀ x : BitVec 2, (x.setWidth 3).extractLsb' 2 1 = 0 := by decide
  exact h x
theorem n3_5_0_3 (x : BitVec 3) : (x.setWidth 5).extractLsb' 0 3 = x := by
  have h : ∀ x : BitVec 3, (x.setWidth 5).extractLsb' 0 3 = x := by decide
  exact h x
theorem n4_5_0_4 (x : BitVec 4) : (x.setWidth 5).extractLsb' 0 4 = x := by
  have h : ∀ x : BitVec 4, (x.setWidth 5).extractLsb' 0 4 = x := by decide
  exact h x
theorem n4_5_4_1 (x : BitVec 4) : (x.setWidth 5).extractLsb' 4 1 = 0 := by
  have h : ∀ x : BitVec 4, (x.setWidth 5).extractLsb' 4 1 = 0 := by decide
  exact h x
theorem n6_8_0_6 (x : BitVec 6) : (x.setWidth 8).extractLsb' 0 6 = x := by
  have h : ∀ x : BitVec 6, (x.setWidth 8).extractLsb' 0 6 = x := by decide
  exact h x
theorem n6_8_6_2 (x : BitVec 6) : (x.setWidth 8).extractLsb' 6 2 = 0 := by
  have h : ∀ x : BitVec 6, (x.setWidth 8).extractLsb' 6 2 = 0 := by decide
  exact h x

/-! ## Encodings by shape -/

theorem e0 {base : Nat} {c_fn : BitVec 3} {o : BitVec 8} {a : BitVec 5} {d : BitVec 5} {l : BitVec 3} {m : BitVec 6} (h : base + 0 = c_fn.toNat * 2 ^ 29 + 0 + m.toNat * 4 + 3) :
    word32 base [put 21 o, put 16 a, put 11 d, put 8 l] = .w32 (fM c_fn o a d l m) := by
  unfold word32
  refine congrArg Enc.w32 (BitVec.eq_of_toNat_eq ?_)
  have v0 := o.isLt
  have v1 := a.isLt
  have v2 := d.isLt
  have v3 := l.isLt
  have k0 := c_fn.isLt
  have hm := m.isLt
  rw [fM_toNat]
  simp only [List.foldl, put, bit, Scope.code, if_true, Bool.false_eq_true, if_false, BitVec.toNat_ofNat]
  omega
theorem e1 {base : Nat} {c_fn : BitVec 3} {c_k : BitVec 3} {b : BitVec 5} {a : BitVec 5} {d : BitVec 5} {l : BitVec 3} {m : BitVec 6} (h : base + 0 = c_fn.toNat * 2 ^ 29 + c_k.toNat * 2 ^ 26 + 0 + m.toNat * 4 + 3) :
    word32 base [put 21 b, put 16 a, put 11 d, put 8 l] = .w32 (fR c_fn c_k b a d l m) := by
  unfold word32
  refine congrArg Enc.w32 (BitVec.eq_of_toNat_eq ?_)
  have v0 := b.isLt
  have v1 := a.isLt
  have v2 := d.isLt
  have v3 := l.isLt
  have k0 := c_fn.isLt
  have k1 := c_k.isLt
  have hm := m.isLt
  rw [fR_toNat]
  simp only [List.foldl, put, bit, Scope.code, if_true, Bool.false_eq_true, if_false, BitVec.toNat_ofNat]
  omega
theorem e2 {base : Nat} {c_fn : BitVec 3} {c_k : BitVec 3} {c_b : BitVec 5} {a : BitVec 5} {d : BitVec 5} {l : BitVec 3} {m : BitVec 6} (h : base + 0 = c_fn.toNat * 2 ^ 29 + c_k.toNat * 2 ^ 26 + c_b.toNat * 2 ^ 21 + 0 + m.toNat * 4 + 3) :
    word32 base [put 16 a, put 11 d, put 8 l] = .w32 (fR c_fn c_k c_b a d l m) := by
  unfold word32
  refine congrArg Enc.w32 (BitVec.eq_of_toNat_eq ?_)
  have v0 := a.isLt
  have v1 := d.isLt
  have v2 := l.isLt
  have k0 := c_fn.isLt
  have k1 := c_k.isLt
  have k2 := c_b.isLt
  have hm := m.isLt
  rw [fR_toNat]
  simp only [List.foldl, put, bit, Scope.code, if_true, Bool.false_eq_true, if_false, BitVec.toNat_ofNat]
  omega
theorem e3 {base : Nat} {c_fn : BitVec 3} {i : BitVec 8} {a : BitVec 5} {d : BitVec 5} {l : BitVec 3} {m : BitVec 6} (h : base + 0 = c_fn.toNat * 2 ^ 29 + 0 + m.toNat * 4 + 3) :
    word32 base [put 21 i, put 16 a, put 11 d, put 8 l] = .w32 (fM c_fn i a d l m) := by
  unfold word32
  refine congrArg Enc.w32 (BitVec.eq_of_toNat_eq ?_)
  have v0 := i.isLt
  have v1 := a.isLt
  have v2 := d.isLt
  have v3 := l.isLt
  have k0 := c_fn.isLt
  have hm := m.isLt
  rw [fM_toNat]
  simp only [List.foldl, put, bit, Scope.code, if_true, Bool.false_eq_true, if_false, BitVec.toNat_ofNat]
  omega
theorem e4 {base : Nat} {c_fn : BitVec 3} {i : BitVec 6} {a : BitVec 5} {d : BitVec 5} {l : BitVec 3} {m : BitVec 6} (h : base + 0 = c_fn.toNat * 2 ^ 29 + 0 + m.toNat * 4 + 3) :
    word32 base [put 21 i, put 16 a, put 11 d, put 8 l] = .w32 (fM c_fn (i.setWidth 8) a d l m) := by
  unfold word32
  refine congrArg Enc.w32 (BitVec.eq_of_toNat_eq ?_)
  have v0 := i.isLt
  have v1 := a.isLt
  have v2 := d.isLt
  have v3 := l.isLt
  have k0 := c_fn.isLt
  have hm := m.isLt
  rw [fM_toNat]
  simp only [List.foldl, put, bit, Scope.code, if_true, Bool.false_eq_true, if_false, BitVec.toNat_ofNat, BitVec.toNat_setWidth]
  omega
theorem e5 {base : Nat} {i : BitVec 16} {d : BitVec 5} {l : BitVec 3} {m : BitVec 6} (h : base + 0 = 0 + m.toNat * 4 + 3) :
    word32 base [put 16 i, put 11 d, put 8 l] = .w32 (fL i d l m) := by
  unfold word32
  refine congrArg Enc.w32 (BitVec.eq_of_toNat_eq ?_)
  have v0 := i.isLt
  have v1 := d.isLt
  have v2 := l.isLt
  have hm := m.isLt
  rw [fL_toNat]
  simp only [List.foldl, put, bit, Scope.code, if_true, Bool.false_eq_true, if_false, BitVec.toNat_ofNat]
  omega
theorem e6 {base : Nat} {c_l : BitVec 3} {o : BitVec 11} {b : BitVec 5} {a : BitVec 5} {m : BitVec 6} (h : base + 0 = c_l.toNat * 2 ^ 8 + 0 + m.toNat * 4 + 3) :
    word32 base [put 21 o, put 16 b, put 11 a] = .w32 (fB o b a c_l m) := by
  unfold word32
  refine congrArg Enc.w32 (BitVec.eq_of_toNat_eq ?_)
  have v0 := o.isLt
  have v1 := b.isLt
  have v2 := a.isLt
  have k0 := c_l.isLt
  have hm := m.isLt
  rw [fB_toNat]
  simp only [List.foldl, put, bit, Scope.code, if_true, Bool.false_eq_true, if_false, BitVec.toNat_ofNat]
  omega
theorem e7 {base : Nat} {c_b : BitVec 5} {c_l : BitVec 3} {o : BitVec 11} {a : BitVec 3} {m : BitVec 6} (h : base + 0 = c_b.toNat * 2 ^ 16 + c_l.toNat * 2 ^ 8 + 0 + m.toNat * 4 + 3) :
    word32 base [put 21 o, put 11 a] = .w32 (fB o c_b (a.setWidth 5) c_l m) := by
  unfold word32
  refine congrArg Enc.w32 (BitVec.eq_of_toNat_eq ?_)
  have v0 := o.isLt
  have v1 := a.isLt
  have k0 := c_b.isLt
  have k1 := c_l.isLt
  have hm := m.isLt
  rw [fB_toNat]
  simp only [List.foldl, put, bit, Scope.code, if_true, Bool.false_eq_true, if_false, BitVec.toNat_ofNat, BitVec.toNat_setWidth]
  omega
theorem e8 {base : Nat} {c_j : BitVec 1} {o : BitVec 23} {m : BitVec 6} (h : base + 0 = c_j.toNat * 2 ^ 31 + 0 + m.toNat * 4 + 3) :
    word32 base [put 8 o] = .w32 (fJ c_j o m) := by
  unfold word32
  refine congrArg Enc.w32 (BitVec.eq_of_toNat_eq ?_)
  have v0 := o.isLt
  have k0 := c_j.isLt
  have hm := m.isLt
  rw [fJ_toNat]
  simp only [List.foldl, put, bit, Scope.code, if_true, Bool.false_eq_true, if_false, BitVec.toNat_ofNat]
  omega
theorem e9 {base : Nat} {c_a : BitVec 5} {e : BitVec 11} {a : BitVec 5} {l : BitVec 3} {m : BitVec 6} (h : base + 0 = c_a.toNat * 2 ^ 11 + 0 + m.toNat * 4 + 3) :
    word32 base [put 21 e, put 16 a, put 8 l] = .w32 (fB e a c_a l m) := by
  unfold word32
  refine congrArg Enc.w32 (BitVec.eq_of_toNat_eq ?_)
  have v0 := e.isLt
  have v1 := a.isLt
  have v2 := l.isLt
  have k0 := c_a.isLt
  have hm := m.isLt
  rw [fB_toNat]
  simp only [List.foldl, put, bit, Scope.code, if_true, Bool.false_eq_true, if_false, BitVec.toNat_ofNat]
  omega
theorem e10 {base : Nat} {c_fn : BitVec 3} {c_k : BitVec 3} {c_b : BitVec 5} {c_d : BitVec 5} {a : BitVec 5} {l : BitVec 3} {m : BitVec 6} (h : base + 0 = c_fn.toNat * 2 ^ 29 + c_k.toNat * 2 ^ 26 + c_b.toNat * 2 ^ 21 + c_d.toNat * 2 ^ 11 + 0 + m.toNat * 4 + 3) :
    word32 base [put 16 a, put 8 l] = .w32 (fR c_fn c_k c_b a c_d l m) := by
  unfold word32
  refine congrArg Enc.w32 (BitVec.eq_of_toNat_eq ?_)
  have v0 := a.isLt
  have v1 := l.isLt
  have k0 := c_fn.isLt
  have k1 := c_k.isLt
  have k2 := c_b.isLt
  have k3 := c_d.isLt
  have hm := m.isLt
  rw [fR_toNat]
  simp only [List.foldl, put, bit, Scope.code, if_true, Bool.false_eq_true, if_false, BitVec.toNat_ofNat]
  omega
theorem e11 {base : Nat} {c_fn : BitVec 3} {c_k : BitVec 3} {c_b : BitVec 5} {c_a : BitVec 5} {c_d : BitVec 5} {l : BitVec 3} {m : BitVec 6} (h : base + 0 = c_fn.toNat * 2 ^ 29 + c_k.toNat * 2 ^ 26 + c_b.toNat * 2 ^ 21 + c_a.toNat * 2 ^ 16 + c_d.toNat * 2 ^ 11 + 0 + m.toNat * 4 + 3) :
    word32 base [put 8 l] = .w32 (fR c_fn c_k c_b c_a c_d l m) := by
  unfold word32
  refine congrArg Enc.w32 (BitVec.eq_of_toNat_eq ?_)
  have v0 := l.isLt
  have k0 := c_fn.isLt
  have k1 := c_k.isLt
  have k2 := c_b.isLt
  have k3 := c_a.isLt
  have k4 := c_d.isLt
  have hm := m.isLt
  rw [fR_toNat]
  simp only [List.foldl, put, bit, Scope.code, if_true, Bool.false_eq_true, if_false, BitVec.toNat_ofNat]
  omega
theorem e12 {base : Nat} {c_fn : BitVec 3} {c_d : BitVec 5} {o : BitVec 8} {a : BitVec 5} {l : BitVec 3} {m : BitVec 6} (h : base + 0 = c_fn.toNat * 2 ^ 29 + c_d.toNat * 2 ^ 11 + 0 + m.toNat * 4 + 3) :
    word32 base [put 21 o, put 16 a, bit 11 false, put 8 l] = .w32 (fM c_fn o a c_d l m) := by
  unfold word32
  refine congrArg Enc.w32 (BitVec.eq_of_toNat_eq ?_)
  have v0 := o.isLt
  have v1 := a.isLt
  have v2 := l.isLt
  have k0 := c_fn.isLt
  have k1 := c_d.isLt
  have hm := m.isLt
  rw [fM_toNat]
  simp only [List.foldl, put, bit, Scope.code, if_true, Bool.false_eq_true, if_false, BitVec.toNat_ofNat]
  omega
theorem e13 {base : Nat} {c_fn : BitVec 3} {c_d : BitVec 5} {o : BitVec 8} {a : BitVec 5} {l : BitVec 3} {m : BitVec 6} (h : base + 2048 = c_fn.toNat * 2 ^ 29 + c_d.toNat * 2 ^ 11 + 0 + m.toNat * 4 + 3) :
    word32 base [put 21 o, put 16 a, bit 11 true, put 8 l] = .w32 (fM c_fn o a c_d l m) := by
  unfold word32
  refine congrArg Enc.w32 (BitVec.eq_of_toNat_eq ?_)
  have v0 := o.isLt
  have v1 := a.isLt
  have v2 := l.isLt
  have k0 := c_fn.isLt
  have k1 := c_d.isLt
  have hm := m.isLt
  rw [fM_toNat]
  simp only [List.foldl, put, bit, Scope.code, if_true, Bool.false_eq_true, if_false, BitVec.toNat_ofNat]
  omega
theorem e14 {base : Nat} {c_fn : BitVec 3} {c_k : BitVec 3} {c_d : BitVec 5} {b : BitVec 5} {a : BitVec 5} {l : BitVec 3} {m : BitVec 6} (h : base + 0 = c_fn.toNat * 2 ^ 29 + c_k.toNat * 2 ^ 26 + c_d.toNat * 2 ^ 11 + 0 + m.toNat * 4 + 3) :
    word32 base [put 21 b, put 16 a, put 8 l] = .w32 (fR c_fn c_k b a c_d l m) := by
  unfold word32
  refine congrArg Enc.w32 (BitVec.eq_of_toNat_eq ?_)
  have v0 := b.isLt
  have v1 := a.isLt
  have v2 := l.isLt
  have k0 := c_fn.isLt
  have k1 := c_k.isLt
  have k2 := c_d.isLt
  have hm := m.isLt
  rw [fR_toNat]
  simp only [List.foldl, put, bit, Scope.code, if_true, Bool.false_eq_true, if_false, BitVec.toNat_ofNat]
  omega
theorem e15 {base : Nat} {c_fn : BitVec 3} {c_k : BitVec 3} {c_b : BitVec 5} {c_a : BitVec 5} {d : BitVec 5} {l : BitVec 3} {m : BitVec 6} (h : base + 0 = c_fn.toNat * 2 ^ 29 + c_k.toNat * 2 ^ 26 + c_b.toNat * 2 ^ 21 + c_a.toNat * 2 ^ 16 + 0 + m.toNat * 4 + 3) :
    word32 base [put 11 d, put 8 l] = .w32 (fR c_fn c_k c_b c_a d l m) := by
  unfold word32
  refine congrArg Enc.w32 (BitVec.eq_of_toNat_eq ?_)
  have v0 := d.isLt
  have v1 := l.isLt
  have k0 := c_fn.isLt
  have k1 := c_k.isLt
  have k2 := c_b.isLt
  have k3 := c_a.isLt
  have hm := m.isLt
  rw [fR_toNat]
  simp only [List.foldl, put, bit, Scope.code, if_true, Bool.false_eq_true, if_false, BitVec.toNat_ofNat]
  omega
theorem e16 {base : Nat} {c_fn : BitVec 3} {k : BitVec 3} {b : BitVec 5} {a : BitVec 5} {d : BitVec 5} {l : BitVec 3} {m : BitVec 6} (h : base + 0 = c_fn.toNat * 2 ^ 29 + 0 + m.toNat * 4 + 3) :
    word32 base [put 26 k, put 21 b, put 16 a, put 11 d, put 8 l] = .w32 (fR c_fn k b a d l m) := by
  unfold word32
  refine congrArg Enc.w32 (BitVec.eq_of_toNat_eq ?_)
  have v0 := k.isLt
  have v1 := b.isLt
  have v2 := a.isLt
  have v3 := d.isLt
  have v4 := l.isLt
  have k0 := c_fn.isLt
  have hm := m.isLt
  rw [fR_toNat]
  simp only [List.foldl, put, bit, Scope.code, if_true, Bool.false_eq_true, if_false, BitVec.toNat_ofNat]
  omega
theorem e17 {base : Nat} {c_fn : BitVec 3} {c_b : BitVec 5} {k : BitVec 3} {a : BitVec 5} {d : BitVec 5} {l : BitVec 3} {m : BitVec 6} (h : base + 0 = c_fn.toNat * 2 ^ 29 + c_b.toNat * 2 ^ 21 + 0 + m.toNat * 4 + 3) :
    word32 base [put 26 k, put 16 a, put 11 d, put 8 l] = .w32 (fR c_fn k c_b a d l m) := by
  unfold word32
  refine congrArg Enc.w32 (BitVec.eq_of_toNat_eq ?_)
  have v0 := k.isLt
  have v1 := a.isLt
  have v2 := d.isLt
  have v3 := l.isLt
  have k0 := c_fn.isLt
  have k1 := c_b.isLt
  have hm := m.isLt
  rw [fR_toNat]
  simp only [List.foldl, put, bit, Scope.code, if_true, Bool.false_eq_true, if_false, BitVec.toNat_ofNat]
  omega
theorem e18 {base : Nat} {c_fn : BitVec 3} {k : BitVec 2} {b : BitVec 5} {a : BitVec 5} {d : BitVec 5} {l : BitVec 3} {m : BitVec 6} (h : base + 0 = c_fn.toNat * 2 ^ 29 + 0 + m.toNat * 4 + 3) :
    word32 base [put 26 k, put 21 b, put 16 a, put 11 d, put 8 l] = .w32 (fR c_fn (k.setWidth 3) b a d l m) := by
  unfold word32
  refine congrArg Enc.w32 (BitVec.eq_of_toNat_eq ?_)
  have v0 := k.isLt
  have v1 := b.isLt
  have v2 := a.isLt
  have v3 := d.isLt
  have v4 := l.isLt
  have k0 := c_fn.isLt
  have hm := m.isLt
  rw [fR_toNat]
  simp only [List.foldl, put, bit, Scope.code, if_true, Bool.false_eq_true, if_false, BitVec.toNat_ofNat, BitVec.toNat_setWidth]
  omega
theorem e19 {base : Nat} {c_fn : BitVec 3} {k : BitVec 3} {b : BitVec 5} {a : BitVec 5} {d : BitVec 3} {l : BitVec 3} {m : BitVec 6} (h : base + 0 = c_fn.toNat * 2 ^ 29 + 0 + m.toNat * 4 + 3) :
    word32 base [put 26 k, put 21 b, put 16 a, put 11 d, put 8 l] = .w32 (fR c_fn k b a (d.setWidth 5) l m) := by
  unfold word32
  refine congrArg Enc.w32 (BitVec.eq_of_toNat_eq ?_)
  have v0 := k.isLt
  have v1 := b.isLt
  have v2 := a.isLt
  have v3 := d.isLt
  have v4 := l.isLt
  have k0 := c_fn.isLt
  have hm := m.isLt
  rw [fR_toNat]
  simp only [List.foldl, put, bit, Scope.code, if_true, Bool.false_eq_true, if_false, BitVec.toNat_ofNat, BitVec.toNat_setWidth]
  omega
theorem e20 {base : Nat} {c_fn : BitVec 3} {c_b : BitVec 5} {k : BitVec 3} {a : BitVec 5} {d : BitVec 3} {l : BitVec 3} {m : BitVec 6} (h : base + 0 = c_fn.toNat * 2 ^ 29 + c_b.toNat * 2 ^ 21 + 0 + m.toNat * 4 + 3) :
    word32 base [put 26 k, put 16 a, put 11 d, put 8 l] = .w32 (fR c_fn k c_b a (d.setWidth 5) l m) := by
  unfold word32
  refine congrArg Enc.w32 (BitVec.eq_of_toNat_eq ?_)
  have v0 := k.isLt
  have v1 := a.isLt
  have v2 := d.isLt
  have v3 := l.isLt
  have k0 := c_fn.isLt
  have k1 := c_b.isLt
  have hm := m.isLt
  rw [fR_toNat]
  simp only [List.foldl, put, bit, Scope.code, if_true, Bool.false_eq_true, if_false, BitVec.toNat_ofNat, BitVec.toNat_setWidth]
  omega
theorem e21 {base : Nat} {c_fn : BitVec 3} {c_b : BitVec 5} {k : BitVec 2} {a : BitVec 5} {d : BitVec 5} {l : BitVec 3} {m : BitVec 6} (h : base + 0 = c_fn.toNat * 2 ^ 29 + c_b.toNat * 2 ^ 21 + 0 + m.toNat * 4 + 3) :
    word32 base [put 26 k, put 16 a, put 11 d, put 8 l] = .w32 (fR c_fn (k.setWidth 3) c_b a d l m) := by
  unfold word32
  refine congrArg Enc.w32 (BitVec.eq_of_toNat_eq ?_)
  have v0 := k.isLt
  have v1 := a.isLt
  have v2 := d.isLt
  have v3 := l.isLt
  have k0 := c_fn.isLt
  have k1 := c_b.isLt
  have hm := m.isLt
  rw [fR_toNat]
  simp only [List.foldl, put, bit, Scope.code, if_true, Bool.false_eq_true, if_false, BitVec.toNat_ofNat, BitVec.toNat_setWidth]
  omega
theorem e22 {base : Nat} {c_fn : BitVec 3} {c_k : BitVec 3} {b : BitVec 3} {a : BitVec 3} {d : BitVec 3} {l : BitVec 3} {m : BitVec 6} (h : base + 0 = c_fn.toNat * 2 ^ 29 + c_k.toNat * 2 ^ 26 + 0 + m.toNat * 4 + 3) :
    word32 base [put 21 b, put 16 a, put 11 d, put 8 l] = .w32 (fR c_fn c_k (b.setWidth 5) (a.setWidth 5) (d.setWidth 5) l m) := by
  unfold word32
  refine congrArg Enc.w32 (BitVec.eq_of_toNat_eq ?_)
  have v0 := b.isLt
  have v1 := a.isLt
  have v2 := d.isLt
  have v3 := l.isLt
  have k0 := c_fn.isLt
  have k1 := c_k.isLt
  have hm := m.isLt
  rw [fR_toNat]
  simp only [List.foldl, put, bit, Scope.code, if_true, Bool.false_eq_true, if_false, BitVec.toNat_ofNat, BitVec.toNat_setWidth]
  omega
theorem e23 {base : Nat} {c_fn : BitVec 3} {c_k : BitVec 3} {c_b : BitVec 5} {a : BitVec 3} {d : BitVec 3} {l : BitVec 3} {m : BitVec 6} (h : base + 0 = c_fn.toNat * 2 ^ 29 + c_k.toNat * 2 ^ 26 + c_b.toNat * 2 ^ 21 + 0 + m.toNat * 4 + 3) :
    word32 base [put 16 a, put 11 d, put 8 l] = .w32 (fR c_fn c_k c_b (a.setWidth 5) (d.setWidth 5) l m) := by
  unfold word32
  refine congrArg Enc.w32 (BitVec.eq_of_toNat_eq ?_)
  have v0 := a.isLt
  have v1 := d.isLt
  have v2 := l.isLt
  have k0 := c_fn.isLt
  have k1 := c_k.isLt
  have k2 := c_b.isLt
  have hm := m.isLt
  rw [fR_toNat]
  simp only [List.foldl, put, bit, Scope.code, if_true, Bool.false_eq_true, if_false, BitVec.toNat_ofNat, BitVec.toNat_setWidth]
  omega
theorem e24 {base : Nat} {c_fn : BitVec 3} {c_k : BitVec 3} {c_b : BitVec 5} {a : BitVec 3} {d : BitVec 5} {l : BitVec 3} {m : BitVec 6} (h : base + 0 = c_fn.toNat * 2 ^ 29 + c_k.toNat * 2 ^ 26 + c_b.toNat * 2 ^ 21 + 0 + m.toNat * 4 + 3) :
    word32 base [put 16 a, put 11 d, put 8 l] = .w32 (fR c_fn c_k c_b (a.setWidth 5) d l m) := by
  unfold word32
  refine congrArg Enc.w32 (BitVec.eq_of_toNat_eq ?_)
  have v0 := a.isLt
  have v1 := d.isLt
  have v2 := l.isLt
  have k0 := c_fn.isLt
  have k1 := c_k.isLt
  have k2 := c_b.isLt
  have hm := m.isLt
  rw [fR_toNat]
  simp only [List.foldl, put, bit, Scope.code, if_true, Bool.false_eq_true, if_false, BitVec.toNat_ofNat, BitVec.toNat_setWidth]
  omega
theorem e25 {base : Nat} {c_fn : BitVec 3} {c_k : BitVec 3} {c_b : BitVec 5} {a : BitVec 5} {d : BitVec 3} {l : BitVec 3} {m : BitVec 6} (h : base + 0 = c_fn.toNat * 2 ^ 29 + c_k.toNat * 2 ^ 26 + c_b.toNat * 2 ^ 21 + 0 + m.toNat * 4 + 3) :
    word32 base [put 16 a, put 11 d, put 8 l] = .w32 (fR c_fn c_k c_b a (d.setWidth 5) l m) := by
  unfold word32
  refine congrArg Enc.w32 (BitVec.eq_of_toNat_eq ?_)
  have v0 := a.isLt
  have v1 := d.isLt
  have v2 := l.isLt
  have k0 := c_fn.isLt
  have k1 := c_k.isLt
  have k2 := c_b.isLt
  have hm := m.isLt
  rw [fR_toNat]
  simp only [List.foldl, put, bit, Scope.code, if_true, Bool.false_eq_true, if_false, BitVec.toNat_ofNat, BitVec.toNat_setWidth]
  omega
theorem e26 {base : Nat} {c_fn : BitVec 3} {c_b : BitVec 5} {i : Dir} {a : BitVec 5} {s : BitVec 4} {l : BitVec 3} {m : BitVec 6} (h : base + 0 = c_fn.toNat * 2 ^ 29 + c_b.toNat * 2 ^ 21 + 0 + m.toNat * 4 + 3) :
    word32 base [put 26 i.code, put 16 a, put 11 s, put 8 l] = .w32 (fR c_fn i.code c_b a (s.setWidth 5) l m) := by
  unfold word32
  refine congrArg Enc.w32 (BitVec.eq_of_toNat_eq ?_)
  have v0 := i.code.isLt
  have v1 := a.isLt
  have v2 := s.isLt
  have v3 := l.isLt
  have k0 := c_fn.isLt
  have k1 := c_b.isLt
  have hm := m.isLt
  rw [fR_toNat]
  simp only [List.foldl, put, bit, Scope.code, if_true, Bool.false_eq_true, if_false, BitVec.toNat_ofNat, BitVec.toNat_setWidth]
  omega
theorem e27 {base : Nat} {c_fn : BitVec 3} {i : BitVec 2} {b : BitVec 5} {a : BitVec 5} {s : BitVec 4} {l : BitVec 3} {m : BitVec 6} (h : base + 0 = c_fn.toNat * 2 ^ 29 + 0 + m.toNat * 4 + 3) :
    word32 base [put 26 i, put 21 b, put 16 a, put 11 s, put 8 l] = .w32 (fR c_fn (i.setWidth 3) b a (s.setWidth 5) l m) := by
  unfold word32
  refine congrArg Enc.w32 (BitVec.eq_of_toNat_eq ?_)
  have v0 := i.isLt
  have v1 := b.isLt
  have v2 := a.isLt
  have v3 := s.isLt
  have v4 := l.isLt
  have k0 := c_fn.isLt
  have hm := m.isLt
  rw [fR_toNat]
  simp only [List.foldl, put, bit, Scope.code, if_true, Bool.false_eq_true, if_false, BitVec.toNat_ofNat, BitVec.toNat_setWidth]
  omega
theorem e28 {base : Nat} {c_fn : BitVec 3} {c_k : BitVec 3} {c_b : BitVec 5} {a : BitVec 5} {s : BitVec 4} {l : BitVec 3} {m : BitVec 6} (h : base + 0 = c_fn.toNat * 2 ^ 29 + c_k.toNat * 2 ^ 26 + c_b.toNat * 2 ^ 21 + 0 + m.toNat * 4 + 3) :
    word32 base [put 16 a, put 11 s, put 8 l] = .w32 (fR c_fn c_k c_b a (s.setWidth 5) l m) := by
  unfold word32
  refine congrArg Enc.w32 (BitVec.eq_of_toNat_eq ?_)
  have v0 := a.isLt
  have v1 := s.isLt
  have v2 := l.isLt
  have k0 := c_fn.isLt
  have k1 := c_k.isLt
  have k2 := c_b.isLt
  have hm := m.isLt
  rw [fR_toNat]
  simp only [List.foldl, put, bit, Scope.code, if_true, Bool.false_eq_true, if_false, BitVec.toNat_ofNat, BitVec.toNat_setWidth]
  omega
theorem e29 {base : Nat} {c_fn : BitVec 3} {c_k : BitVec 3} {b : BitVec 5} {a : BitVec 4} {s : BitVec 4} {l : BitVec 3} {m : BitVec 6} (h : base + 0 = c_fn.toNat * 2 ^ 29 + c_k.toNat * 2 ^ 26 + 0 + m.toNat * 4 + 3) :
    word32 base [put 21 b, put 16 a, put 11 s, put 8 l] = .w32 (fR c_fn c_k b (a.setWidth 5) (s.setWidth 5) l m) := by
  unfold word32
  refine congrArg Enc.w32 (BitVec.eq_of_toNat_eq ?_)
  have v0 := b.isLt
  have v1 := a.isLt
  have v2 := s.isLt
  have v3 := l.isLt
  have k0 := c_fn.isLt
  have k1 := c_k.isLt
  have hm := m.isLt
  rw [fR_toNat]
  simp only [List.foldl, put, bit, Scope.code, if_true, Bool.false_eq_true, if_false, BitVec.toNat_ofNat, BitVec.toNat_setWidth]
  omega
theorem e30 {base : Nat} {c_fn : BitVec 3} {c_k : BitVec 3} {c_b : BitVec 5} {c_a : BitVec 5} {s : BitVec 4} {l : BitVec 3} {m : BitVec 6} (h : base + 0 = c_fn.toNat * 2 ^ 29 + c_k.toNat * 2 ^ 26 + c_b.toNat * 2 ^ 21 + c_a.toNat * 2 ^ 16 + 0 + m.toNat * 4 + 3) :
    word32 base [put 11 s, put 8 l] = .w32 (fR c_fn c_k c_b c_a (s.setWidth 5) l m) := by
  unfold word32
  refine congrArg Enc.w32 (BitVec.eq_of_toNat_eq ?_)
  have v0 := s.isLt
  have v1 := l.isLt
  have k0 := c_fn.isLt
  have k1 := c_k.isLt
  have k2 := c_b.isLt
  have k3 := c_a.isLt
  have hm := m.isLt
  rw [fR_toNat]
  simp only [List.foldl, put, bit, Scope.code, if_true, Bool.false_eq_true, if_false, BitVec.toNat_ofNat, BitVec.toNat_setWidth]
  omega
theorem e31 {base : Nat} {c_fn : BitVec 3} {c_k : BitVec 3} {b : BitVec 5} {a : BitVec 5} {s : BitVec 4} {l : BitVec 3} {m : BitVec 6} (h : base + 0 = c_fn.toNat * 2 ^ 29 + c_k.toNat * 2 ^ 26 + 0 + m.toNat * 4 + 3) :
    word32 base [put 21 b, put 16 a, put 11 s, put 8 l] = .w32 (fR c_fn c_k b a (s.setWidth 5) l m) := by
  unfold word32
  refine congrArg Enc.w32 (BitVec.eq_of_toNat_eq ?_)
  have v0 := b.isLt
  have v1 := a.isLt
  have v2 := s.isLt
  have v3 := l.isLt
  have k0 := c_fn.isLt
  have k1 := c_k.isLt
  have hm := m.isLt
  rw [fR_toNat]
  simp only [List.foldl, put, bit, Scope.code, if_true, Bool.false_eq_true, if_false, BitVec.toNat_ofNat, BitVec.toNat_setWidth]
  omega
theorem e32 {base : Nat} {c_fn : BitVec 3} {c_k : BitVec 3} {c_b : BitVec 5} {a : Fmt} {s : BitVec 4} {l : BitVec 3} {m : BitVec 6} (h : base + 0 = c_fn.toNat * 2 ^ 29 + c_k.toNat * 2 ^ 26 + c_b.toNat * 2 ^ 21 + 0 + m.toNat * 4 + 3) :
    word32 base [put 16 a.code, put 11 s, put 8 l] = .w32 (fR c_fn c_k c_b (a.code.setWidth 5) (s.setWidth 5) l m) := by
  unfold word32
  refine congrArg Enc.w32 (BitVec.eq_of_toNat_eq ?_)
  have v0 := a.code.isLt
  have v1 := s.isLt
  have v2 := l.isLt
  have k0 := c_fn.isLt
  have k1 := c_k.isLt
  have k2 := c_b.isLt
  have hm := m.isLt
  rw [fR_toNat]
  simp only [List.foldl, put, bit, Scope.code, if_true, Bool.false_eq_true, if_false, BitVec.toNat_ofNat, BitVec.toNat_setWidth]
  omega
theorem e33 {base : Nat} {c_fn : BitVec 3} {c_k : BitVec 3} {c_b : BitVec 5} {a : BitVec 4} {s : BitVec 4} {l : BitVec 3} {m : BitVec 6} (h : base + 0 = c_fn.toNat * 2 ^ 29 + c_k.toNat * 2 ^ 26 + c_b.toNat * 2 ^ 21 + 32768 + m.toNat * 4 + 3) :
    word32 base [put 16 a, put 11 s, put 8 l] = .w32 (fR c_fn c_k c_b (a.setWidth 5) (1#1 ++ s) l m) := by
  unfold word32
  refine congrArg Enc.w32 (BitVec.eq_of_toNat_eq ?_)
  have v0 := a.isLt
  have v1 := s.isLt
  have v2 := l.isLt
  have k0 := c_fn.isLt
  have k1 := c_k.isLt
  have k2 := c_b.isLt
  have hm := m.isLt
  rw [fR_toNat]
  have hc : (1#1 ++ s).toNat = 1 * 2 ^ 4 + s.toNat * 2 ^ 0 := by
    simp only [BitVec.toNat_append]
    repeat rw [← Nat.shiftLeft_add_eq_or_of_lt (by first | exact BitVec.isLt _ | decide)]
    simp only [Nat.shiftLeft_eq, BitVec.toNat_ofNat]
    all_goals omega
  simp only [List.foldl, put, bit, Scope.code, if_true, Bool.false_eq_true, if_false, BitVec.toNat_ofNat, BitVec.toNat_setWidth, hc]
  omega
theorem e34 {base : Nat} {c_fn : BitVec 3} {c_b : BitVec 5} {c_a : BitVec 5} {i : BitVec 2} {s : BitVec 4} {l : BitVec 3} {m : BitVec 6} (h : base + 0 = c_fn.toNat * 2 ^ 29 + c_b.toNat * 2 ^ 21 + c_a.toNat * 2 ^ 16 + 0 + m.toNat * 4 + 3) :
    word32 base [put 26 i, put 11 s, put 8 l] = .w32 (fR c_fn (i.setWidth 3) c_b c_a (s.setWidth 5) l m) := by
  unfold word32
  refine congrArg Enc.w32 (BitVec.eq_of_toNat_eq ?_)
  have v0 := i.isLt
  have v1 := s.isLt
  have v2 := l.isLt
  have k0 := c_fn.isLt
  have k1 := c_b.isLt
  have k2 := c_a.isLt
  have hm := m.isLt
  rw [fR_toNat]
  simp only [List.foldl, put, bit, Scope.code, if_true, Bool.false_eq_true, if_false, BitVec.toNat_ofNat, BitVec.toNat_setWidth]
  omega
theorem e35 {base : Nat} {c_fn : BitVec 3} {c_k : BitVec 3} {b : BitVec 3} {a : BitVec 5} {s : BitVec 4} {l : BitVec 3} {m : BitVec 6} (h : base + 0 = c_fn.toNat * 2 ^ 29 + c_k.toNat * 2 ^ 26 + 0 + m.toNat * 4 + 3) :
    word32 base [put 21 b, put 16 a, put 11 s, put 8 l] = .w32 (fR c_fn c_k (b.setWidth 5) a (s.setWidth 5) l m) := by
  unfold word32
  refine congrArg Enc.w32 (BitVec.eq_of_toNat_eq ?_)
  have v0 := b.isLt
  have v1 := a.isLt
  have v2 := s.isLt
  have v3 := l.isLt
  have k0 := c_fn.isLt
  have k1 := c_k.isLt
  have hm := m.isLt
  rw [fR_toNat]
  simp only [List.foldl, put, bit, Scope.code, if_true, Bool.false_eq_true, if_false, BitVec.toNat_ofNat, BitVec.toNat_setWidth]
  omega
theorem e36 {base : Nat} {c_fn : BitVec 3} {c_k : BitVec 3} {c_b : BitVec 5} {a : BitVec 5} {s : BitVec 4} {l : BitVec 3} {m : BitVec 6} (h : base + 0 = c_fn.toNat * 2 ^ 29 + c_k.toNat * 2 ^ 26 + c_b.toNat * 2 ^ 21 + 0 + m.toNat * 4 + 3) :
    word32 base [put 16 a, bit 15 false, put 11 s, put 8 l] = .w32 (fR c_fn c_k c_b a (s.setWidth 5) l m) := by
  unfold word32
  refine congrArg Enc.w32 (BitVec.eq_of_toNat_eq ?_)
  have v0 := a.isLt
  have v1 := s.isLt
  have v2 := l.isLt
  have k0 := c_fn.isLt
  have k1 := c_k.isLt
  have k2 := c_b.isLt
  have hm := m.isLt
  rw [fR_toNat]
  simp only [List.foldl, put, bit, Scope.code, if_true, Bool.false_eq_true, if_false, BitVec.toNat_ofNat, BitVec.toNat_setWidth]
  omega
theorem e37 {base : Nat} {c_fn : BitVec 3} {c_k : BitVec 3} {c_b : BitVec 5} {a : BitVec 5} {s : BitVec 4} {l : BitVec 3} {m : BitVec 6} (h : base + 32768 = c_fn.toNat * 2 ^ 29 + c_k.toNat * 2 ^ 26 + c_b.toNat * 2 ^ 21 + 32768 + m.toNat * 4 + 3) :
    word32 base [put 16 a, bit 15 true, put 11 s, put 8 l] = .w32 (fR c_fn c_k c_b a (1#1 ++ s) l m) := by
  unfold word32
  refine congrArg Enc.w32 (BitVec.eq_of_toNat_eq ?_)
  have v0 := a.isLt
  have v1 := s.isLt
  have v2 := l.isLt
  have k0 := c_fn.isLt
  have k1 := c_k.isLt
  have k2 := c_b.isLt
  have hm := m.isLt
  rw [fR_toNat]
  have hc : (1#1 ++ s).toNat = 1 * 2 ^ 4 + s.toNat * 2 ^ 0 := by
    simp only [BitVec.toNat_append]
    repeat rw [← Nat.shiftLeft_add_eq_or_of_lt (by first | exact BitVec.isLt _ | decide)]
    simp only [Nat.shiftLeft_eq, BitVec.toNat_ofNat]
    all_goals omega
  simp only [List.foldl, put, bit, Scope.code, if_true, Bool.false_eq_true, if_false, BitVec.toNat_ofNat, hc]
  omega
theorem e38 {base : Nat} {c_fn : BitVec 3} {c_b : BitVec 5} {i : BitVec 3} {a : BitVec 5} {s : BitVec 4} {l : BitVec 3} {m : BitVec 6} (h : base + 0 = c_fn.toNat * 2 ^ 29 + c_b.toNat * 2 ^ 21 + 0 + m.toNat * 4 + 3) :
    word32 base [put 26 i, put 16 a, put 11 s, put 8 l] = .w32 (fR c_fn i c_b a (s.setWidth 5) l m) := by
  unfold word32
  refine congrArg Enc.w32 (BitVec.eq_of_toNat_eq ?_)
  have v0 := i.isLt
  have v1 := a.isLt
  have v2 := s.isLt
  have v3 := l.isLt
  have k0 := c_fn.isLt
  have k1 := c_b.isLt
  have hm := m.isLt
  rw [fR_toNat]
  simp only [List.foldl, put, bit, Scope.code, if_true, Bool.false_eq_true, if_false, BitVec.toNat_ofNat, BitVec.toNat_setWidth]
  omega
theorem e39 {base : Nat} {c_fn : BitVec 3} {z : BitVec 3} {b : BitVec 5} {a : BitVec 5} {d : BitVec 5} {t : BitVec 2} {m : BitVec 6} (h : base + 0 = c_fn.toNat * 2 ^ 29 + 0 + m.toNat * 4 + 3) :
    word32 base [put 26 z, put 21 b, put 16 a, put 11 d, put 8 t] = .w32 (fR c_fn z b a d (t.setWidth 3) m) := by
  unfold word32
  refine congrArg Enc.w32 (BitVec.eq_of_toNat_eq ?_)
  have v0 := z.isLt
  have v1 := b.isLt
  have v2 := a.isLt
  have v3 := d.isLt
  have v4 := t.isLt
  have k0 := c_fn.isLt
  have hm := m.isLt
  rw [fR_toNat]
  simp only [List.foldl, put, bit, Scope.code, if_true, Bool.false_eq_true, if_false, BitVec.toNat_ofNat, BitVec.toNat_setWidth]
  omega
theorem e40 {base : Nat} {c_fn : BitVec 3} {c_k : BitVec 3} {b : BitVec 5} {a : BitVec 5} {d : BitVec 5} {t : BitVec 2} {m : BitVec 6} (h : base + 0 = c_fn.toNat * 2 ^ 29 + c_k.toNat * 2 ^ 26 + 0 + m.toNat * 4 + 3) :
    word32 base [put 21 b, put 16 a, put 11 d, put 8 t] = .w32 (fR c_fn c_k b a d (t.setWidth 3) m) := by
  unfold word32
  refine congrArg Enc.w32 (BitVec.eq_of_toNat_eq ?_)
  have v0 := b.isLt
  have v1 := a.isLt
  have v2 := d.isLt
  have v3 := t.isLt
  have k0 := c_fn.isLt
  have k1 := c_k.isLt
  have hm := m.isLt
  rw [fR_toNat]
  simp only [List.foldl, put, bit, Scope.code, if_true, Bool.false_eq_true, if_false, BitVec.toNat_ofNat, BitVec.toNat_setWidth]
  omega
theorem e41 {base : Nat} {c_fn : BitVec 3} {c_l : BitVec 3} {z : BitVec 3} {b : BitVec 5} {a : BitVec 5} {d : BitVec 5} {m : BitVec 6} (h : base + 0 = c_fn.toNat * 2 ^ 29 + c_l.toNat * 2 ^ 8 + 0 + m.toNat * 4 + 3) :
    word32 base [put 26 z, put 21 b, put 16 a, put 11 d] = .w32 (fR c_fn z b a d c_l m) := by
  unfold word32
  refine congrArg Enc.w32 (BitVec.eq_of_toNat_eq ?_)
  have v0 := z.isLt
  have v1 := b.isLt
  have v2 := a.isLt
  have v3 := d.isLt
  have k0 := c_fn.isLt
  have k1 := c_l.isLt
  have hm := m.isLt
  rw [fR_toNat]
  simp only [List.foldl, put, bit, Scope.code, if_true, Bool.false_eq_true, if_false, BitVec.toNat_ofNat]
  omega
theorem e42 {base : Nat} {c_fn : BitVec 3} {c_k : BitVec 3} {c_b : BitVec 5} {a : BitVec 5} {d : BitVec 5} {t : BitVec 2} {m : BitVec 6} (h : base + 0 = c_fn.toNat * 2 ^ 29 + c_k.toNat * 2 ^ 26 + c_b.toNat * 2 ^ 21 + 0 + m.toNat * 4 + 3) :
    word32 base [put 16 a, put 11 d, put 8 t] = .w32 (fR c_fn c_k c_b a d (t.setWidth 3) m) := by
  unfold word32
  refine congrArg Enc.w32 (BitVec.eq_of_toNat_eq ?_)
  have v0 := a.isLt
  have v1 := d.isLt
  have v2 := t.isLt
  have k0 := c_fn.isLt
  have k1 := c_k.isLt
  have k2 := c_b.isLt
  have hm := m.isLt
  rw [fR_toNat]
  simp only [List.foldl, put, bit, Scope.code, if_true, Bool.false_eq_true, if_false, BitVec.toNat_ofNat, BitVec.toNat_setWidth]
  omega
theorem e43 {base : Nat} {c_fn : BitVec 3} {c_k : BitVec 3} {c_b : BitVec 5} {c_a : BitVec 5} {c_d : BitVec 5} {l : BitVec 3} {m : BitVec 6} (h : base + 0 = c_fn.toNat * 2 ^ 29 + c_k.toNat * 2 ^ 26 + c_b.toNat * 2 ^ 21 + c_a.toNat * 2 ^ 16 + c_d.toNat * 2 ^ 11 + 0 + m.toNat * 4 + 3) :
    word32 base [Scope.cl.code * 2 ^ 26, put 8 l] = .w32 (fR c_fn c_k c_b c_a c_d l m) := by
  unfold word32
  refine congrArg Enc.w32 (BitVec.eq_of_toNat_eq ?_)
  have v0 := l.isLt
  have k0 := c_fn.isLt
  have k1 := c_k.isLt
  have k2 := c_b.isLt
  have k3 := c_a.isLt
  have k4 := c_d.isLt
  have hm := m.isLt
  rw [fR_toNat]
  simp only [List.foldl, put, bit, Scope.code, if_true, Bool.false_eq_true, if_false, BitVec.toNat_ofNat]
  omega
theorem e44 {base : Nat} {c_fn : BitVec 3} {c_k : BitVec 3} {c_b : BitVec 5} {c_a : BitVec 5} {c_d : BitVec 5} {l : BitVec 3} {m : BitVec 6} (h : base + 67108864 = c_fn.toNat * 2 ^ 29 + c_k.toNat * 2 ^ 26 + c_b.toNat * 2 ^ 21 + c_a.toNat * 2 ^ 16 + c_d.toNat * 2 ^ 11 + 0 + m.toNat * 4 + 3) :
    word32 base [Scope.dv.code * 2 ^ 26, put 8 l] = .w32 (fR c_fn c_k c_b c_a c_d l m) := by
  unfold word32
  refine congrArg Enc.w32 (BitVec.eq_of_toNat_eq ?_)
  have v0 := l.isLt
  have k0 := c_fn.isLt
  have k1 := c_k.isLt
  have k2 := c_b.isLt
  have k3 := c_a.isLt
  have k4 := c_d.isLt
  have hm := m.isLt
  rw [fR_toNat]
  simp only [List.foldl, put, bit, Scope.code, if_true, Bool.false_eq_true, if_false, BitVec.toNat_ofNat]
  omega
theorem e45 {base : Nat} {c_fn : BitVec 3} {c_k : BitVec 3} {c_b : BitVec 5} {c_a : BitVec 5} {c_d : BitVec 5} {l : BitVec 3} {m : BitVec 6} (h : base + 134217728 = c_fn.toNat * 2 ^ 29 + c_k.toNat * 2 ^ 26 + c_b.toNat * 2 ^ 21 + c_a.toNat * 2 ^ 16 + c_d.toNat * 2 ^ 11 + 0 + m.toNat * 4 + 3) :
    word32 base [Scope.sy.code * 2 ^ 26, put 8 l] = .w32 (fR c_fn c_k c_b c_a c_d l m) := by
  unfold word32
  refine congrArg Enc.w32 (BitVec.eq_of_toNat_eq ?_)
  have v0 := l.isLt
  have k0 := c_fn.isLt
  have k1 := c_k.isLt
  have k2 := c_b.isLt
  have k3 := c_a.isLt
  have k4 := c_d.isLt
  have hm := m.isLt
  rw [fR_toNat]
  simp only [List.foldl, put, bit, Scope.code, if_true, Bool.false_eq_true, if_false, BitVec.toNat_ofNat]
  omega
theorem e46 {base : Nat} {c_fn : BitVec 3} {c_k : BitVec 3} {c_d : BitVec 5} {b : BitVec 5} {a : BitVec 5} {l : BitVec 3} {m : BitVec 6} (h : base + 0 = c_fn.toNat * 2 ^ 29 + c_k.toNat * 2 ^ 26 + c_d.toNat * 2 ^ 11 + 0 + m.toNat * 4 + 3) :
    word32 base [Scope.cl.code * 2 ^ 26, put 21 b, put 16 a, put 8 l] = .w32 (fR c_fn c_k b a c_d l m) := by
  unfold word32
  refine congrArg Enc.w32 (BitVec.eq_of_toNat_eq ?_)
  have v0 := b.isLt
  have v1 := a.isLt
  have v2 := l.isLt
  have k0 := c_fn.isLt
  have k1 := c_k.isLt
  have k2 := c_d.isLt
  have hm := m.isLt
  rw [fR_toNat]
  simp only [List.foldl, put, bit, Scope.code, if_true, Bool.false_eq_true, if_false, BitVec.toNat_ofNat]
  omega
theorem e47 {base : Nat} {c_fn : BitVec 3} {c_k : BitVec 3} {c_d : BitVec 5} {b : BitVec 5} {a : BitVec 5} {l : BitVec 3} {m : BitVec 6} (h : base + 67108864 = c_fn.toNat * 2 ^ 29 + c_k.toNat * 2 ^ 26 + c_d.toNat * 2 ^ 11 + 0 + m.toNat * 4 + 3) :
    word32 base [Scope.dv.code * 2 ^ 26, put 21 b, put 16 a, put 8 l] = .w32 (fR c_fn c_k b a c_d l m) := by
  unfold word32
  refine congrArg Enc.w32 (BitVec.eq_of_toNat_eq ?_)
  have v0 := b.isLt
  have v1 := a.isLt
  have v2 := l.isLt
  have k0 := c_fn.isLt
  have k1 := c_k.isLt
  have k2 := c_d.isLt
  have hm := m.isLt
  rw [fR_toNat]
  simp only [List.foldl, put, bit, Scope.code, if_true, Bool.false_eq_true, if_false, BitVec.toNat_ofNat]
  omega
theorem e48 {base : Nat} {c_fn : BitVec 3} {c_k : BitVec 3} {c_d : BitVec 5} {b : BitVec 5} {a : BitVec 5} {l : BitVec 3} {m : BitVec 6} (h : base + 134217728 = c_fn.toNat * 2 ^ 29 + c_k.toNat * 2 ^ 26 + c_d.toNat * 2 ^ 11 + 0 + m.toNat * 4 + 3) :
    word32 base [Scope.sy.code * 2 ^ 26, put 21 b, put 16 a, put 8 l] = .w32 (fR c_fn c_k b a c_d l m) := by
  unfold word32
  refine congrArg Enc.w32 (BitVec.eq_of_toNat_eq ?_)
  have v0 := b.isLt
  have v1 := a.isLt
  have v2 := l.isLt
  have k0 := c_fn.isLt
  have k1 := c_k.isLt
  have k2 := c_d.isLt
  have hm := m.isLt
  rw [fR_toNat]
  simp only [List.foldl, put, bit, Scope.code, if_true, Bool.false_eq_true, if_false, BitVec.toNat_ofNat]
  omega
theorem e49 {base : Nat} {c_fn : BitVec 3} {c_k : BitVec 3} {c_b : BitVec 5} {a : BitVec 5} {d : BitVec 5} {l : BitVec 3} {m : BitVec 6} (h : base + 0 = c_fn.toNat * 2 ^ 29 + c_k.toNat * 2 ^ 26 + c_b.toNat * 2 ^ 21 + 0 + m.toNat * 4 + 3) :
    word32 base [Scope.cl.code * 2 ^ 26, put 16 a, put 11 d, put 8 l] = .w32 (fR c_fn c_k c_b a d l m) := by
  unfold word32
  refine congrArg Enc.w32 (BitVec.eq_of_toNat_eq ?_)
  have v0 := a.isLt
  have v1 := d.isLt
  have v2 := l.isLt
  have k0 := c_fn.isLt
  have k1 := c_k.isLt
  have k2 := c_b.isLt
  have hm := m.isLt
  rw [fR_toNat]
  simp only [List.foldl, put, bit, Scope.code, if_true, Bool.false_eq_true, if_false, BitVec.toNat_ofNat]
  omega
theorem e50 {base : Nat} {c_fn : BitVec 3} {c_k : BitVec 3} {c_b : BitVec 5} {a : BitVec 5} {d : BitVec 5} {l : BitVec 3} {m : BitVec 6} (h : base + 67108864 = c_fn.toNat * 2 ^ 29 + c_k.toNat * 2 ^ 26 + c_b.toNat * 2 ^ 21 + 0 + m.toNat * 4 + 3) :
    word32 base [Scope.dv.code * 2 ^ 26, put 16 a, put 11 d, put 8 l] = .w32 (fR c_fn c_k c_b a d l m) := by
  unfold word32
  refine congrArg Enc.w32 (BitVec.eq_of_toNat_eq ?_)
  have v0 := a.isLt
  have v1 := d.isLt
  have v2 := l.isLt
  have k0 := c_fn.isLt
  have k1 := c_k.isLt
  have k2 := c_b.isLt
  have hm := m.isLt
  rw [fR_toNat]
  simp only [List.foldl, put, bit, Scope.code, if_true, Bool.false_eq_true, if_false, BitVec.toNat_ofNat]
  omega
theorem e51 {base : Nat} {c_fn : BitVec 3} {c_k : BitVec 3} {c_b : BitVec 5} {a : BitVec 5} {d : BitVec 5} {l : BitVec 3} {m : BitVec 6} (h : base + 134217728 = c_fn.toNat * 2 ^ 29 + c_k.toNat * 2 ^ 26 + c_b.toNat * 2 ^ 21 + 0 + m.toNat * 4 + 3) :
    word32 base [Scope.sy.code * 2 ^ 26, put 16 a, put 11 d, put 8 l] = .w32 (fR c_fn c_k c_b a d l m) := by
  unfold word32
  refine congrArg Enc.w32 (BitVec.eq_of_toNat_eq ?_)
  have v0 := a.isLt
  have v1 := d.isLt
  have v2 := l.isLt
  have k0 := c_fn.isLt
  have k1 := c_k.isLt
  have k2 := c_b.isLt
  have hm := m.isLt
  rw [fR_toNat]
  simp only [List.foldl, put, bit, Scope.code, if_true, Bool.false_eq_true, if_false, BitVec.toNat_ofNat]
  omega
theorem e52 {base : Nat} {c_fn : BitVec 3} {c_k : BitVec 3} {c_l : BitVec 3} {b : BitVec 5} {a : BitVec 5} {d : BitVec 5} {m : BitVec 6} (h : base + 0 = c_fn.toNat * 2 ^ 29 + c_k.toNat * 2 ^ 26 + c_l.toNat * 2 ^ 8 + 0 + m.toNat * 4 + 3) :
    word32 base [put 21 b, put 16 a, put 11 d, bit 10 false, Scope.cl.code * 2 ^ 8] = .w32 (fR c_fn c_k b a d c_l m) := by
  unfold word32
  refine congrArg Enc.w32 (BitVec.eq_of_toNat_eq ?_)
  have v0 := b.isLt
  have v1 := a.isLt
  have v2 := d.isLt
  have k0 := c_fn.isLt
  have k1 := c_k.isLt
  have k2 := c_l.isLt
  have hm := m.isLt
  rw [fR_toNat]
  simp only [List.foldl, put, bit, Scope.code, if_true, Bool.false_eq_true, if_false, BitVec.toNat_ofNat]
  omega
theorem e53 {base : Nat} {c_fn : BitVec 3} {c_k : BitVec 3} {c_l : BitVec 3} {b : BitVec 5} {a : BitVec 5} {d : BitVec 5} {m : BitVec 6} (h : base + 256 = c_fn.toNat * 2 ^ 29 + c_k.toNat * 2 ^ 26 + c_l.toNat * 2 ^ 8 + 0 + m.toNat * 4 + 3) :
    word32 base [put 21 b, put 16 a, put 11 d, bit 10 false, Scope.dv.code * 2 ^ 8] = .w32 (fR c_fn c_k b a d c_l m) := by
  unfold word32
  refine congrArg Enc.w32 (BitVec.eq_of_toNat_eq ?_)
  have v0 := b.isLt
  have v1 := a.isLt
  have v2 := d.isLt
  have k0 := c_fn.isLt
  have k1 := c_k.isLt
  have k2 := c_l.isLt
  have hm := m.isLt
  rw [fR_toNat]
  simp only [List.foldl, put, bit, Scope.code, if_true, Bool.false_eq_true, if_false, BitVec.toNat_ofNat]
  omega
theorem e54 {base : Nat} {c_fn : BitVec 3} {c_k : BitVec 3} {c_l : BitVec 3} {b : BitVec 5} {a : BitVec 5} {d : BitVec 5} {m : BitVec 6} (h : base + 512 = c_fn.toNat * 2 ^ 29 + c_k.toNat * 2 ^ 26 + c_l.toNat * 2 ^ 8 + 0 + m.toNat * 4 + 3) :
    word32 base [put 21 b, put 16 a, put 11 d, bit 10 false, Scope.sy.code * 2 ^ 8] = .w32 (fR c_fn c_k b a d c_l m) := by
  unfold word32
  refine congrArg Enc.w32 (BitVec.eq_of_toNat_eq ?_)
  have v0 := b.isLt
  have v1 := a.isLt
  have v2 := d.isLt
  have k0 := c_fn.isLt
  have k1 := c_k.isLt
  have k2 := c_l.isLt
  have hm := m.isLt
  rw [fR_toNat]
  simp only [List.foldl, put, bit, Scope.code, if_true, Bool.false_eq_true, if_false, BitVec.toNat_ofNat]
  omega
theorem e55 {base : Nat} {c_fn : BitVec 3} {c_k : BitVec 3} {c_l : BitVec 3} {b : BitVec 5} {a : BitVec 5} {d : BitVec 5} {m : BitVec 6} (h : base + 1024 = c_fn.toNat * 2 ^ 29 + c_k.toNat * 2 ^ 26 + c_l.toNat * 2 ^ 8 + 0 + m.toNat * 4 + 3) :
    word32 base [put 21 b, put 16 a, put 11 d, bit 10 true, Scope.cl.code * 2 ^ 8] = .w32 (fR c_fn c_k b a d c_l m) := by
  unfold word32
  refine congrArg Enc.w32 (BitVec.eq_of_toNat_eq ?_)
  have v0 := b.isLt
  have v1 := a.isLt
  have v2 := d.isLt
  have k0 := c_fn.isLt
  have k1 := c_k.isLt
  have k2 := c_l.isLt
  have hm := m.isLt
  rw [fR_toNat]
  simp only [List.foldl, put, bit, Scope.code, if_true, Bool.false_eq_true, if_false, BitVec.toNat_ofNat]
  omega
theorem e56 {base : Nat} {c_fn : BitVec 3} {c_k : BitVec 3} {c_l : BitVec 3} {b : BitVec 5} {a : BitVec 5} {d : BitVec 5} {m : BitVec 6} (h : base + 1280 = c_fn.toNat * 2 ^ 29 + c_k.toNat * 2 ^ 26 + c_l.toNat * 2 ^ 8 + 0 + m.toNat * 4 + 3) :
    word32 base [put 21 b, put 16 a, put 11 d, bit 10 true, Scope.dv.code * 2 ^ 8] = .w32 (fR c_fn c_k b a d c_l m) := by
  unfold word32
  refine congrArg Enc.w32 (BitVec.eq_of_toNat_eq ?_)
  have v0 := b.isLt
  have v1 := a.isLt
  have v2 := d.isLt
  have k0 := c_fn.isLt
  have k1 := c_k.isLt
  have k2 := c_l.isLt
  have hm := m.isLt
  rw [fR_toNat]
  simp only [List.foldl, put, bit, Scope.code, if_true, Bool.false_eq_true, if_false, BitVec.toNat_ofNat]
  omega
theorem e57 {base : Nat} {c_fn : BitVec 3} {c_k : BitVec 3} {c_l : BitVec 3} {b : BitVec 5} {a : BitVec 5} {d : BitVec 5} {m : BitVec 6} (h : base + 1536 = c_fn.toNat * 2 ^ 29 + c_k.toNat * 2 ^ 26 + c_l.toNat * 2 ^ 8 + 0 + m.toNat * 4 + 3) :
    word32 base [put 21 b, put 16 a, put 11 d, bit 10 true, Scope.sy.code * 2 ^ 8] = .w32 (fR c_fn c_k b a d c_l m) := by
  unfold word32
  refine congrArg Enc.w32 (BitVec.eq_of_toNat_eq ?_)
  have v0 := b.isLt
  have v1 := a.isLt
  have v2 := d.isLt
  have k0 := c_fn.isLt
  have k1 := c_k.isLt
  have k2 := c_l.isLt
  have hm := m.isLt
  rw [fR_toNat]
  simp only [List.foldl, put, bit, Scope.code, if_true, Bool.false_eq_true, if_false, BitVec.toNat_ofNat]
  omega
theorem e58 {base : Nat} {c_fn : BitVec 3} {c_k : BitVec 3} {c_b : BitVec 5} {c_d : BitVec 5} {a : BitVec 3} {l : BitVec 3} {m : BitVec 6} (h : base + 0 = c_fn.toNat * 2 ^ 29 + c_k.toNat * 2 ^ 26 + c_b.toNat * 2 ^ 21 + c_d.toNat * 2 ^ 11 + 0 + m.toNat * 4 + 3) :
    word32 base [put 16 a, put 8 l] = .w32 (fR c_fn c_k c_b (a.setWidth 5) c_d l m) := by
  unfold word32
  refine congrArg Enc.w32 (BitVec.eq_of_toNat_eq ?_)
  have v0 := a.isLt
  have v1 := l.isLt
  have k0 := c_fn.isLt
  have k1 := c_k.isLt
  have k2 := c_b.isLt
  have k3 := c_d.isLt
  have hm := m.isLt
  rw [fR_toNat]
  simp only [List.foldl, put, bit, Scope.code, if_true, Bool.false_eq_true, if_false, BitVec.toNat_ofNat, BitVec.toNat_setWidth]
  omega
theorem e59 {base : Nat} {c_fn : BitVec 3} {c_k : BitVec 3} {b : BitVec 5} {a : BitVec 5} {e : Fmt} {l : BitVec 3} {m : BitVec 6} (h : base + 0 = c_fn.toNat * 2 ^ 29 + c_k.toNat * 2 ^ 26 + 0 + m.toNat * 4 + 3) :
    word32 base [put 21 b, put 16 a, put 12 e.code, put 8 l] = .w32 (fR c_fn c_k b a (e.code ++ 0#1) l m) := by
  unfold word32
  refine congrArg Enc.w32 (BitVec.eq_of_toNat_eq ?_)
  have v0 := b.isLt
  have v1 := a.isLt
  have v2 := e.code.isLt
  have v3 := l.isLt
  have k0 := c_fn.isLt
  have k1 := c_k.isLt
  have hm := m.isLt
  rw [fR_toNat]
  have hc : (e.code ++ 0#1).toNat = e.code.toNat * 2 ^ 1 + 0 * 2 ^ 0 := by
    simp only [BitVec.toNat_append]
    repeat rw [← Nat.shiftLeft_add_eq_or_of_lt (by first | exact BitVec.isLt _ | decide)]
    simp only [Nat.shiftLeft_eq, BitVec.toNat_ofNat]
    all_goals omega
  simp only [List.foldl, put, bit, Scope.code, if_true, Bool.false_eq_true, if_false, BitVec.toNat_ofNat, hc]
  omega
theorem e60 {base : Nat} {c_fn : BitVec 3} {c_k : BitVec 3} {b : BitVec 5} {a : BitVec 5} {e : Fmt} {l : BitVec 3} {m : BitVec 6} (h : base + 67108864 = c_fn.toNat * 2 ^ 29 + c_k.toNat * 2 ^ 26 + 0 + m.toNat * 4 + 3) :
    word32 base [(match Sparse.of4 with | .of4 => 1 | .of2 => 2) * 2 ^ 26, put 21 b, put 16 a, put 12 e.code, put 8 l] = .w32 (fR c_fn c_k b a (e.code ++ 0#1) l m) := by
  unfold word32
  refine congrArg Enc.w32 (BitVec.eq_of_toNat_eq ?_)
  have v0 := b.isLt
  have v1 := a.isLt
  have v2 := e.code.isLt
  have v3 := l.isLt
  have k0 := c_fn.isLt
  have k1 := c_k.isLt
  have hm := m.isLt
  rw [fR_toNat]
  have hc : (e.code ++ 0#1).toNat = e.code.toNat * 2 ^ 1 + 0 * 2 ^ 0 := by
    simp only [BitVec.toNat_append]
    repeat rw [← Nat.shiftLeft_add_eq_or_of_lt (by first | exact BitVec.isLt _ | decide)]
    simp only [Nat.shiftLeft_eq, BitVec.toNat_ofNat]
    all_goals omega
  simp only [List.foldl, put, bit, Scope.code, if_true, Bool.false_eq_true, if_false, BitVec.toNat_ofNat, hc]
  omega
theorem e61 {base : Nat} {c_fn : BitVec 3} {c_k : BitVec 3} {b : BitVec 5} {a : BitVec 5} {e : Fmt} {l : BitVec 3} {m : BitVec 6} (h : base + 134217728 = c_fn.toNat * 2 ^ 29 + c_k.toNat * 2 ^ 26 + 0 + m.toNat * 4 + 3) :
    word32 base [(match Sparse.of2 with | .of4 => 1 | .of2 => 2) * 2 ^ 26, put 21 b, put 16 a, put 12 e.code, put 8 l] = .w32 (fR c_fn c_k b a (e.code ++ 0#1) l m) := by
  unfold word32
  refine congrArg Enc.w32 (BitVec.eq_of_toNat_eq ?_)
  have v0 := b.isLt
  have v1 := a.isLt
  have v2 := e.code.isLt
  have v3 := l.isLt
  have k0 := c_fn.isLt
  have k1 := c_k.isLt
  have hm := m.isLt
  rw [fR_toNat]
  have hc : (e.code ++ 0#1).toNat = e.code.toNat * 2 ^ 1 + 0 * 2 ^ 0 := by
    simp only [BitVec.toNat_append]
    repeat rw [← Nat.shiftLeft_add_eq_or_of_lt (by first | exact BitVec.isLt _ | decide)]
    simp only [Nat.shiftLeft_eq, BitVec.toNat_ofNat]
    all_goals omega
  simp only [List.foldl, put, bit, Scope.code, if_true, Bool.false_eq_true, if_false, BitVec.toNat_ofNat, hc]
  omega
theorem e62 {base : Nat} {c_fn : BitVec 3} {c_k : BitVec 3} {c_b : BitVec 5} {c_d : BitVec 5} {a : BitVec 5} {l : BitVec 3} {m : BitVec 6} (h : base + 0 = c_fn.toNat * 2 ^ 29 + c_k.toNat * 2 ^ 26 + c_b.toNat * 2 ^ 21 + c_d.toNat * 2 ^ 11 + 0 + m.toNat * 4 + 3) :
    word32 base [bit 26 false, put 16 a, put 8 l] = .w32 (fR c_fn c_k c_b a c_d l m) := by
  unfold word32
  refine congrArg Enc.w32 (BitVec.eq_of_toNat_eq ?_)
  have v0 := a.isLt
  have v1 := l.isLt
  have k0 := c_fn.isLt
  have k1 := c_k.isLt
  have k2 := c_b.isLt
  have k3 := c_d.isLt
  have hm := m.isLt
  rw [fR_toNat]
  simp only [List.foldl, put, bit, Scope.code, if_true, Bool.false_eq_true, if_false, BitVec.toNat_ofNat]
  omega
theorem e63 {base : Nat} {c_fn : BitVec 3} {c_k : BitVec 3} {c_b : BitVec 5} {c_d : BitVec 5} {a : BitVec 5} {l : BitVec 3} {m : BitVec 6} (h : base + 67108864 = c_fn.toNat * 2 ^ 29 + c_k.toNat * 2 ^ 26 + c_b.toNat * 2 ^ 21 + c_d.toNat * 2 ^ 11 + 0 + m.toNat * 4 + 3) :
    word32 base [bit 26 true, put 16 a, put 8 l] = .w32 (fR c_fn c_k c_b a c_d l m) := by
  unfold word32
  refine congrArg Enc.w32 (BitVec.eq_of_toNat_eq ?_)
  have v0 := a.isLt
  have v1 := l.isLt
  have k0 := c_fn.isLt
  have k1 := c_k.isLt
  have k2 := c_b.isLt
  have k3 := c_d.isLt
  have hm := m.isLt
  rw [fR_toNat]
  simp only [List.foldl, put, bit, Scope.code, if_true, Bool.false_eq_true, if_false, BitVec.toNat_ofNat]
  omega
theorem e64 {base : Nat} {c_fn : BitVec 3} {c_k : BitVec 3} {c_b : BitVec 5} {c_a : BitVec 5} {z : BitVec 1} {l : BitVec 3} {m : BitVec 6} (h : base + 0 = c_fn.toNat * 2 ^ 29 + c_k.toNat * 2 ^ 26 + c_b.toNat * 2 ^ 21 + c_a.toNat * 2 ^ 16 + 0 + m.toNat * 4 + 3) :
    word32 base [put 11 z, put 8 l] = .w32 (fR c_fn c_k c_b c_a (z.setWidth 5) l m) := by
  unfold word32
  refine congrArg Enc.w32 (BitVec.eq_of_toNat_eq ?_)
  have v0 := z.isLt
  have v1 := l.isLt
  have k0 := c_fn.isLt
  have k1 := c_k.isLt
  have k2 := c_b.isLt
  have k3 := c_a.isLt
  have hm := m.isLt
  rw [fR_toNat]
  simp only [List.foldl, put, bit, Scope.code, if_true, Bool.false_eq_true, if_false, BitVec.toNat_ofNat, BitVec.toNat_setWidth]
  omega
theorem e65 {base : Nat} {c_fn : BitVec 3} {c_k : BitVec 3} {b : BitVec 5} {a : BitVec 5} {z : BitVec 1} {e : Fmt} {l : BitVec 3} {m : BitVec 6} (h : base + 0 = c_fn.toNat * 2 ^ 29 + c_k.toNat * 2 ^ 26 + 0 + m.toNat * 4 + 3) :
    word32 base [bit 26 false, put 21 b, put 16 a, put 12 e.code, put 11 z, put 8 l] = .w32 (fR c_fn c_k b a (e.code ++ z) l m) := by
  unfold word32
  refine congrArg Enc.w32 (BitVec.eq_of_toNat_eq ?_)
  have v0 := b.isLt
  have v1 := a.isLt
  have v2 := z.isLt
  have v3 := e.code.isLt
  have v4 := l.isLt
  have k0 := c_fn.isLt
  have k1 := c_k.isLt
  have hm := m.isLt
  rw [fR_toNat]
  have hc : (e.code ++ z).toNat = e.code.toNat * 2 ^ 1 + z.toNat * 2 ^ 0 := by
    simp only [BitVec.toNat_append]
    repeat rw [← Nat.shiftLeft_add_eq_or_of_lt (by first | exact BitVec.isLt _ | decide)]
    simp only [Nat.shiftLeft_eq, BitVec.toNat_ofNat]
    all_goals omega
  simp only [List.foldl, put, bit, Scope.code, if_true, Bool.false_eq_true, if_false, BitVec.toNat_ofNat, hc]
  omega
theorem e66 {base : Nat} {c_fn : BitVec 3} {c_k : BitVec 3} {b : BitVec 5} {a : BitVec 5} {z : BitVec 1} {e : Fmt} {l : BitVec 3} {m : BitVec 6} (h : base + 67108864 = c_fn.toNat * 2 ^ 29 + c_k.toNat * 2 ^ 26 + 0 + m.toNat * 4 + 3) :
    word32 base [bit 26 true, put 21 b, put 16 a, put 12 e.code, put 11 z, put 8 l] = .w32 (fR c_fn c_k b a (e.code ++ z) l m) := by
  unfold word32
  refine congrArg Enc.w32 (BitVec.eq_of_toNat_eq ?_)
  have v0 := b.isLt
  have v1 := a.isLt
  have v2 := z.isLt
  have v3 := e.code.isLt
  have v4 := l.isLt
  have k0 := c_fn.isLt
  have k1 := c_k.isLt
  have hm := m.isLt
  rw [fR_toNat]
  have hc : (e.code ++ z).toNat = e.code.toNat * 2 ^ 1 + z.toNat * 2 ^ 0 := by
    simp only [BitVec.toNat_append]
    repeat rw [← Nat.shiftLeft_add_eq_or_of_lt (by first | exact BitVec.isLt _ | decide)]
    simp only [Nat.shiftLeft_eq, BitVec.toNat_ofNat]
    all_goals omega
  simp only [List.foldl, put, bit, Scope.code, if_true, Bool.false_eq_true, if_false, BitVec.toNat_ofNat, hc]
  omega
theorem e67 {base : Nat} {c_fn : BitVec 3} {c_k : BitVec 3} {b : BitVec 5} {a : BitVec 5} {z : BitVec 1} {e : Fmt} {l : BitVec 3} {m : BitVec 6} (h : base + 0 = c_fn.toNat * 2 ^ 29 + c_k.toNat * 2 ^ 26 + 0 + m.toNat * 4 + 3) :
    word32 base [put 21 b, put 16 a, put 12 e.code, put 11 z, put 8 l] = .w32 (fR c_fn c_k b a (e.code ++ z) l m) := by
  unfold word32
  refine congrArg Enc.w32 (BitVec.eq_of_toNat_eq ?_)
  have v0 := b.isLt
  have v1 := a.isLt
  have v2 := z.isLt
  have v3 := e.code.isLt
  have v4 := l.isLt
  have k0 := c_fn.isLt
  have k1 := c_k.isLt
  have hm := m.isLt
  rw [fR_toNat]
  have hc : (e.code ++ z).toNat = e.code.toNat * 2 ^ 1 + z.toNat * 2 ^ 0 := by
    simp only [BitVec.toNat_append]
    repeat rw [← Nat.shiftLeft_add_eq_or_of_lt (by first | exact BitVec.isLt _ | decide)]
    simp only [Nat.shiftLeft_eq, BitVec.toNat_ofNat]
    all_goals omega
  simp only [List.foldl, put, bit, Scope.code, if_true, Bool.false_eq_true, if_false, BitVec.toNat_ofNat, hc]
  omega
theorem e68 {base : Nat} {c_fn : BitVec 3} {t : BitVec 2} {b : BitVec 5} {a : BitVec 5} {z : BitVec 1} {e : Fmt} {l : BitVec 3} {m : BitVec 6} (h : base + 0 = c_fn.toNat * 2 ^ 29 + 0 + m.toNat * 4 + 3) :
    word32 base [put 27 t, bit 26 false, put 21 b, put 16 a, put 12 e.code, put 11 z, put 8 l] = .w32 (fR c_fn (t ++ 0#1) b a (e.code ++ z) l m) := by
  unfold word32
  refine congrArg Enc.w32 (BitVec.eq_of_toNat_eq ?_)
  have v0 := t.isLt
  have v1 := b.isLt
  have v2 := a.isLt
  have v3 := z.isLt
  have v4 := e.code.isLt
  have v5 := l.isLt
  have k0 := c_fn.isLt
  have hm := m.isLt
  rw [fR_toNat]
  have hc : (t ++ 0#1).toNat = t.toNat * 2 ^ 1 + 0 * 2 ^ 0 := by
    simp only [BitVec.toNat_append]
    repeat rw [← Nat.shiftLeft_add_eq_or_of_lt (by first | exact BitVec.isLt _ | decide)]
    simp only [Nat.shiftLeft_eq, BitVec.toNat_ofNat]
    all_goals omega
  have hc : (e.code ++ z).toNat = e.code.toNat * 2 ^ 1 + z.toNat * 2 ^ 0 := by
    simp only [BitVec.toNat_append]
    repeat rw [← Nat.shiftLeft_add_eq_or_of_lt (by first | exact BitVec.isLt _ | decide)]
    simp only [Nat.shiftLeft_eq, BitVec.toNat_ofNat]
    all_goals omega
  simp only [List.foldl, put, bit, Scope.code, if_true, Bool.false_eq_true, if_false, BitVec.toNat_ofNat, hc]
  omega
theorem e69 {base : Nat} {c_fn : BitVec 3} {t : BitVec 2} {b : BitVec 5} {a : BitVec 5} {z : BitVec 1} {e : Fmt} {l : BitVec 3} {m : BitVec 6} (h : base + 67108864 = c_fn.toNat * 2 ^ 29 + 67108864 + m.toNat * 4 + 3) :
    word32 base [put 27 t, bit 26 true, put 21 b, put 16 a, put 12 e.code, put 11 z, put 8 l] = .w32 (fR c_fn (t ++ 1#1) b a (e.code ++ z) l m) := by
  unfold word32
  refine congrArg Enc.w32 (BitVec.eq_of_toNat_eq ?_)
  have v0 := t.isLt
  have v1 := b.isLt
  have v2 := a.isLt
  have v3 := z.isLt
  have v4 := e.code.isLt
  have v5 := l.isLt
  have k0 := c_fn.isLt
  have hm := m.isLt
  rw [fR_toNat]
  have hc : (t ++ 1#1).toNat = t.toNat * 2 ^ 1 + 1 * 2 ^ 0 := by
    simp only [BitVec.toNat_append]
    repeat rw [← Nat.shiftLeft_add_eq_or_of_lt (by first | exact BitVec.isLt _ | decide)]
    simp only [Nat.shiftLeft_eq, BitVec.toNat_ofNat]
    all_goals omega
  have hc : (e.code ++ z).toNat = e.code.toNat * 2 ^ 1 + z.toNat * 2 ^ 0 := by
    simp only [BitVec.toNat_append]
    repeat rw [← Nat.shiftLeft_add_eq_or_of_lt (by first | exact BitVec.isLt _ | decide)]
    simp only [Nat.shiftLeft_eq, BitVec.toNat_ofNat]
    all_goals omega
  simp only [List.foldl, put, bit, Scope.code, if_true, Bool.false_eq_true, if_false, BitVec.toNat_ofNat, hc]
  omega
theorem e70 {base : Nat} {c_fn : BitVec 3} {c_k : BitVec 3} {c_a : BitVec 5} {b : BitVec 5} {d : BitVec 5} {l : BitVec 3} {m : BitVec 6} (h : base + 0 = c_fn.toNat * 2 ^ 29 + c_k.toNat * 2 ^ 26 + c_a.toNat * 2 ^ 16 + 0 + m.toNat * 4 + 3) :
    word32 base [put 21 b, put 11 d, put 8 l] = .w32 (fR c_fn c_k b c_a d l m) := by
  unfold word32
  refine congrArg Enc.w32 (BitVec.eq_of_toNat_eq ?_)
  have v0 := b.isLt
  have v1 := d.isLt
  have v2 := l.isLt
  have k0 := c_fn.isLt
  have k1 := c_k.isLt
  have k2 := c_a.isLt
  have hm := m.isLt
  rw [fR_toNat]
  simp only [List.foldl, put, bit, Scope.code, if_true, Bool.false_eq_true, if_false, BitVec.toNat_ofNat]
  omega
theorem e71 {base : Nat} {c_fn : BitVec 3} {c_a : BitVec 5} {c : Csr} {d : BitVec 5} {l : BitVec 3} {m : BitVec 6} (h : base + 0 = c_fn.toNat * 2 ^ 29 + c_a.toNat * 2 ^ 16 + 0 + m.toNat * 4 + 3) :
    word32 base [put 21 c.num, put 11 d, put 8 l] = .w32 (fM c_fn c.num c_a d l m) := by
  unfold word32
  refine congrArg Enc.w32 (BitVec.eq_of_toNat_eq ?_)
  have v0 := c.num.isLt
  have v1 := d.isLt
  have v2 := l.isLt
  have k0 := c_fn.isLt
  have k1 := c_a.isLt
  have hm := m.isLt
  rw [fM_toNat]
  simp only [List.foldl, put, bit, Scope.code, if_true, Bool.false_eq_true, if_false, BitVec.toNat_ofNat]
  omega
theorem e72 {base : Nat} {c_fn : BitVec 3} {c : Csr} {a : BitVec 5} {d : BitVec 5} {l : BitVec 3} {m : BitVec 6} (h : base + 0 = c_fn.toNat * 2 ^ 29 + 0 + m.toNat * 4 + 3) :
    word32 base [put 21 c.num, put 16 a, put 11 d, put 8 l] = .w32 (fM c_fn c.num a d l m) := by
  unfold word32
  refine congrArg Enc.w32 (BitVec.eq_of_toNat_eq ?_)
  have v0 := c.num.isLt
  have v1 := a.isLt
  have v2 := d.isLt
  have v3 := l.isLt
  have k0 := c_fn.isLt
  have hm := m.isLt
  rw [fM_toNat]
  simp only [List.foldl, put, bit, Scope.code, if_true, Bool.false_eq_true, if_false, BitVec.toNat_ofNat]
  omega

/-! ## The instructions -/

theorem freq (o : BitVec 8) (a : BitVec 5) (d : BitVec 5) (l : BitVec 3) : Statement (.freq o a d l) := by
  refine of32 (w := (fM 6 o a d l 14)) (e0 rfl) (lowM ..) (fun hw => ?_) rfl
  rw [maj0E (M_2_6 ..)]
  simp only [decodeMaj0E, M_29_3, M_21_8, M_16_5, M_11_5, M_8_3]
  exact nil
theorem add (b : BitVec 5) (a : BitVec 5) (d : BitVec 5) (l : BitVec 3) : Statement (.add b a d l) := by
  refine of32 (w := (fR 0 0 b a d l 1)) (e1 rfl) (lowR ..) (fun hw => ?_) rfl
  rw [maj01 (R_2_6 ..)]
  simp only [decodeMaj01, R_29_3, R_26_3, R_21_5, R_16_5, R_11_5, R_8_3]
  exact (cons rfl nil)
theorem sub (b : BitVec 5) (a : BitVec 5) (d : BitVec 5) (l : BitVec 3) : Statement (.sub b a d l) := by
  refine of32 (w := (fR 1 0 b a d l 1)) (e1 rfl) (lowR ..) (fun hw => ?_) rfl
  rw [maj01 (R_2_6 ..)]
  simp only [decodeMaj01, R_29_3, R_26_3, R_21_5, R_16_5, R_11_5, R_8_3]
  exact (cons rfl nil)
theorem and (b : BitVec 5) (a : BitVec 5) (d : BitVec 5) (l : BitVec 3) : Statement (.and b a d l) := by
  refine of32 (w := (fR 2 0 b a d l 1)) (e1 rfl) (lowR ..) (fun hw => ?_) rfl
  rw [maj01 (R_2_6 ..)]
  simp only [decodeMaj01, R_29_3, R_26_3, R_21_5, R_16_5, R_11_5, R_8_3]
  exact (cons rfl nil)
theorem or (b : BitVec 5) (a : BitVec 5) (d : BitVec 5) (l : BitVec 3) : Statement (.or b a d l) := by
  refine of32 (w := (fR 3 0 b a d l 1)) (e1 rfl) (lowR ..) (fun hw => ?_) rfl
  rw [maj01 (R_2_6 ..)]
  simp only [decodeMaj01, R_29_3, R_26_3, R_21_5, R_16_5, R_11_5, R_8_3]
  exact (cons rfl nil)
theorem xor (b : BitVec 5) (a : BitVec 5) (d : BitVec 5) (l : BitVec 3) : Statement (.xor b a d l) := by
  refine of32 (w := (fR 4 0 b a d l 1)) (e1 rfl) (lowR ..) (fun hw => ?_) rfl
  rw [maj01 (R_2_6 ..)]
  simp only [decodeMaj01, R_29_3, R_26_3, R_21_5, R_16_5, R_11_5, R_8_3]
  exact (cons rfl nil)
theorem andn (b : BitVec 5) (a : BitVec 5) (d : BitVec 5) (l : BitVec 3) : Statement (.andn b a d l) := by
  refine of32 (w := (fR 5 0 b a d l 1)) (e1 rfl) (lowR ..) (fun hw => ?_) rfl
  rw [maj01 (R_2_6 ..)]
  simp only [decodeMaj01, R_29_3, R_26_3, R_21_5, R_16_5, R_11_5, R_8_3]
  exact (cons rfl nil)
theorem sll (b : BitVec 5) (a : BitVec 5) (d : BitVec 5) (l : BitVec 3) : Statement (.sll b a d l) := by
  refine of32 (w := (fR 6 0 b a d l 1)) (e1 rfl) (lowR ..) (fun hw => ?_) rfl
  rw [maj01 (R_2_6 ..)]
  simp only [decodeMaj01, R_29_3, R_26_3, R_21_5, R_16_5, R_11_5, R_8_3]
  exact (cons rfl nil)
theorem srl (b : BitVec 5) (a : BitVec 5) (d : BitVec 5) (l : BitVec 3) : Statement (.srl b a d l) := by
  refine of32 (w := (fR 7 0 b a d l 1)) (e1 rfl) (lowR ..) (fun hw => ?_) rfl
  rw [maj01 (R_2_6 ..)]
  simp only [decodeMaj01, R_29_3, R_26_3, R_21_5, R_16_5, R_11_5, R_8_3]
  exact (cons rfl nil)
theorem sra (b : BitVec 5) (a : BitVec 5) (d : BitVec 5) (l : BitVec 3) : Statement (.sra b a d l) := by
  refine of32 (w := (fR 0 0 b a d l 2)) (e1 rfl) (lowR ..) (fun hw => ?_) rfl
  rw [maj02 (R_2_6 ..)]
  simp only [decodeMaj02, R_29_3, R_26_3, R_21_5, R_16_5, R_11_5, R_8_3]
  exact (cons rfl nil)
theorem ror (b : BitVec 5) (a : BitVec 5) (d : BitVec 5) (l : BitVec 3) : Statement (.ror b a d l) := by
  refine of32 (w := (fR 1 0 b a d l 2)) (e1 rfl) (lowR ..) (fun hw => ?_) rfl
  rw [maj02 (R_2_6 ..)]
  simp only [decodeMaj02, R_29_3, R_26_3, R_21_5, R_16_5, R_11_5, R_8_3]
  exact (cons rfl nil)
theorem minS (b : BitVec 5) (a : BitVec 5) (d : BitVec 5) (l : BitVec 3) : Statement (.minS b a d l) := by
  refine of32 (w := (fR 2 0 b a d l 2)) (e1 rfl) (lowR ..) (fun hw => ?_) rfl
  rw [maj02 (R_2_6 ..)]
  simp only [decodeMaj02, R_29_3, R_26_3, R_21_5, R_16_5, R_11_5, R_8_3]
  exact (cons rfl nil)
theorem maxS (b : BitVec 5) (a : BitVec 5) (d : BitVec 5) (l : BitVec 3) : Statement (.maxS b a d l) := by
  refine of32 (w := (fR 3 0 b a d l 2)) (e1 rfl) (lowR ..) (fun hw => ?_) rfl
  rw [maj02 (R_2_6 ..)]
  simp only [decodeMaj02, R_29_3, R_26_3, R_21_5, R_16_5, R_11_5, R_8_3]
  exact (cons rfl nil)
theorem minN (b : BitVec 5) (a : BitVec 5) (d : BitVec 5) (l : BitVec 3) : Statement (.minN b a d l) := by
  refine of32 (w := (fR 4 0 b a d l 2)) (e1 rfl) (lowR ..) (fun hw => ?_) rfl
  rw [maj02 (R_2_6 ..)]
  simp only [decodeMaj02, R_29_3, R_26_3, R_21_5, R_16_5, R_11_5, R_8_3]
  exact (cons rfl nil)
theorem maxN (b : BitVec 5) (a : BitVec 5) (d : BitVec 5) (l : BitVec 3) : Statement (.maxN b a d l) := by
  refine of32 (w := (fR 5 0 b a d l 2)) (e1 rfl) (lowR ..) (fun hw => ?_) rfl
  rw [maj02 (R_2_6 ..)]
  simp only [decodeMaj02, R_29_3, R_26_3, R_21_5, R_16_5, R_11_5, R_8_3]
  exact (cons rfl nil)
theorem clz (a : BitVec 5) (d : BitVec 5) (l : BitVec 3) : Statement (.clz a d l) := by
  refine of32 (w := (fR 6 0 0 a d l 2)) (e2 rfl) (lowR ..) (fun hw => ?_) rfl
  rw [maj02 (R_2_6 ..)]
  simp only [decodeMaj02, R_29_3, R_21_5, R_26_3, R_16_5, R_11_5, R_8_3]
  exact (cons rfl (cons rfl nil))
theorem popc (a : BitVec 5) (d : BitVec 5) (l : BitVec 3) : Statement (.popc a d l) := by
  refine of32 (w := (fR 7 0 0 a d l 2)) (e2 rfl) (lowR ..) (fun hw => ?_) rfl
  rw [maj02 (R_2_6 ..)]
  simp only [decodeMaj02, R_29_3, R_21_5, R_26_3, R_16_5, R_11_5, R_8_3]
  exact (cons rfl (cons rfl nil))
theorem mul (b : BitVec 5) (a : BitVec 5) (d : BitVec 5) (l : BitVec 3) : Statement (.mul b a d l) := by
  refine of32 (w := (fR 0 0 b a d l 3)) (e1 rfl) (lowR ..) (fun hw => ?_) rfl
  rw [maj03 (R_2_6 ..)]
  simp only [decodeMaj03, R_29_3, R_26_3, R_21_5, R_16_5, R_11_5, R_8_3]
  exact (cons rfl nil)
theorem mulhS (b : BitVec 5) (a : BitVec 5) (d : BitVec 5) (l : BitVec 3) : Statement (.mulhS b a d l) := by
  refine of32 (w := (fR 1 0 b a d l 3)) (e1 rfl) (lowR ..) (fun hw => ?_) rfl
  rw [maj03 (R_2_6 ..)]
  simp only [decodeMaj03, R_29_3, R_26_3, R_21_5, R_16_5, R_11_5, R_8_3]
  exact (cons rfl nil)
theorem mulhN (b : BitVec 5) (a : BitVec 5) (d : BitVec 5) (l : BitVec 3) : Statement (.mulhN b a d l) := by
  refine of32 (w := (fR 2 0 b a d l 3)) (e1 rfl) (lowR ..) (fun hw => ?_) rfl
  rw [maj03 (R_2_6 ..)]
  simp only [decodeMaj03, R_29_3, R_26_3, R_21_5, R_16_5, R_11_5, R_8_3]
  exact (cons rfl nil)
theorem divS (b : BitVec 5) (a : BitVec 5) (d : BitVec 5) (l : BitVec 3) : Statement (.divS b a d l) := by
  refine of32 (w := (fR 3 0 b a d l 3)) (e1 rfl) (lowR ..) (fun hw => ?_) rfl
  rw [maj03 (R_2_6 ..)]
  simp only [decodeMaj03, R_29_3, R_26_3, R_21_5, R_16_5, R_11_5, R_8_3]
  exact (cons rfl nil)
theorem divN (b : BitVec 5) (a : BitVec 5) (d : BitVec 5) (l : BitVec 3) : Statement (.divN b a d l) := by
  refine of32 (w := (fR 4 0 b a d l 3)) (e1 rfl) (lowR ..) (fun hw => ?_) rfl
  rw [maj03 (R_2_6 ..)]
  simp only [decodeMaj03, R_29_3, R_26_3, R_21_5, R_16_5, R_11_5, R_8_3]
  exact (cons rfl nil)
theorem remS (b : BitVec 5) (a : BitVec 5) (d : BitVec 5) (l : BitVec 3) : Statement (.remS b a d l) := by
  refine of32 (w := (fR 5 0 b a d l 3)) (e1 rfl) (lowR ..) (fun hw => ?_) rfl
  rw [maj03 (R_2_6 ..)]
  simp only [decodeMaj03, R_29_3, R_26_3, R_21_5, R_16_5, R_11_5, R_8_3]
  exact (cons rfl nil)
theorem remN (b : BitVec 5) (a : BitVec 5) (d : BitVec 5) (l : BitVec 3) : Statement (.remN b a d l) := by
  refine of32 (w := (fR 6 0 b a d l 3)) (e1 rfl) (lowR ..) (fun hw => ?_) rfl
  rw [maj03 (R_2_6 ..)]
  simp only [decodeMaj03, R_29_3, R_26_3, R_21_5, R_16_5, R_11_5, R_8_3]
  exact (cons rfl nil)
theorem madd (b : BitVec 5) (a : BitVec 5) (d : BitVec 5) (l : BitVec 3) : Statement (.madd b a d l) := by
  refine of32 (w := (fR 7 0 b a d l 3)) (e1 rfl) (lowR ..) (fun hw => ?_) rfl
  rw [maj03 (R_2_6 ..)]
  simp only [decodeMaj03, R_29_3, R_26_3, R_21_5, R_16_5, R_11_5, R_8_3]
  exact (cons rfl nil)
theorem seq (b : BitVec 5) (a : BitVec 5) (d : BitVec 5) (l : BitVec 3) : Statement (.seq b a d l) := by
  refine of32 (w := (fR 0 0 b a d l 4)) (e1 rfl) (lowR ..) (fun hw => ?_) rfl
  rw [maj04 (R_2_6 ..)]
  simp only [decodeMaj04, R_29_3, R_26_3, R_21_5, R_16_5, R_11_5, R_8_3]
  exact (cons rfl nil)
theorem sne (b : BitVec 5) (a : BitVec 5) (d : BitVec 5) (l : BitVec 3) : Statement (.sne b a d l) := by
  refine of32 (w := (fR 1 0 b a d l 4)) (e1 rfl) (lowR ..) (fun hw => ?_) rfl
  rw [maj04 (R_2_6 ..)]
  simp only [decodeMaj04, R_29_3, R_26_3, R_21_5, R_16_5, R_11_5, R_8_3]
  exact (cons rfl nil)
theorem sltS (b : BitVec 5) (a : BitVec 5) (d : BitVec 5) (l : BitVec 3) : Statement (.sltS b a d l) := by
  refine of32 (w := (fR 2 0 b a d l 4)) (e1 rfl) (lowR ..) (fun hw => ?_) rfl
  rw [maj04 (R_2_6 ..)]
  simp only [decodeMaj04, R_29_3, R_26_3, R_21_5, R_16_5, R_11_5, R_8_3]
  exact (cons rfl nil)
theorem sltN (b : BitVec 5) (a : BitVec 5) (d : BitVec 5) (l : BitVec 3) : Statement (.sltN b a d l) := by
  refine of32 (w := (fR 3 0 b a d l 4)) (e1 rfl) (lowR ..) (fun hw => ?_) rfl
  rw [maj04 (R_2_6 ..)]
  simp only [decodeMaj04, R_29_3, R_26_3, R_21_5, R_16_5, R_11_5, R_8_3]
  exact (cons rfl nil)
theorem sleS (b : BitVec 5) (a : BitVec 5) (d : BitVec 5) (l : BitVec 3) : Statement (.sleS b a d l) := by
  refine of32 (w := (fR 4 0 b a d l 4)) (e1 rfl) (lowR ..) (fun hw => ?_) rfl
  rw [maj04 (R_2_6 ..)]
  simp only [decodeMaj04, R_29_3, R_26_3, R_21_5, R_16_5, R_11_5, R_8_3]
  exact (cons rfl nil)
theorem sleN (b : BitVec 5) (a : BitVec 5) (d : BitVec 5) (l : BitVec 3) : Statement (.sleN b a d l) := by
  refine of32 (w := (fR 5 0 b a d l 4)) (e1 rfl) (lowR ..) (fun hw => ?_) rfl
  rw [maj04 (R_2_6 ..)]
  simp only [decodeMaj04, R_29_3, R_26_3, R_21_5, R_16_5, R_11_5, R_8_3]
  exact (cons rfl nil)
theorem csel (b : BitVec 5) (a : BitVec 5) (d : BitVec 5) (l : BitVec 3) : Statement (.csel b a d l) := by
  refine of32 (w := (fR 6 0 b a d l 4)) (e1 rfl) (lowR ..) (fun hw => ?_) rfl
  rw [maj04 (R_2_6 ..)]
  simp only [decodeMaj04, R_29_3, R_26_3, R_21_5, R_16_5, R_11_5, R_8_3]
  exact (cons rfl nil)
theorem bfx (b : BitVec 5) (a : BitVec 5) (d : BitVec 5) (l : BitVec 3) : Statement (.bfx b a d l) := by
  refine of32 (w := (fR 7 0 b a d l 4)) (e1 rfl) (lowR ..) (fun hw => ?_) rfl
  rw [maj04 (R_2_6 ..)]
  simp only [decodeMaj04, R_29_3, R_26_3, R_21_5, R_16_5, R_11_5, R_8_3]
  exact (cons rfl nil)
theorem addi (i : BitVec 8) (a : BitVec 5) (d : BitVec 5) (l : BitVec 3) : Statement (.addi i a d l) := by
  refine of32 (w := (fM 0 i a d l 5)) (e3 rfl) (lowM ..) (fun hw => ?_) rfl
  rw [maj05 (M_2_6 ..)]
  simp only [decodeMaj05, M_29_3, M_21_8, M_16_5, M_11_5, M_8_3]
  exact nil
theorem andi (i : BitVec 8) (a : BitVec 5) (d : BitVec 5) (l : BitVec 3) : Statement (.andi i a d l) := by
  refine of32 (w := (fM 1 i a d l 5)) (e3 rfl) (lowM ..) (fun hw => ?_) rfl
  rw [maj05 (M_2_6 ..)]
  simp only [decodeMaj05, M_29_3, M_21_8, M_16_5, M_11_5, M_8_3]
  exact nil
theorem ori (i : BitVec 8) (a : BitVec 5) (d : BitVec 5) (l : BitVec 3) : Statement (.ori i a d l) := by
  refine of32 (w := (fM 2 i a d l 5)) (e3 rfl) (lowM ..) (fun hw => ?_) rfl
  rw [maj05 (M_2_6 ..)]
  simp only [decodeMaj05, M_29_3, M_21_8, M_16_5, M_11_5, M_8_3]
  exact nil
theorem xori (i : BitVec 8) (a : BitVec 5) (d : BitVec 5) (l : BitVec 3) : Statement (.xori i a d l) := by
  refine of32 (w := (fM 3 i a d l 5)) (e3 rfl) (lowM ..) (fun hw => ?_) rfl
  rw [maj05 (M_2_6 ..)]
  simp only [decodeMaj05, M_29_3, M_21_8, M_16_5, M_11_5, M_8_3]
  exact nil
theorem slli (i : BitVec 6) (a : BitVec 5) (d : BitVec 5) (l : BitVec 3) : Statement (.slli i a d l) := by
  refine of32 (w := (fM 4 (i.setWidth 8) a d l 5)) (e4 rfl) (lowM ..) (fun hw => ?_) rfl
  rw [maj05 (M_2_6 ..)]
  simp only [decodeMaj05, M_29_3, M_27_2, M_21_8, M_21_6, M_16_5, M_11_5, M_8_3, n6_8_6_2, n6_8_0_6]
  exact (cons rfl nil)
theorem srli (i : BitVec 6) (a : BitVec 5) (d : BitVec 5) (l : BitVec 3) : Statement (.srli i a d l) := by
  refine of32 (w := (fM 5 (i.setWidth 8) a d l 5)) (e4 rfl) (lowM ..) (fun hw => ?_) rfl
  rw [maj05 (M_2_6 ..)]
  simp only [decodeMaj05, M_29_3, M_27_2, M_21_8, M_21_6, M_16_5, M_11_5, M_8_3, n6_8_6_2, n6_8_0_6]
  exact (cons rfl nil)
theorem srai (i : BitVec 6) (a : BitVec 5) (d : BitVec 5) (l : BitVec 3) : Statement (.srai i a d l) := by
  refine of32 (w := (fM 6 (i.setWidth 8) a d l 5)) (e4 rfl) (lowM ..) (fun hw => ?_) rfl
  rw [maj05 (M_2_6 ..)]
  simp only [decodeMaj05, M_29_3, M_27_2, M_21_8, M_21_6, M_16_5, M_11_5, M_8_3, n6_8_6_2, n6_8_0_6]
  exact (cons rfl nil)
theorem slti (i : BitVec 8) (a : BitVec 5) (d : BitVec 5) (l : BitVec 3) : Statement (.slti i a d l) := by
  refine of32 (w := (fM 7 i a d l 5)) (e3 rfl) (lowM ..) (fun hw => ?_) rfl
  rw [maj05 (M_2_6 ..)]
  simp only [decodeMaj05, M_29_3, M_21_8, M_16_5, M_11_5, M_8_3]
  exact nil
theorem li (i : BitVec 16) (d : BitVec 5) (l : BitVec 3) : Statement (.li i d l) := by
  refine of32 (w := (fL i d l 6)) (e5 rfl) (lowL ..) (fun hw => ?_) rfl
  rw [maj06 (L_2_6 ..)]
  simp only [decodeMaj06, L_16_16, L_11_5, L_8_3]
  exact nil
theorem lsh (i : BitVec 16) (d : BitVec 5) (l : BitVec 3) : Statement (.lsh i d l) := by
  refine of32 (w := (fL i d l 7)) (e5 rfl) (lowL ..) (fun hw => ?_) rfl
  rw [maj07 (L_2_6 ..)]
  simp only [decodeMaj07, L_16_16, L_11_5, L_8_3]
  exact nil
theorem beq (o : BitVec 11) (b : BitVec 5) (a : BitVec 5) : Statement (.beq o b a) := by
  refine of32 (w := (fB o b a 0 8)) (e6 rfl) (lowB ..) (fun hw => ?_) rfl
  rw [maj08 (B_2_6 ..)]
  simp only [decodeMaj08, B_8_3, B_21_11, B_16_5, B_11_5]
  exact nil
theorem bne (o : BitVec 11) (b : BitVec 5) (a : BitVec 5) : Statement (.bne o b a) := by
  refine of32 (w := (fB o b a 1 8)) (e6 rfl) (lowB ..) (fun hw => ?_) rfl
  rw [maj08 (B_2_6 ..)]
  simp only [decodeMaj08, B_8_3, B_21_11, B_16_5, B_11_5]
  exact nil
theorem bltS (o : BitVec 11) (b : BitVec 5) (a : BitVec 5) : Statement (.bltS o b a) := by
  refine of32 (w := (fB o b a 2 8)) (e6 rfl) (lowB ..) (fun hw => ?_) rfl
  rw [maj08 (B_2_6 ..)]
  simp only [decodeMaj08, B_8_3, B_21_11, B_16_5, B_11_5]
  exact nil
theorem bgeS (o : BitVec 11) (b : BitVec 5) (a : BitVec 5) : Statement (.bgeS o b a) := by
  refine of32 (w := (fB o b a 3 8)) (e6 rfl) (lowB ..) (fun hw => ?_) rfl
  rw [maj08 (B_2_6 ..)]
  simp only [decodeMaj08, B_8_3, B_21_11, B_16_5, B_11_5]
  exact nil
theorem bltN (o : BitVec 11) (b : BitVec 5) (a : BitVec 5) : Statement (.bltN o b a) := by
  refine of32 (w := (fB o b a 4 8)) (e6 rfl) (lowB ..) (fun hw => ?_) rfl
  rw [maj08 (B_2_6 ..)]
  simp only [decodeMaj08, B_8_3, B_21_11, B_16_5, B_11_5]
  exact nil
theorem bgeN (o : BitVec 11) (b : BitVec 5) (a : BitVec 5) : Statement (.bgeN o b a) := by
  refine of32 (w := (fB o b a 5 8)) (e6 rfl) (lowB ..) (fun hw => ?_) rfl
  rw [maj08 (B_2_6 ..)]
  simp only [decodeMaj08, B_8_3, B_21_11, B_16_5, B_11_5]
  exact nil
theorem bkany (o : BitVec 11) (a : BitVec 3) : Statement (.bkany o a) := by
  refine of32 (w := (fB o 0 (a.setWidth 5) 6 8)) (e7 rfl) (lowB ..) (fun hw => ?_) rfl
  rw [maj08 (B_2_6 ..)]
  simp only [decodeMaj08, B_8_3, B_16_5, B_11_5, B_21_11, B_11_3, n3_5_0_3]
  exact (cons rfl (cons (kreg3 _) nil))
theorem bknone (o : BitVec 11) (a : BitVec 3) : Statement (.bknone o a) := by
  refine of32 (w := (fB o 0 (a.setWidth 5) 7 8)) (e7 rfl) (lowB ..) (fun hw => ?_) rfl
  rw [maj08 (B_2_6 ..)]
  simp only [decodeMaj08, B_8_3, B_16_5, B_11_5, B_21_11, B_11_3, n3_5_0_3]
  exact (cons rfl (cons (kreg3 _) nil))
theorem j (o : BitVec 23) : Statement (.j o) := by
  refine of32 (w := (fJ 0 o 9)) (e8 rfl) (lowJ ..) (fun hw => ?_) rfl
  rw [maj09 (J_2_6 ..)]
  simp only [decodeMaj09, J_31_1, J_8_23]
  exact nil
theorem call (o : BitVec 23) : Statement (.call o) := by
  refine of32 (w := (fJ 1 o 9)) (e8 rfl) (lowJ ..) (fun hw => ?_) rfl
  rw [maj09 (J_2_6 ..)]
  simp only [decodeMaj09, J_31_1, J_8_23]
  exact nil
theorem loop (e : BitVec 11) (a : BitVec 5) (l : BitVec 3) : Statement (.loop e a l) := by
  refine of32 (w := (fB e a 0 l 10)) (e9 rfl) (lowB ..) (fun hw => ?_) rfl
  rw [maj0A (B_2_6 ..)]
  simp only [decodeMaj0A, B_11_5, B_21_11, B_16_5, B_8_3]
  exact (cons rfl (cons (decide_eq_false (by have h := of_decide_eq_true hw; change ¬ e.toNat < 3; omega)) nil))
theorem jr (a : BitVec 5) (l : BitVec 3) : Statement (.jr a l) := by
  refine of32 (w := (fR 0 0 0 a 0 l 11)) (e10 rfl) (lowR ..) (fun hw => ?_) rfl
  rw [maj0B (R_2_6 ..)]
  simp only [decodeMaj0B, R_29_3, R_11_5, R_21_5, R_26_3, R_16_5, R_8_3]
  exact (cons rfl (cons rfl (cons rfl nil)))
theorem callr (a : BitVec 5) (l : BitVec 3) : Statement (.callr a l) := by
  refine of32 (w := (fR 1 0 0 a 0 l 11)) (e10 rfl) (lowR ..) (fun hw => ?_) rfl
  rw [maj0B (R_2_6 ..)]
  simp only [decodeMaj0B, R_29_3, R_11_5, R_21_5, R_26_3, R_16_5, R_8_3]
  exact (cons rfl (cons rfl (cons rfl nil)))
theorem ret (l : BitVec 3) : Statement (.ret l) := by
  refine of32 (w := (fR 2 0 0 0 0 l 11)) (e11 rfl) (lowR ..) (fun hw => ?_) rfl
  rw [maj0B (R_2_6 ..)]
  simp only [decodeMaj0B, R_29_3, R_11_5, R_16_5, R_21_5, R_26_3, R_8_3]
  exact (cons rfl (cons rfl (cons rfl (cons rfl nil))))
theorem endFiring (l : BitVec 3) : Statement (.endFiring l) := by
  refine of32 (w := (fR 3 0 0 0 0 l 11)) (e11 rfl) (lowR ..) (fun hw => ?_) rfl
  rw [maj0B (R_2_6 ..)]
  simp only [decodeMaj0B, R_29_3, R_11_5, R_16_5, R_21_5, R_26_3, R_8_3]
  exact (cons rfl (cons rfl (cons rfl (cons rfl nil))))
theorem nop (l : BitVec 3) : Statement (.nop l) := by
  refine of32 (w := (fR 4 0 0 0 0 l 11)) (e11 rfl) (lowR ..) (fun hw => ?_) rfl
  rw [maj0B (R_2_6 ..)]
  simp only [decodeMaj0B, R_29_3, R_11_5, R_16_5, R_21_5, R_26_3, R_8_3]
  exact (cons rfl (cons rfl (cons rfl (cons rfl nil))))
theorem trap (a : BitVec 5) (l : BitVec 3) : Statement (.trap a l) := by
  refine of32 (w := (fR 5 0 0 a 0 l 11)) (e10 rfl) (lowR ..) (fun hw => ?_) rfl
  rw [maj0B (R_2_6 ..)]
  simp only [decodeMaj0B, R_29_3, R_11_5, R_21_5, R_26_3, R_16_5, R_8_3]
  exact (cons rfl (cons rfl (cons rfl nil)))
theorem brk (l : BitVec 3) : Statement (.brk l) := by
  refine of32 (w := (fR 6 0 0 0 0 l 11)) (e11 rfl) (lowR ..) (fun hw => ?_) rfl
  rw [maj0B (R_2_6 ..)]
  simp only [decodeMaj0B, R_29_3, R_11_5, R_16_5, R_21_5, R_26_3, R_8_3]
  exact (cons rfl (cons rfl (cons rfl (cons rfl nil))))
theorem ldlS8 (o : BitVec 8) (a : BitVec 5) (d : BitVec 5) (l : BitVec 3) : Statement (.ldlS8 o a d l) := by
  refine of32 (w := (fM 0 o a d l 12)) (e0 rfl) (lowM ..) (fun hw => ?_) rfl
  rw [maj0C (M_2_6 ..)]
  simp only [decodeMaj0C, M_29_3, M_21_8, M_16_5, M_11_5, M_8_3]
  exact nil
theorem ldlN8 (o : BitVec 8) (a : BitVec 5) (d : BitVec 5) (l : BitVec 3) : Statement (.ldlN8 o a d l) := by
  refine of32 (w := (fM 1 o a d l 12)) (e0 rfl) (lowM ..) (fun hw => ?_) rfl
  rw [maj0C (M_2_6 ..)]
  simp only [decodeMaj0C, M_29_3, M_21_8, M_16_5, M_11_5, M_8_3]
  exact nil
theorem ldlS16 (o : BitVec 8) (a : BitVec 5) (d : BitVec 5) (l : BitVec 3) : Statement (.ldlS16 o a d l) := by
  refine of32 (w := (fM 2 o a d l 12)) (e0 rfl) (lowM ..) (fun hw => ?_) rfl
  rw [maj0C (M_2_6 ..)]
  simp only [decodeMaj0C, M_29_3, M_21_8, M_16_5, M_11_5, M_8_3]
  exact nil
theorem ldlN16 (o : BitVec 8) (a : BitVec 5) (d : BitVec 5) (l : BitVec 3) : Statement (.ldlN16 o a d l) := by
  refine of32 (w := (fM 3 o a d l 12)) (e0 rfl) (lowM ..) (fun hw => ?_) rfl
  rw [maj0C (M_2_6 ..)]
  simp only [decodeMaj0C, M_29_3, M_21_8, M_16_5, M_11_5, M_8_3]
  exact nil
theorem ldlS32 (o : BitVec 8) (a : BitVec 5) (d : BitVec 5) (l : BitVec 3) : Statement (.ldlS32 o a d l) := by
  refine of32 (w := (fM 4 o a d l 12)) (e0 rfl) (lowM ..) (fun hw => ?_) rfl
  rw [maj0C (M_2_6 ..)]
  simp only [decodeMaj0C, M_29_3, M_21_8, M_16_5, M_11_5, M_8_3]
  exact nil
theorem ldlN32 (o : BitVec 8) (a : BitVec 5) (d : BitVec 5) (l : BitVec 3) : Statement (.ldlN32 o a d l) := by
  refine of32 (w := (fM 5 o a d l 12)) (e0 rfl) (lowM ..) (fun hw => ?_) rfl
  rw [maj0C (M_2_6 ..)]
  simp only [decodeMaj0C, M_29_3, M_21_8, M_16_5, M_11_5, M_8_3]
  exact nil
theorem ldl64 (o : BitVec 8) (a : BitVec 5) (d : BitVec 5) (l : BitVec 3) : Statement (.ldl64 o a d l) := by
  refine of32 (w := (fM 6 o a d l 12)) (e0 rfl) (lowM ..) (fun hw => ?_) rfl
  rw [maj0C (M_2_6 ..)]
  simp only [decodeMaj0C, M_29_3, M_21_8, M_16_5, M_11_5, M_8_3]
  exact nil
theorem vldl (o : BitVec 8) (a : BitVec 5) (d : BitVec 5) (l : BitVec 3) : Statement (.vldl o a d l) := by
  refine of32 (w := (fM 7 o a d l 12)) (e0 rfl) (lowM ..) (fun hw => ?_) rfl
  rw [maj0C (M_2_6 ..)]
  simp only [decodeMaj0C, M_29_3, M_21_8, M_16_5, M_11_5, M_8_3]
  exact nil
theorem stl8 (o : BitVec 8) (a : BitVec 5) (d : BitVec 5) (l : BitVec 3) : Statement (.stl8 o a d l) := by
  refine of32 (w := (fM 0 o a d l 13)) (e0 rfl) (lowM ..) (fun hw => ?_) rfl
  rw [maj0D (M_2_6 ..)]
  simp only [decodeMaj0D, M_29_3, M_21_8, M_16_5, M_11_5, M_8_3]
  exact nil
theorem stl16 (o : BitVec 8) (a : BitVec 5) (d : BitVec 5) (l : BitVec 3) : Statement (.stl16 o a d l) := by
  refine of32 (w := (fM 1 o a d l 13)) (e0 rfl) (lowM ..) (fun hw => ?_) rfl
  rw [maj0D (M_2_6 ..)]
  simp only [decodeMaj0D, M_29_3, M_21_8, M_16_5, M_11_5, M_8_3]
  exact nil
theorem stl32 (o : BitVec 8) (a : BitVec 5) (d : BitVec 5) (l : BitVec 3) : Statement (.stl32 o a d l) := by
  refine of32 (w := (fM 2 o a d l 13)) (e0 rfl) (lowM ..) (fun hw => ?_) rfl
  rw [maj0D (M_2_6 ..)]
  simp only [decodeMaj0D, M_29_3, M_21_8, M_16_5, M_11_5, M_8_3]
  exact nil
theorem stl64 (o : BitVec 8) (a : BitVec 5) (d : BitVec 5) (l : BitVec 3) : Statement (.stl64 o a d l) := by
  refine of32 (w := (fM 3 o a d l 13)) (e0 rfl) (lowM ..) (fun hw => ?_) rfl
  rw [maj0D (M_2_6 ..)]
  simp only [decodeMaj0D, M_29_3, M_21_8, M_16_5, M_11_5, M_8_3]
  exact nil
theorem vstl (o : BitVec 8) (a : BitVec 5) (d : BitVec 5) (l : BitVec 3) : Statement (.vstl o a d l) := by
  refine of32 (w := (fM 4 o a d l 13)) (e0 rfl) (lowM ..) (fun hw => ?_) rfl
  rw [maj0D (M_2_6 ..)]
  simp only [decodeMaj0D, M_29_3, M_21_8, M_16_5, M_11_5, M_8_3]
  exact nil
theorem vgatl (o : BitVec 8) (a : BitVec 5) (d : BitVec 5) (l : BitVec 3) : Statement (.vgatl o a d l) := by
  refine of32 (w := (fM 5 o a d l 13)) (e0 rfl) (lowM ..) (fun hw => ?_) rfl
  rw [maj0D (M_2_6 ..)]
  simp only [decodeMaj0D, M_29_3, M_21_8, M_16_5, M_11_5, M_8_3]
  exact nil
theorem vscatl (o : BitVec 8) (a : BitVec 5) (d : BitVec 5) (l : BitVec 3) : Statement (.vscatl o a d l) := by
  refine of32 (w := (fM 6 o a d l 13)) (e0 rfl) (lowM ..) (fun hw => ?_) rfl
  rw [maj0D (M_2_6 ..)]
  simp only [decodeMaj0D, M_29_3, M_21_8, M_16_5, M_11_5, M_8_3]
  exact nil
theorem vbcl (o : BitVec 8) (a : BitVec 5) (d : BitVec 5) (l : BitVec 3) : Statement (.vbcl o a d l) := by
  refine of32 (w := (fM 7 o a d l 13)) (e0 rfl) (lowM ..) (fun hw => ?_) rfl
  rw [maj0D (M_2_6 ..)]
  simp only [decodeMaj0D, M_29_3, M_21_8, M_16_5, M_11_5, M_8_3]
  exact nil
theorem ldg32 (o : BitVec 8) (a : BitVec 5) (d : BitVec 5) (l : BitVec 3) : Statement (.ldg32 o a d l) := by
  refine of32 (w := (fM 0 o a d l 14)) (e0 rfl) (lowM ..) (fun hw => ?_) rfl
  rw [maj0E (M_2_6 ..)]
  simp only [decodeMaj0E, M_29_3, M_21_8, M_16_5, M_11_5, M_8_3]
  exact nil
theorem ldg64 (o : BitVec 8) (a : BitVec 5) (d : BitVec 5) (l : BitVec 3) : Statement (.ldg64 o a d l) := by
  refine of32 (w := (fM 1 o a d l 14)) (e0 rfl) (lowM ..) (fun hw => ?_) rfl
  rw [maj0E (M_2_6 ..)]
  simp only [decodeMaj0E, M_29_3, M_21_8, M_16_5, M_11_5, M_8_3]
  exact nil
theorem stg32 (o : BitVec 8) (a : BitVec 5) (d : BitVec 5) (l : BitVec 3) : Statement (.stg32 o a d l) := by
  refine of32 (w := (fM 2 o a d l 14)) (e0 rfl) (lowM ..) (fun hw => ?_) rfl
  rw [maj0E (M_2_6 ..)]
  simp only [decodeMaj0E, M_29_3, M_21_8, M_16_5, M_11_5, M_8_3]
  exact nil
theorem stg64 (o : BitVec 8) (a : BitVec 5) (d : BitVec 5) (l : BitVec 3) : Statement (.stg64 o a d l) := by
  refine of32 (w := (fM 3 o a d l 14)) (e0 rfl) (lowM ..) (fun hw => ?_) rfl
  rw [maj0E (M_2_6 ..)]
  simp only [decodeMaj0E, M_29_3, M_21_8, M_16_5, M_11_5, M_8_3]
  exact nil
theorem vldg (o : BitVec 8) (a : BitVec 5) (d : BitVec 5) (l : BitVec 3) : Statement (.vldg o a d l) := by
  refine of32 (w := (fM 4 o a d l 14)) (e0 rfl) (lowM ..) (fun hw => ?_) rfl
  rw [maj0E (M_2_6 ..)]
  simp only [decodeMaj0E, M_29_3, M_21_8, M_16_5, M_11_5, M_8_3]
  exact nil
theorem vstg (o : BitVec 8) (a : BitVec 5) (d : BitVec 5) (l : BitVec 3) : Statement (.vstg o a d l) := by
  refine of32 (w := (fM 5 o a d l 14)) (e0 rfl) (lowM ..) (fun hw => ?_) rfl
  rw [maj0E (M_2_6 ..)]
  simp only [decodeMaj0E, M_29_3, M_21_8, M_16_5, M_11_5, M_8_3]
  exact nil
theorem pfg (o : BitVec 8) (a : BitVec 5) (d : Bool) (l : BitVec 3) : Statement (.pfg o a d l) := by
  cases d
  case false =>
    refine of32 (w := (fM 7 o a 0 l 14)) (e12 rfl) (lowM ..) (fun hw => ?_) rfl
    rw [maj0E (M_2_6 ..)]
    simp only [decodeMaj0E, M_29_3, M_11_5, M_21_8, M_16_5, M_8_3]
    exact (cons rfl nil)
  case true =>
    refine of32 (w := (fM 7 o a 1 l 14)) (e13 rfl) (lowM ..) (fun hw => ?_) rfl
    rw [maj0E (M_2_6 ..)]
    simp only [decodeMaj0E, M_29_3, M_11_5, M_21_8, M_16_5, M_8_3]
    exact (cons rfl nil)
theorem cwb (b : BitVec 5) (a : BitVec 5) (l : BitVec 3) : Statement (.cwb b a l) := by
  refine of32 (w := (fR 0 0 b a 0 l 15)) (e14 rfl) (lowR ..) (fun hw => ?_) rfl
  rw [maj0F (R_2_6 ..)]
  simp only [decodeMaj0F, R_29_3, R_11_5, R_26_3, R_21_5, R_16_5, R_8_3]
  exact (cons rfl (cons rfl nil))
theorem cinv (b : BitVec 5) (a : BitVec 5) (l : BitVec 3) : Statement (.cinv b a l) := by
  refine of32 (w := (fR 1 0 b a 0 l 15)) (e14 rfl) (lowR ..) (fun hw => ?_) rfl
  rw [maj0F (R_2_6 ..)]
  simp only [decodeMaj0F, R_29_3, R_11_5, R_26_3, R_21_5, R_16_5, R_8_3]
  exact (cons rfl (cons rfl nil))
theorem cwbinv (b : BitVec 5) (a : BitVec 5) (l : BitVec 3) : Statement (.cwbinv b a l) := by
  refine of32 (w := (fR 2 0 b a 0 l 15)) (e14 rfl) (lowR ..) (fun hw => ?_) rfl
  rw [maj0F (R_2_6 ..)]
  simp only [decodeMaj0F, R_29_3, R_11_5, R_26_3, R_21_5, R_16_5, R_8_3]
  exact (cons rfl (cons rfl nil))
theorem cflush (b : BitVec 5) (a : BitVec 5) (l : BitVec 3) : Statement (.cflush b a l) := by
  refine of32 (w := (fR 3 0 b a 0 l 15)) (e14 rfl) (lowR ..) (fun hw => ?_) rfl
  rw [maj0F (R_2_6 ..)]
  simp only [decodeMaj0F, R_29_3, R_11_5, R_26_3, R_21_5, R_16_5, R_8_3]
  exact (cons rfl (cons rfl nil))
theorem cways (a : BitVec 5) (d : BitVec 5) (l : BitVec 3) : Statement (.cways a d l) := by
  refine of32 (w := (fR 4 0 0 a d l 15)) (e2 rfl) (lowR ..) (fun hw => ?_) rfl
  rw [maj0F (R_2_6 ..)]
  simp only [decodeMaj0F, R_29_3, R_21_5, R_26_3, R_16_5, R_11_5, R_8_3]
  exact (cons rfl (cons rfl nil))
theorem cwayq (d : BitVec 5) (l : BitVec 3) : Statement (.cwayq d l) := by
  refine of32 (w := (fR 5 0 0 0 d l 15)) (e15 rfl) (lowR ..) (fun hw => ?_) rfl
  rw [maj0F (R_2_6 ..)]
  simp only [decodeMaj0F, R_29_3, R_16_5, R_21_5, R_26_3, R_11_5, R_8_3]
  exact (cons rfl (cons rfl (cons rfl nil)))
theorem vaddF32 (k : BitVec 3) (b : BitVec 5) (a : BitVec 5) (d : BitVec 5) (l : BitVec 3) : Statement (.vaddF32 k b a d l) := by
  refine of32 (w := (fR 0 k b a d l 16)) (e16 rfl) (lowR ..) (fun hw => ?_) rfl
  rw [maj10 (R_2_6 ..)]
  simp only [decodeMaj10, R_29_3, R_26_3, R_21_5, R_16_5, R_11_5, R_8_3]
  exact (cons (mask (hw)) nil)
theorem vsubF32 (k : BitVec 3) (b : BitVec 5) (a : BitVec 5) (d : BitVec 5) (l : BitVec 3) : Statement (.vsubF32 k b a d l) := by
  refine of32 (w := (fR 1 k b a d l 16)) (e16 rfl) (lowR ..) (fun hw => ?_) rfl
  rw [maj10 (R_2_6 ..)]
  simp only [decodeMaj10, R_29_3, R_26_3, R_21_5, R_16_5, R_11_5, R_8_3]
  exact (cons (mask (hw)) nil)
theorem vmulF32 (k : BitVec 3) (b : BitVec 5) (a : BitVec 5) (d : BitVec 5) (l : BitVec 3) : Statement (.vmulF32 k b a d l) := by
  refine of32 (w := (fR 2 k b a d l 16)) (e16 rfl) (lowR ..) (fun hw => ?_) rfl
  rw [maj10 (R_2_6 ..)]
  simp only [decodeMaj10, R_29_3, R_26_3, R_21_5, R_16_5, R_11_5, R_8_3]
  exact (cons (mask (hw)) nil)
theorem vfmaF32 (k : BitVec 3) (b : BitVec 5) (a : BitVec 5) (d : BitVec 5) (l : BitVec 3) : Statement (.vfmaF32 k b a d l) := by
  refine of32 (w := (fR 3 k b a d l 16)) (e16 rfl) (lowR ..) (fun hw => ?_) rfl
  rw [maj10 (R_2_6 ..)]
  simp only [decodeMaj10, R_29_3, R_26_3, R_21_5, R_16_5, R_11_5, R_8_3]
  exact (cons (mask (hw)) nil)
theorem vfmsF32 (k : BitVec 3) (b : BitVec 5) (a : BitVec 5) (d : BitVec 5) (l : BitVec 3) : Statement (.vfmsF32 k b a d l) := by
  refine of32 (w := (fR 4 k b a d l 16)) (e16 rfl) (lowR ..) (fun hw => ?_) rfl
  rw [maj10 (R_2_6 ..)]
  simp only [decodeMaj10, R_29_3, R_26_3, R_21_5, R_16_5, R_11_5, R_8_3]
  exact (cons (mask (hw)) nil)
theorem vminF32 (k : BitVec 3) (b : BitVec 5) (a : BitVec 5) (d : BitVec 5) (l : BitVec 3) : Statement (.vminF32 k b a d l) := by
  refine of32 (w := (fR 5 k b a d l 16)) (e16 rfl) (lowR ..) (fun hw => ?_) rfl
  rw [maj10 (R_2_6 ..)]
  simp only [decodeMaj10, R_29_3, R_26_3, R_21_5, R_16_5, R_11_5, R_8_3]
  exact (cons (mask (hw)) nil)
theorem vmaxF32 (k : BitVec 3) (b : BitVec 5) (a : BitVec 5) (d : BitVec 5) (l : BitVec 3) : Statement (.vmaxF32 k b a d l) := by
  refine of32 (w := (fR 6 k b a d l 16)) (e16 rfl) (lowR ..) (fun hw => ?_) rfl
  rw [maj10 (R_2_6 ..)]
  simp only [decodeMaj10, R_29_3, R_26_3, R_21_5, R_16_5, R_11_5, R_8_3]
  exact (cons (mask (hw)) nil)
theorem vabsF32 (k : BitVec 3) (a : BitVec 5) (d : BitVec 5) (l : BitVec 3) : Statement (.vabsF32 k a d l) := by
  refine of32 (w := (fR 7 k 0 a d l 16)) (e17 rfl) (lowR ..) (fun hw => ?_) rfl
  rw [maj10 (R_2_6 ..)]
  simp only [decodeMaj10, R_29_3, R_21_5, R_26_3, R_16_5, R_11_5, R_8_3]
  exact (cons rfl (cons (mask (hw)) nil))
theorem vaddF16 (k : BitVec 3) (b : BitVec 5) (a : BitVec 5) (d : BitVec 5) (l : BitVec 3) : Statement (.vaddF16 k b a d l) := by
  refine of32 (w := (fR 0 k b a d l 17)) (e16 rfl) (lowR ..) (fun hw => ?_) rfl
  rw [maj11 (R_2_6 ..)]
  simp only [decodeMaj11, R_29_3, R_26_3, R_21_5, R_16_5, R_11_5, R_8_3]
  exact (cons (mask (hw)) nil)
theorem vmulF16 (k : BitVec 3) (b : BitVec 5) (a : BitVec 5) (d : BitVec 5) (l : BitVec 3) : Statement (.vmulF16 k b a d l) := by
  refine of32 (w := (fR 1 k b a d l 17)) (e16 rfl) (lowR ..) (fun hw => ?_) rfl
  rw [maj11 (R_2_6 ..)]
  simp only [decodeMaj11, R_29_3, R_26_3, R_21_5, R_16_5, R_11_5, R_8_3]
  exact (cons (mask (hw)) nil)
theorem vfmaF16 (k : BitVec 3) (b : BitVec 5) (a : BitVec 5) (d : BitVec 5) (l : BitVec 3) : Statement (.vfmaF16 k b a d l) := by
  refine of32 (w := (fR 2 k b a d l 17)) (e16 rfl) (lowR ..) (fun hw => ?_) rfl
  rw [maj11 (R_2_6 ..)]
  simp only [decodeMaj11, R_29_3, R_26_3, R_21_5, R_16_5, R_11_5, R_8_3]
  exact (cons (mask (hw)) nil)
theorem vaddB16 (k : BitVec 3) (b : BitVec 5) (a : BitVec 5) (d : BitVec 5) (l : BitVec 3) : Statement (.vaddB16 k b a d l) := by
  refine of32 (w := (fR 3 k b a d l 17)) (e16 rfl) (lowR ..) (fun hw => ?_) rfl
  rw [maj11 (R_2_6 ..)]
  simp only [decodeMaj11, R_29_3, R_26_3, R_21_5, R_16_5, R_11_5, R_8_3]
  exact (cons (mask (hw)) nil)
theorem vmulB16 (k : BitVec 3) (b : BitVec 5) (a : BitVec 5) (d : BitVec 5) (l : BitVec 3) : Statement (.vmulB16 k b a d l) := by
  refine of32 (w := (fR 4 k b a d l 17)) (e16 rfl) (lowR ..) (fun hw => ?_) rfl
  rw [maj11 (R_2_6 ..)]
  simp only [decodeMaj11, R_29_3, R_26_3, R_21_5, R_16_5, R_11_5, R_8_3]
  exact (cons (mask (hw)) nil)
theorem vfmaB16 (k : BitVec 3) (b : BitVec 5) (a : BitVec 5) (d : BitVec 5) (l : BitVec 3) : Statement (.vfmaB16 k b a d l) := by
  refine of32 (w := (fR 5 k b a d l 17)) (e16 rfl) (lowR ..) (fun hw => ?_) rfl
  rw [maj11 (R_2_6 ..)]
  simp only [decodeMaj11, R_29_3, R_26_3, R_21_5, R_16_5, R_11_5, R_8_3]
  exact (cons (mask (hw)) nil)
theorem vdotF16 (k : BitVec 3) (b : BitVec 5) (a : BitVec 5) (d : BitVec 5) (l : BitVec 3) : Statement (.vdotF16 k b a d l) := by
  refine of32 (w := (fR 6 k b a d l 17)) (e16 rfl) (lowR ..) (fun hw => ?_) rfl
  rw [maj11 (R_2_6 ..)]
  simp only [decodeMaj11, R_29_3, R_26_3, R_21_5, R_16_5, R_11_5, R_8_3]
  exact (cons (mask (hw)) nil)
theorem vdotB16 (k : BitVec 3) (b : BitVec 5) (a : BitVec 5) (d : BitVec 5) (l : BitVec 3) : Statement (.vdotB16 k b a d l) := by
  refine of32 (w := (fR 7 k b a d l 17)) (e16 rfl) (lowR ..) (fun hw => ?_) rfl
  rw [maj11 (R_2_6 ..)]
  simp only [decodeMaj11, R_29_3, R_26_3, R_21_5, R_16_5, R_11_5, R_8_3]
  exact (cons (mask (hw)) nil)
theorem vaddS32 (k : BitVec 3) (b : BitVec 5) (a : BitVec 5) (d : BitVec 5) (l : BitVec 3) : Statement (.vaddS32 k b a d l) := by
  refine of32 (w := (fR 0 k b a d l 18)) (e16 rfl) (lowR ..) (fun hw => ?_) rfl
  rw [maj12 (R_2_6 ..)]
  simp only [decodeMaj12, R_29_3, R_26_3, R_21_5, R_16_5, R_11_5, R_8_3]
  exact (cons (mask (hw)) nil)
theorem vsubS32 (k : BitVec 3) (b : BitVec 5) (a : BitVec 5) (d : BitVec 5) (l : BitVec 3) : Statement (.vsubS32 k b a d l) := by
  refine of32 (w := (fR 1 k b a d l 18)) (e16 rfl) (lowR ..) (fun hw => ?_) rfl
  rw [maj12 (R_2_6 ..)]
  simp only [decodeMaj12, R_29_3, R_26_3, R_21_5, R_16_5, R_11_5, R_8_3]
  exact (cons (mask (hw)) nil)
theorem vmulS32 (k : BitVec 3) (b : BitVec 5) (a : BitVec 5) (d : BitVec 5) (l : BitVec 3) : Statement (.vmulS32 k b a d l) := by
  refine of32 (w := (fR 2 k b a d l 18)) (e16 rfl) (lowR ..) (fun hw => ?_) rfl
  rw [maj12 (R_2_6 ..)]
  simp only [decodeMaj12, R_29_3, R_26_3, R_21_5, R_16_5, R_11_5, R_8_3]
  exact (cons (mask (hw)) nil)
theorem vmaddS32 (k : BitVec 3) (b : BitVec 5) (a : BitVec 5) (d : BitVec 5) (l : BitVec 3) : Statement (.vmaddS32 k b a d l) := by
  refine of32 (w := (fR 3 k b a d l 18)) (e16 rfl) (lowR ..) (fun hw => ?_) rfl
  rw [maj12 (R_2_6 ..)]
  simp only [decodeMaj12, R_29_3, R_26_3, R_21_5, R_16_5, R_11_5, R_8_3]
  exact (cons (mask (hw)) nil)
theorem vminS32 (k : BitVec 3) (b : BitVec 5) (a : BitVec 5) (d : BitVec 5) (l : BitVec 3) : Statement (.vminS32 k b a d l) := by
  refine of32 (w := (fR 4 k b a d l 18)) (e16 rfl) (lowR ..) (fun hw => ?_) rfl
  rw [maj12 (R_2_6 ..)]
  simp only [decodeMaj12, R_29_3, R_26_3, R_21_5, R_16_5, R_11_5, R_8_3]
  exact (cons (mask (hw)) nil)
theorem vmaxS32 (k : BitVec 3) (b : BitVec 5) (a : BitVec 5) (d : BitVec 5) (l : BitVec 3) : Statement (.vmaxS32 k b a d l) := by
  refine of32 (w := (fR 5 k b a d l 18)) (e16 rfl) (lowR ..) (fun hw => ?_) rfl
  rw [maj12 (R_2_6 ..)]
  simp only [decodeMaj12, R_29_3, R_26_3, R_21_5, R_16_5, R_11_5, R_8_3]
  exact (cons (mask (hw)) nil)
theorem vdotbS8 (k : BitVec 3) (b : BitVec 5) (a : BitVec 5) (d : BitVec 5) (l : BitVec 3) : Statement (.vdotbS8 k b a d l) := by
  refine of32 (w := (fR 6 k b a d l 18)) (e16 rfl) (lowR ..) (fun hw => ?_) rfl
  rw [maj12 (R_2_6 ..)]
  simp only [decodeMaj12, R_29_3, R_26_3, R_21_5, R_16_5, R_11_5, R_8_3]
  exact (cons (mask (hw)) nil)
theorem vdotqQ4x (k : BitVec 3) (b : BitVec 5) (a : BitVec 5) (d : BitVec 5) (l : BitVec 3) : Statement (.vdotqQ4x k b a d l) := by
  refine of32 (w := (fR 7 k b a d l 18)) (e16 rfl) (lowR ..) (fun hw => ?_) rfl
  rw [maj12 (R_2_6 ..)]
  simp only [decodeMaj12, R_29_3, R_26_3, R_21_5, R_16_5, R_11_5, R_8_3]
  exact (cons (mask (hw)) nil)
theorem vand (k : BitVec 3) (b : BitVec 5) (a : BitVec 5) (d : BitVec 5) (l : BitVec 3) : Statement (.vand k b a d l) := by
  refine of32 (w := (fR 0 k b a d l 19)) (e16 rfl) (lowR ..) (fun hw => ?_) rfl
  rw [maj13 (R_2_6 ..)]
  simp only [decodeMaj13, R_29_3, R_26_3, R_21_5, R_16_5, R_11_5, R_8_3]
  exact (cons (mask (hw)) nil)
theorem vor (k : BitVec 3) (b : BitVec 5) (a : BitVec 5) (d : BitVec 5) (l : BitVec 3) : Statement (.vor k b a d l) := by
  refine of32 (w := (fR 1 k b a d l 19)) (e16 rfl) (lowR ..) (fun hw => ?_) rfl
  rw [maj13 (R_2_6 ..)]
  simp only [decodeMaj13, R_29_3, R_26_3, R_21_5, R_16_5, R_11_5, R_8_3]
  exact (cons (mask (hw)) nil)
theorem vxor (k : BitVec 3) (b : BitVec 5) (a : BitVec 5) (d : BitVec 5) (l : BitVec 3) : Statement (.vxor k b a d l) := by
  refine of32 (w := (fR 2 k b a d l 19)) (e16 rfl) (lowR ..) (fun hw => ?_) rfl
  rw [maj13 (R_2_6 ..)]
  simp only [decodeMaj13, R_29_3, R_26_3, R_21_5, R_16_5, R_11_5, R_8_3]
  exact (cons (mask (hw)) nil)
theorem vsll (k : BitVec 3) (b : BitVec 5) (a : BitVec 5) (d : BitVec 5) (l : BitVec 3) : Statement (.vsll k b a d l) := by
  refine of32 (w := (fR 3 k b a d l 19)) (e16 rfl) (lowR ..) (fun hw => ?_) rfl
  rw [maj13 (R_2_6 ..)]
  simp only [decodeMaj13, R_29_3, R_26_3, R_21_5, R_16_5, R_11_5, R_8_3]
  exact (cons (mask (hw)) nil)
theorem vsrl (k : BitVec 3) (b : BitVec 5) (a : BitVec 5) (d : BitVec 5) (l : BitVec 3) : Statement (.vsrl k b a d l) := by
  refine of32 (w := (fR 4 k b a d l 19)) (e16 rfl) (lowR ..) (fun hw => ?_) rfl
  rw [maj13 (R_2_6 ..)]
  simp only [decodeMaj13, R_29_3, R_26_3, R_21_5, R_16_5, R_11_5, R_8_3]
  exact (cons (mask (hw)) nil)
theorem vsra (k : BitVec 3) (b : BitVec 5) (a : BitVec 5) (d : BitVec 5) (l : BitVec 3) : Statement (.vsra k b a d l) := by
  refine of32 (w := (fR 5 k b a d l 19)) (e16 rfl) (lowR ..) (fun hw => ?_) rfl
  rw [maj13 (R_2_6 ..)]
  simp only [decodeMaj13, R_29_3, R_26_3, R_21_5, R_16_5, R_11_5, R_8_3]
  exact (cons (mask (hw)) nil)
theorem vsel (k : BitVec 2) (b : BitVec 5) (a : BitVec 5) (d : BitVec 5) (l : BitVec 3) : Statement (.vsel k b a d l) := by
  refine of32 (w := (fR 6 (k.setWidth 3) b a d l 19)) (e18 rfl) (lowR ..) (fun hw => ?_) rfl
  rw [maj13 (R_2_6 ..)]
  simp only [decodeMaj13, R_29_3, R_26_3, R_26_2, R_21_5, R_16_5, R_11_5, R_8_3, n2_3_0_2]
  exact (cons (mask2 _) nil)
theorem vmov (k : BitVec 3) (a : BitVec 5) (d : BitVec 5) (l : BitVec 3) : Statement (.vmov k a d l) := by
  refine of32 (w := (fR 7 k 0 a d l 19)) (e17 rfl) (lowR ..) (fun hw => ?_) rfl
  rw [maj13 (R_2_6 ..)]
  simp only [decodeMaj13, R_29_3, R_21_5, R_26_3, R_16_5, R_11_5, R_8_3]
  exact (cons rfl (cons (mask (hw)) nil))
theorem vceqF32 (k : BitVec 3) (b : BitVec 5) (a : BitVec 5) (d : BitVec 3) (l : BitVec 3) : Statement (.vceqF32 k b a d l) := by
  refine of32 (w := (fR 0 k b a (d.setWidth 5) l 20)) (e19 rfl) (lowR ..) (fun hw => ?_) rfl
  rw [maj14 (R_2_6 ..)]
  simp only [decodeMaj14, R_29_3, R_11_5, R_26_3, R_21_5, R_16_5, R_11_3, R_8_3, n3_5_0_3]
  exact (cons (kreg3 _) (cons (mask (and1 hw)) (cons (notK (and2 hw)) nil)))
theorem vcltF32 (k : BitVec 3) (b : BitVec 5) (a : BitVec 5) (d : BitVec 3) (l : BitVec 3) : Statement (.vcltF32 k b a d l) := by
  refine of32 (w := (fR 1 k b a (d.setWidth 5) l 20)) (e19 rfl) (lowR ..) (fun hw => ?_) rfl
  rw [maj14 (R_2_6 ..)]
  simp only [decodeMaj14, R_29_3, R_11_5, R_26_3, R_21_5, R_16_5, R_11_3, R_8_3, n3_5_0_3]
  exact (cons (kreg3 _) (cons (mask (and1 hw)) (cons (notK (and2 hw)) nil)))
theorem vcleF32 (k : BitVec 3) (b : BitVec 5) (a : BitVec 5) (d : BitVec 3) (l : BitVec 3) : Statement (.vcleF32 k b a d l) := by
  refine of32 (w := (fR 2 k b a (d.setWidth 5) l 20)) (e19 rfl) (lowR ..) (fun hw => ?_) rfl
  rw [maj14 (R_2_6 ..)]
  simp only [decodeMaj14, R_29_3, R_11_5, R_26_3, R_21_5, R_16_5, R_11_3, R_8_3, n3_5_0_3]
  exact (cons (kreg3 _) (cons (mask (and1 hw)) (cons (notK (and2 hw)) nil)))
theorem vcunF32 (k : BitVec 3) (b : BitVec 5) (a : BitVec 5) (d : BitVec 3) (l : BitVec 3) : Statement (.vcunF32 k b a d l) := by
  refine of32 (w := (fR 3 k b a (d.setWidth 5) l 20)) (e19 rfl) (lowR ..) (fun hw => ?_) rfl
  rw [maj14 (R_2_6 ..)]
  simp only [decodeMaj14, R_29_3, R_11_5, R_26_3, R_21_5, R_16_5, R_11_3, R_8_3, n3_5_0_3]
  exact (cons (kreg3 _) (cons (mask (and1 hw)) (cons (notK (and2 hw)) nil)))
theorem vceqS32 (k : BitVec 3) (b : BitVec 5) (a : BitVec 5) (d : BitVec 3) (l : BitVec 3) : Statement (.vceqS32 k b a d l) := by
  refine of32 (w := (fR 4 k b a (d.setWidth 5) l 20)) (e19 rfl) (lowR ..) (fun hw => ?_) rfl
  rw [maj14 (R_2_6 ..)]
  simp only [decodeMaj14, R_29_3, R_11_5, R_26_3, R_21_5, R_16_5, R_11_3, R_8_3, n3_5_0_3]
  exact (cons (kreg3 _) (cons (mask (and1 hw)) (cons (notK (and2 hw)) nil)))
theorem vcltS32 (k : BitVec 3) (b : BitVec 5) (a : BitVec 5) (d : BitVec 3) (l : BitVec 3) : Statement (.vcltS32 k b a d l) := by
  refine of32 (w := (fR 5 k b a (d.setWidth 5) l 20)) (e19 rfl) (lowR ..) (fun hw => ?_) rfl
  rw [maj14 (R_2_6 ..)]
  simp only [decodeMaj14, R_29_3, R_11_5, R_26_3, R_21_5, R_16_5, R_11_3, R_8_3, n3_5_0_3]
  exact (cons (kreg3 _) (cons (mask (and1 hw)) (cons (notK (and2 hw)) nil)))
theorem vcltN32 (k : BitVec 3) (b : BitVec 5) (a : BitVec 5) (d : BitVec 3) (l : BitVec 3) : Statement (.vcltN32 k b a d l) := by
  refine of32 (w := (fR 6 k b a (d.setWidth 5) l 20)) (e19 rfl) (lowR ..) (fun hw => ?_) rfl
  rw [maj14 (R_2_6 ..)]
  simp only [decodeMaj14, R_29_3, R_11_5, R_26_3, R_21_5, R_16_5, R_11_3, R_8_3, n3_5_0_3]
  exact (cons (kreg3 _) (cons (mask (and1 hw)) (cons (notK (and2 hw)) nil)))
theorem vcnz (k : BitVec 3) (a : BitVec 5) (d : BitVec 3) (l : BitVec 3) : Statement (.vcnz k a d l) := by
  refine of32 (w := (fR 7 k 0 a (d.setWidth 5) l 20)) (e20 rfl) (lowR ..) (fun hw => ?_) rfl
  rw [maj14 (R_2_6 ..)]
  simp only [decodeMaj14, R_29_3, R_11_5, R_21_5, R_26_3, R_16_5, R_11_3, R_8_3, n3_5_0_3]
  exact (cons (kreg3 _) (cons rfl (cons (mask (and1 hw)) (cons (notK (and2 hw)) nil))))
theorem vcvtF32S32 (k : BitVec 3) (a : BitVec 5) (d : BitVec 5) (l : BitVec 3) : Statement (.vcvtF32S32 k a d l) := by
  refine of32 (w := (fR 0 k 0 a d l 21)) (e17 rfl) (lowR ..) (fun hw => ?_) rfl
  rw [maj15 (R_2_6 ..)]
  simp only [decodeMaj15, R_29_3, R_21_5, R_26_3, R_16_5, R_11_5, R_8_3]
  exact (cons rfl (cons (mask (hw)) nil))
theorem vcvtS32F32 (k : BitVec 3) (a : BitVec 5) (d : BitVec 5) (l : BitVec 3) : Statement (.vcvtS32F32 k a d l) := by
  refine of32 (w := (fR 1 k 0 a d l 21)) (e17 rfl) (lowR ..) (fun hw => ?_) rfl
  rw [maj15 (R_2_6 ..)]
  simp only [decodeMaj15, R_29_3, R_21_5, R_26_3, R_16_5, R_11_5, R_8_3]
  exact (cons rfl (cons (mask (hw)) nil))
theorem vcvtF16F32 (k : BitVec 3) (b : BitVec 5) (a : BitVec 5) (d : BitVec 5) (l : BitVec 3) : Statement (.vcvtF16F32 k b a d l) := by
  refine of32 (w := (fR 2 k b a d l 21)) (e16 rfl) (lowR ..) (fun hw => ?_) rfl
  rw [maj15 (R_2_6 ..)]
  simp only [decodeMaj15, R_29_3, R_26_3, R_21_5, R_16_5, R_11_5, R_8_3]
  exact (cons (mask (hw)) nil)
theorem vcvtF32F16 (k : BitVec 3) (a : BitVec 5) (d : BitVec 5) (l : BitVec 3) : Statement (.vcvtF32F16 k a d l) := by
  refine of32 (w := (fR 3 k 0 a d l 21)) (e17 rfl) (lowR ..) (fun hw => ?_) rfl
  rw [maj15 (R_2_6 ..)]
  simp only [decodeMaj15, R_29_3, R_21_5, R_26_3, R_16_5, R_11_5, R_8_3]
  exact (cons rfl (cons (mask (hw)) nil))
theorem vcvtB16F32 (k : BitVec 3) (b : BitVec 5) (a : BitVec 5) (d : BitVec 5) (l : BitVec 3) : Statement (.vcvtB16F32 k b a d l) := by
  refine of32 (w := (fR 4 k b a d l 21)) (e16 rfl) (lowR ..) (fun hw => ?_) rfl
  rw [maj15 (R_2_6 ..)]
  simp only [decodeMaj15, R_29_3, R_26_3, R_21_5, R_16_5, R_11_5, R_8_3]
  exact (cons (mask (hw)) nil)
theorem vcvtF32B16 (k : BitVec 3) (a : BitVec 5) (d : BitVec 5) (l : BitVec 3) : Statement (.vcvtF32B16 k a d l) := by
  refine of32 (w := (fR 5 k 0 a d l 21)) (e17 rfl) (lowR ..) (fun hw => ?_) rfl
  rw [maj15 (R_2_6 ..)]
  simp only [decodeMaj15, R_29_3, R_21_5, R_26_3, R_16_5, R_11_5, R_8_3]
  exact (cons rfl (cons (mask (hw)) nil))
theorem vcvtE4F32 (k : BitVec 3) (a : BitVec 5) (d : BitVec 5) (l : BitVec 3) : Statement (.vcvtE4F32 k a d l) := by
  refine of32 (w := (fR 6 k 0 a d l 21)) (e17 rfl) (lowR ..) (fun hw => ?_) rfl
  rw [maj15 (R_2_6 ..)]
  simp only [decodeMaj15, R_29_3, R_21_5, R_26_3, R_16_5, R_11_5, R_8_3]
  exact (cons rfl (cons (mask (hw)) nil))
theorem vcvtF32E4 (k : BitVec 3) (a : BitVec 5) (d : BitVec 5) (l : BitVec 3) : Statement (.vcvtF32E4 k a d l) := by
  refine of32 (w := (fR 7 k 0 a d l 21)) (e17 rfl) (lowR ..) (fun hw => ?_) rfl
  rw [maj15 (R_2_6 ..)]
  simp only [decodeMaj15, R_29_3, R_21_5, R_26_3, R_16_5, R_11_5, R_8_3]
  exact (cons rfl (cons (mask (hw)) nil))
theorem vperm (k : BitVec 3) (b : BitVec 5) (a : BitVec 5) (d : BitVec 5) (l : BitVec 3) : Statement (.vperm k b a d l) := by
  refine of32 (w := (fR 0 k b a d l 22)) (e16 rfl) (lowR ..) (fun hw => ?_) rfl
  rw [maj16 (R_2_6 ..)]
  simp only [decodeMaj16, R_29_3, R_26_3, R_21_5, R_16_5, R_11_5, R_8_3]
  exact (cons (mask (hw)) nil)
theorem vbcst (k : BitVec 3) (a : BitVec 5) (d : BitVec 5) (l : BitVec 3) : Statement (.vbcst k a d l) := by
  refine of32 (w := (fR 1 k 0 a d l 22)) (e17 rfl) (lowR ..) (fun hw => ?_) rfl
  rw [maj16 (R_2_6 ..)]
  simp only [decodeMaj16, R_29_3, R_21_5, R_26_3, R_16_5, R_11_5, R_8_3]
  exact (cons rfl (cons (mask (hw)) nil))
theorem vext (b : BitVec 5) (a : BitVec 5) (d : BitVec 5) (l : BitVec 3) : Statement (.vext b a d l) := by
  refine of32 (w := (fR 2 0 b a d l 22)) (e1 rfl) (lowR ..) (fun hw => ?_) rfl
  rw [maj16 (R_2_6 ..)]
  simp only [decodeMaj16, R_29_3, R_26_3, R_21_5, R_16_5, R_11_5, R_8_3]
  exact (cons rfl nil)
theorem vins (b : BitVec 5) (a : BitVec 5) (d : BitVec 5) (l : BitVec 3) : Statement (.vins b a d l) := by
  refine of32 (w := (fR 3 0 b a d l 22)) (e1 rfl) (lowR ..) (fun hw => ?_) rfl
  rw [maj16 (R_2_6 ..)]
  simp only [decodeMaj16, R_29_3, R_26_3, R_21_5, R_16_5, R_11_5, R_8_3]
  exact (cons rfl nil)
theorem vcomp (k : BitVec 3) (a : BitVec 5) (d : BitVec 5) (l : BitVec 3) : Statement (.vcomp k a d l) := by
  refine of32 (w := (fR 4 k 0 a d l 22)) (e17 rfl) (lowR ..) (fun hw => ?_) rfl
  rw [maj16 (R_2_6 ..)]
  simp only [decodeMaj16, R_29_3, R_21_5, R_26_3, R_16_5, R_11_5, R_8_3]
  exact (cons rfl (cons (mask (hw)) nil))
theorem vnzscan (k : BitVec 2) (b : BitVec 5) (a : BitVec 5) (d : BitVec 5) (l : BitVec 3) : Statement (.vnzscan k b a d l) := by
  refine of32 (w := (fR 5 (k.setWidth 3) b a d l 22)) (e18 rfl) (lowR ..) (fun hw => ?_) rfl
  rw [maj16 (R_2_6 ..)]
  simp only [decodeMaj16, R_29_3, R_26_3, R_26_2, R_21_5, R_16_5, R_11_5, R_8_3, n2_3_0_2]
  exact (cons (mask2 _) nil)
theorem viota (k : BitVec 3) (a : BitVec 5) (d : BitVec 5) (l : BitVec 3) : Statement (.viota k a d l) := by
  refine of32 (w := (fR 6 k 0 a d l 22)) (e17 rfl) (lowR ..) (fun hw => ?_) rfl
  rw [maj16 (R_2_6 ..)]
  simp only [decodeMaj16, R_29_3, R_21_5, R_26_3, R_16_5, R_11_5, R_8_3]
  exact (cons rfl (cons (mask (hw)) nil))
theorem vunpq (k : BitVec 3) (b : BitVec 5) (a : BitVec 5) (d : BitVec 5) (l : BitVec 3) : Statement (.vunpq k b a d l) := by
  refine of32 (w := (fR 7 k b a d l 22)) (e16 rfl) (lowR ..) (fun hw => ?_) rfl
  rw [maj16 (R_2_6 ..)]
  simp only [decodeMaj16, R_29_3, R_26_3, R_21_5, R_16_5, R_11_5, R_8_3]
  exact (cons (mask (hw)) nil)
theorem vrsumF32 (k : BitVec 2) (a : BitVec 5) (d : BitVec 5) (l : BitVec 3) : Statement (.vrsumF32 k a d l) := by
  refine of32 (w := (fR 0 (k.setWidth 3) 0 a d l 23)) (e21 rfl) (lowR ..) (fun hw => ?_) rfl
  rw [maj17 (R_2_6 ..)]
  simp only [decodeMaj17, R_29_3, R_21_5, R_26_3, R_26_2, R_16_5, R_11_5, R_8_3, n2_3_0_2]
  exact (cons rfl (cons (mask2 _) nil))
theorem vrmaxF32 (k : BitVec 2) (a : BitVec 5) (d : BitVec 5) (l : BitVec 3) : Statement (.vrmaxF32 k a d l) := by
  refine of32 (w := (fR 1 (k.setWidth 3) 0 a d l 23)) (e21 rfl) (lowR ..) (fun hw => ?_) rfl
  rw [maj17 (R_2_6 ..)]
  simp only [decodeMaj17, R_29_3, R_21_5, R_26_3, R_26_2, R_16_5, R_11_5, R_8_3, n2_3_0_2]
  exact (cons rfl (cons (mask2 _) nil))
theorem vrsumS32 (k : BitVec 2) (a : BitVec 5) (d : BitVec 5) (l : BitVec 3) : Statement (.vrsumS32 k a d l) := by
  refine of32 (w := (fR 2 (k.setWidth 3) 0 a d l 23)) (e21 rfl) (lowR ..) (fun hw => ?_) rfl
  rw [maj17 (R_2_6 ..)]
  simp only [decodeMaj17, R_29_3, R_21_5, R_26_3, R_26_2, R_16_5, R_11_5, R_8_3, n2_3_0_2]
  exact (cons rfl (cons (mask2 _) nil))
theorem vexp2F32 (k : BitVec 3) (a : BitVec 5) (d : BitVec 5) (l : BitVec 3) : Statement (.vexp2F32 k a d l) := by
  refine of32 (w := (fR 3 k 0 a d l 23)) (e17 rfl) (lowR ..) (fun hw => ?_) rfl
  rw [maj17 (R_2_6 ..)]
  simp only [decodeMaj17, R_29_3, R_21_5, R_26_3, R_16_5, R_11_5, R_8_3]
  exact (cons rfl (cons (mask (hw)) nil))
theorem vlog2F32 (k : BitVec 3) (a : BitVec 5) (d : BitVec 5) (l : BitVec 3) : Statement (.vlog2F32 k a d l) := by
  refine of32 (w := (fR 4 k 0 a d l 23)) (e17 rfl) (lowR ..) (fun hw => ?_) rfl
  rw [maj17 (R_2_6 ..)]
  simp only [decodeMaj17, R_29_3, R_21_5, R_26_3, R_16_5, R_11_5, R_8_3]
  exact (cons rfl (cons (mask (hw)) nil))
theorem vrcpF32 (k : BitVec 3) (a : BitVec 5) (d : BitVec 5) (l : BitVec 3) : Statement (.vrcpF32 k a d l) := by
  refine of32 (w := (fR 5 k 0 a d l 23)) (e17 rfl) (lowR ..) (fun hw => ?_) rfl
  rw [maj17 (R_2_6 ..)]
  simp only [decodeMaj17, R_29_3, R_21_5, R_26_3, R_16_5, R_11_5, R_8_3]
  exact (cons rfl (cons (mask (hw)) nil))
theorem vrsqrtF32 (k : BitVec 3) (a : BitVec 5) (d : BitVec 5) (l : BitVec 3) : Statement (.vrsqrtF32 k a d l) := by
  refine of32 (w := (fR 6 k 0 a d l 23)) (e17 rfl) (lowR ..) (fun hw => ?_) rfl
  rw [maj17 (R_2_6 ..)]
  simp only [decodeMaj17, R_29_3, R_21_5, R_26_3, R_16_5, R_11_5, R_8_3]
  exact (cons rfl (cons (mask (hw)) nil))
theorem vdivF32 (k : BitVec 3) (b : BitVec 5) (a : BitVec 5) (d : BitVec 5) (l : BitVec 3) : Statement (.vdivF32 k b a d l) := by
  refine of32 (w := (fR 7 k b a d l 23)) (e16 rfl) (lowR ..) (fun hw => ?_) rfl
  rw [maj17 (R_2_6 ..)]
  simp only [decodeMaj17, R_29_3, R_26_3, R_21_5, R_16_5, R_11_5, R_8_3]
  exact (cons (mask (hw)) nil)
theorem vrng (k : BitVec 3) (a : BitVec 5) (d : BitVec 5) (l : BitVec 3) : Statement (.vrng k a d l) := by
  refine of32 (w := (fR 0 k 0 a d l 24)) (e17 rfl) (lowR ..) (fun hw => ?_) rfl
  rw [maj18 (R_2_6 ..)]
  simp only [decodeMaj18, R_29_3, R_21_5, R_26_3, R_16_5, R_11_5, R_8_3]
  exact (cons rfl (cons (mask (hw)) nil))
theorem vrngf (k : BitVec 3) (a : BitVec 5) (d : BitVec 5) (l : BitVec 3) : Statement (.vrngf k a d l) := by
  refine of32 (w := (fR 1 k 0 a d l 24)) (e17 rfl) (lowR ..) (fun hw => ?_) rfl
  rw [maj18 (R_2_6 ..)]
  simp only [decodeMaj18, R_29_3, R_21_5, R_26_3, R_16_5, R_11_5, R_8_3]
  exact (cons rfl (cons (mask (hw)) nil))
theorem kand (b : BitVec 3) (a : BitVec 3) (d : BitVec 3) (l : BitVec 3) : Statement (.kand b a d l) := by
  refine of32 (w := (fR 2 0 (b.setWidth 5) (a.setWidth 5) (d.setWidth 5) l 24)) (e22 rfl) (lowR ..) (fun hw => ?_) rfl
  rw [maj18 (R_2_6 ..)]
  simp only [decodeMaj18, R_29_3, R_21_5, R_11_5, R_16_5, R_26_3, R_21_3, R_16_3, R_11_3, R_8_3, n3_5_0_3]
  exact (cons (kreg3 _) (cons (kreg3 _) (cons (kreg3 _) (cons rfl (cons (notK (hw)) nil)))))
theorem kor (b : BitVec 3) (a : BitVec 3) (d : BitVec 3) (l : BitVec 3) : Statement (.kor b a d l) := by
  refine of32 (w := (fR 3 0 (b.setWidth 5) (a.setWidth 5) (d.setWidth 5) l 24)) (e22 rfl) (lowR ..) (fun hw => ?_) rfl
  rw [maj18 (R_2_6 ..)]
  simp only [decodeMaj18, R_29_3, R_21_5, R_11_5, R_16_5, R_26_3, R_21_3, R_16_3, R_11_3, R_8_3, n3_5_0_3]
  exact (cons (kreg3 _) (cons (kreg3 _) (cons (kreg3 _) (cons rfl (cons (notK (hw)) nil)))))
theorem kxor (b : BitVec 3) (a : BitVec 3) (d : BitVec 3) (l : BitVec 3) : Statement (.kxor b a d l) := by
  refine of32 (w := (fR 4 0 (b.setWidth 5) (a.setWidth 5) (d.setWidth 5) l 24)) (e22 rfl) (lowR ..) (fun hw => ?_) rfl
  rw [maj18 (R_2_6 ..)]
  simp only [decodeMaj18, R_29_3, R_21_5, R_11_5, R_16_5, R_26_3, R_21_3, R_16_3, R_11_3, R_8_3, n3_5_0_3]
  exact (cons (kreg3 _) (cons (kreg3 _) (cons (kreg3 _) (cons rfl (cons (notK (hw)) nil)))))
theorem knot (a : BitVec 3) (d : BitVec 3) (l : BitVec 3) : Statement (.knot a d l) := by
  refine of32 (w := (fR 5 0 0 (a.setWidth 5) (d.setWidth 5) l 24)) (e23 rfl) (lowR ..) (fun hw => ?_) rfl
  rw [maj18 (R_2_6 ..)]
  simp only [decodeMaj18, R_29_3, R_21_5, R_11_5, R_16_5, R_26_3, R_16_3, R_11_3, R_8_3, n3_5_0_3]
  exact (cons (kreg3 _) (cons (kreg3 _) (cons rfl (cons rfl (cons (notK (hw)) nil)))))
theorem kpop (a : BitVec 3) (d : BitVec 5) (l : BitVec 3) : Statement (.kpop a d l) := by
  refine of32 (w := (fR 6 0 0 (a.setWidth 5) d l 24)) (e24 rfl) (lowR ..) (fun hw => ?_) rfl
  rw [maj18 (R_2_6 ..)]
  simp only [decodeMaj18, R_29_3, R_21_5, R_16_5, R_26_3, R_16_3, R_11_5, R_8_3, n3_5_0_3]
  exact (cons (kreg3 _) (cons rfl (cons rfl nil)))
theorem kmovKk (a : BitVec 3) (d : BitVec 3) (l : BitVec 3) : Statement (.kmovKk a d l) := by
  refine of32 (w := (fR 7 0 0 (a.setWidth 5) (d.setWidth 5) l 24)) (e23 rfl) (lowR ..) (fun hw => ?_) rfl
  rw [maj18 (R_2_6 ..)]
  simp only [decodeMaj18, R_29_3, R_21_5, R_11_5, R_16_5, R_26_3, R_16_3, R_11_3, R_8_3, n3_5_0_3]
  exact (cons (kreg3 _) (cons (kreg3 _) (cons rfl (cons (notK (hw)) nil))))
theorem kmovGk (a : BitVec 5) (d : BitVec 3) (l : BitVec 3) : Statement (.kmovGk a d l) := by
  refine of32 (w := (fR 7 0 1 a (d.setWidth 5) l 24)) (e25 rfl) (lowR ..) (fun hw => ?_) rfl
  rw [maj18 (R_2_6 ..)]
  simp only [decodeMaj18, R_29_3, R_21_5, R_11_5, R_26_3, R_16_5, R_11_3, R_8_3, n3_5_0_3]
  exact (cons (kreg3 _) (cons rfl (cons (notK (hw)) nil)))
theorem kmovKg (a : BitVec 3) (d : BitVec 5) (l : BitVec 3) : Statement (.kmovKg a d l) := by
  refine of32 (w := (fR 7 0 2 (a.setWidth 5) d l 24)) (e24 rfl) (lowR ..) (fun hw => ?_) rfl
  rw [maj18 (R_2_6 ..)]
  simp only [decodeMaj18, R_29_3, R_21_5, R_16_5, R_26_3, R_16_3, R_11_5, R_8_3, n3_5_0_3]
  exact (cons (kreg3 _) (cons rfl nil))
theorem sopen (i : Dir) (a : BitVec 5) (s : BitVec 4) (l : BitVec 3) : Statement (.sopen i a s l) := by
  refine of32 (w := (fR 0 i.code 0 a (s.setWidth 5) l 25)) (e26 rfl) (lowR ..) (fun hw => ?_) rfl
  rw [maj19 (R_2_6 ..)]
  simp only [decodeMaj19, R_29_3, R_15_1, R_26_3, R_21_5, R_16_5, R_11_4, R_8_3, n4_5_4_1, n4_5_0_4]
  exact dir (cons rfl (cons rfl nil))
theorem sdim (i : BitVec 2) (b : BitVec 5) (a : BitVec 5) (s : BitVec 4) (l : BitVec 3) : Statement (.sdim i b a s l) := by
  refine of32 (w := (fR 1 (i.setWidth 3) b a (s.setWidth 5) l 25)) (e27 rfl) (lowR ..) (fun hw => ?_) rfl
  rw [maj19 (R_2_6 ..)]
  simp only [decodeMaj19, R_29_3, R_15_1, R_26_3, R_26_2, R_21_5, R_16_5, R_11_4, R_8_3, n2_3_0_2, n4_5_4_1, n4_5_0_4]
  exact (cons rfl (cons (rule2 _) nil))
theorem sbase (a : BitVec 5) (s : BitVec 4) (l : BitVec 3) : Statement (.sbase a s l) := by
  refine of32 (w := (fR 2 0 0 a (s.setWidth 5) l 25)) (e28 rfl) (lowR ..) (fun hw => ?_) rfl
  rw [maj19 (R_2_6 ..)]
  simp only [decodeMaj19, R_29_3, R_15_1, R_21_5, R_26_3, R_16_5, R_11_4, R_8_3, n4_5_4_1, n4_5_0_4]
  exact (cons rfl (cons rfl (cons rfl nil)))
theorem sidx (b : BitVec 5) (a : BitVec 4) (s : BitVec 4) (l : BitVec 3) : Statement (.sidx b a s l) := by
  refine of32 (w := (fR 3 0 b (a.setWidth 5) (s.setWidth 5) l 25)) (e29 rfl) (lowR ..) (fun hw => ?_) rfl
  rw [maj19 (R_2_6 ..)]
  simp only [decodeMaj19, R_29_3, R_15_1, R_20_1, R_16_5, R_26_3, R_21_5, R_16_4, R_11_4, R_8_3, n4_5_4_1, n4_5_0_4]
  exact (cons rfl (cons rfl (cons rfl nil)))
theorem sattNone (s : BitVec 4) (l : BitVec 3) : Statement (.sattNone s l) := by
  refine of32 (w := (fR 4 0 0 0 (s.setWidth 5) l 25)) (e30 rfl) (lowR ..) (fun hw => ?_) rfl
  rw [maj19 (R_2_6 ..)]
  simp only [decodeMaj19, R_29_3, R_15_1, R_26_3, R_16_5, R_21_5, R_11_4, R_8_3, n4_5_4_1, n4_5_0_4]
  exact (cons rfl (cons rfl nil))
theorem sattScale (a : BitVec 5) (s : BitVec 4) (l : BitVec 3) : Statement (.sattScale a s l) := by
  refine of32 (w := (fR 4 1 0 a (s.setWidth 5) l 25)) (e28 rfl) (lowR ..) (fun hw => ?_) rfl
  rw [maj19 (R_2_6 ..)]
  simp only [decodeMaj19, R_29_3, R_15_1, R_26_3, R_21_5, R_16_5, R_11_4, R_8_3, n4_5_4_1, n4_5_0_4]
  exact (cons rfl nil)
theorem sattAdds (a : BitVec 5) (s : BitVec 4) (l : BitVec 3) : Statement (.sattAdds a s l) := by
  refine of32 (w := (fR 4 2 0 a (s.setWidth 5) l 25)) (e28 rfl) (lowR ..) (fun hw => ?_) rfl
  rw [maj19 (R_2_6 ..)]
  simp only [decodeMaj19, R_29_3, R_15_1, R_26_3, R_21_5, R_16_5, R_11_4, R_8_3, n4_5_4_1, n4_5_0_4]
  exact (cons rfl nil)
theorem sattFmas (b : BitVec 5) (a : BitVec 5) (s : BitVec 4) (l : BitVec 3) : Statement (.sattFmas b a s l) := by
  refine of32 (w := (fR 4 3 b a (s.setWidth 5) l 25)) (e31 rfl) (lowR ..) (fun hw => ?_) rfl
  rw [maj19 (R_2_6 ..)]
  simp only [decodeMaj19, R_29_3, R_15_1, R_26_3, R_21_5, R_16_5, R_11_4, R_8_3, n4_5_4_1, n4_5_0_4]
  exact nil
theorem sattCvt (a : Fmt) (s : BitVec 4) (l : BitVec 3) : Statement (.sattCvt a s l) := by
  refine of32 (w := (fR 4 4 0 (a.code.setWidth 5) (s.setWidth 5) l 25)) (e32 rfl) (lowR ..) (fun hw => ?_) rfl
  rw [maj19 (R_2_6 ..)]
  simp only [decodeMaj19, R_29_3, R_15_1, R_26_3, R_16_4, R_20_1, R_16_5, R_21_5, R_11_4, R_8_3, n4_5_0_4, n4_5_4_1]
  exact fmt rfl (cons rfl (cons rfl nil))
theorem sattMins (a : BitVec 5) (s : BitVec 4) (l : BitVec 3) : Statement (.sattMins a s l) := by
  refine of32 (w := (fR 4 5 0 a (s.setWidth 5) l 25)) (e28 rfl) (lowR ..) (fun hw => ?_) rfl
  rw [maj19 (R_2_6 ..)]
  simp only [decodeMaj19, R_29_3, R_15_1, R_26_3, R_21_5, R_16_5, R_11_4, R_8_3, n4_5_4_1, n4_5_0_4]
  exact (cons rfl nil)
theorem sattMaxs (a : BitVec 5) (s : BitVec 4) (l : BitVec 3) : Statement (.sattMaxs a s l) := by
  refine of32 (w := (fR 4 6 0 a (s.setWidth 5) l 25)) (e28 rfl) (lowR ..) (fun hw => ?_) rfl
  rw [maj19 (R_2_6 ..)]
  simp only [decodeMaj19, R_29_3, R_15_1, R_26_3, R_21_5, R_16_5, R_11_4, R_8_3, n4_5_4_1, n4_5_0_4]
  exact (cons rfl nil)
theorem sattSumr (s : BitVec 4) (l : BitVec 3) : Statement (.sattSumr s l) := by
  refine of32 (w := (fR 4 7 0 0 (s.setWidth 5) l 25)) (e30 rfl) (lowR ..) (fun hw => ?_) rfl
  rw [maj19 (R_2_6 ..)]
  simp only [decodeMaj19, R_29_3, R_15_1, R_26_3, R_16_5, R_21_5, R_11_4, R_8_3, n4_5_4_1, n4_5_0_4]
  exact (cons rfl (cons rfl nil))
theorem sattAdd2 (a : BitVec 4) (s : BitVec 4) (l : BitVec 3) : Statement (.sattAdd2 a s l) := by
  refine of32 (w := (fR 4 0 0 (a.setWidth 5) (1#1 ++ s) l 25)) (e33 rfl) (lowR ..) (fun hw => ?_) rfl
  rw [maj19 (R_2_6 ..)]
  simp only [decodeMaj19, R_29_3, R_15_1, R_26_3, R_20_1, R_16_5, R_21_5, R_16_4, R_11_4, R_8_3, n4_5_4_1, n4_5_0_4, c1_4_4_1, c1_4_0_4]
  exact (cons rfl (cons rfl nil))
theorem sgo (s : BitVec 4) (l : BitVec 3) : Statement (.sgo s l) := by
  refine of32 (w := (fR 5 0 0 0 (s.setWidth 5) l 25)) (e30 rfl) (lowR ..) (fun hw => ?_) rfl
  rw [maj19 (R_2_6 ..)]
  simp only [decodeMaj19, R_29_3, R_15_1, R_16_5, R_21_5, R_26_3, R_11_4, R_8_3, n4_5_4_1, n4_5_0_4]
  exact (cons rfl (cons rfl (cons rfl (cons rfl nil))))
theorem sclose (a : BitVec 5) (s : BitVec 4) (l : BitVec 3) : Statement (.sclose a s l) := by
  refine of32 (w := (fR 6 0 0 a (s.setWidth 5) l 25)) (e28 rfl) (lowR ..) (fun hw => ?_) rfl
  rw [maj19 (R_2_6 ..)]
  simp only [decodeMaj19, R_29_3, R_15_1, R_21_5, R_26_3, R_16_5, R_11_4, R_8_3, n4_5_4_1, n4_5_0_4]
  exact (cons rfl (cons rfl (cons rfl nil)))
theorem spin (i : BitVec 2) (s : BitVec 4) (l : BitVec 3) : Statement (.spin i s l) := by
  refine of32 (w := (fR 7 (i.setWidth 3) 0 0 (s.setWidth 5) l 25)) (e34 rfl) (lowR ..) (fun hw => ?_) rfl
  rw [maj19 (R_2_6 ..)]
  simp only [decodeMaj19, R_29_3, R_15_1, R_16_5, R_21_5, R_26_3, R_26_2, R_11_4, R_8_3, n2_3_0_2, n4_5_4_1, n4_5_0_4]
  exact (cons rfl (cons rfl (cons rfl (cons (rule2 _) nil))))
theorem spop (a : BitVec 5) (s : BitVec 4) (l : BitVec 3) : Statement (.spop a s l) := by
  refine of32 (w := (fR 0 0 0 a (s.setWidth 5) l 26)) (e28 rfl) (lowR ..) (fun hw => ?_) rfl
  rw [maj1A (R_2_6 ..)]
  simp only [decodeMaj1A, R_29_3, R_21_5, R_15_1, R_26_3, R_16_5, R_11_4, R_8_3, n4_5_4_1, n4_5_0_4]
  exact (cons rfl (cons rfl (cons rfl nil)))
theorem spopk (b : BitVec 3) (a : BitVec 5) (s : BitVec 4) (l : BitVec 3) : Statement (.spopk b a s l) := by
  refine of32 (w := (fR 1 0 (b.setWidth 5) a (s.setWidth 5) l 26)) (e35 rfl) (lowR ..) (fun hw => ?_) rfl
  rw [maj1A (R_2_6 ..)]
  simp only [decodeMaj1A, R_29_3, R_21_5, R_15_1, R_26_3, R_21_3, R_16_5, R_11_4, R_8_3, n3_5_0_3, n4_5_4_1, n4_5_0_4]
  exact (cons (kreg3 _) (cons rfl (cons rfl (cons (notK (hw)) nil))))
theorem spush (a : BitVec 5) (s : BitVec 4) (l : BitVec 3) : Statement (.spush a s l) := by
  refine of32 (w := (fR 2 0 0 a (s.setWidth 5) l 26)) (e28 rfl) (lowR ..) (fun hw => ?_) rfl
  rw [maj1A (R_2_6 ..)]
  simp only [decodeMaj1A, R_29_3, R_21_5, R_15_1, R_26_3, R_16_5, R_11_4, R_8_3, n4_5_4_1, n4_5_0_4]
  exact (cons rfl (cons rfl (cons rfl nil)))
theorem sgrant (a : BitVec 5) (f : Bool) (s : BitVec 4) (l : BitVec 3) : Statement (.sgrant a f s l) := by
  cases f
  case false =>
    refine of32 (w := (fR 3 0 0 a (s.setWidth 5) l 26)) (e36 rfl) (lowR ..) (fun hw => ?_) rfl
    rw [maj1A (R_2_6 ..)]
    simp only [decodeMaj1A, R_29_3, R_21_5, R_26_3, R_16_5, R_15_1, R_11_4, R_8_3, n4_5_4_1, n4_5_0_4]
    exact (cons rfl (cons rfl nil))
  case true =>
    refine of32 (w := (fR 3 0 0 a (1#1 ++ s) l 26)) (e37 rfl) (lowR ..) (fun hw => ?_) rfl
    rw [maj1A (R_2_6 ..)]
    simp only [decodeMaj1A, R_29_3, R_21_5, R_26_3, R_16_5, R_15_1, R_11_4, R_8_3, c1_4_4_1, c1_4_0_4]
    exact (cons rfl (cons rfl nil))
theorem sfront (a : BitVec 5) (s : BitVec 4) (l : BitVec 3) : Statement (.sfront a s l) := by
  refine of32 (w := (fR 4 0 0 a (s.setWidth 5) l 26)) (e28 rfl) (lowR ..) (fun hw => ?_) rfl
  rw [maj1A (R_2_6 ..)]
  simp only [decodeMaj1A, R_29_3, R_21_5, R_15_1, R_26_3, R_16_5, R_11_4, R_8_3, n4_5_4_1, n4_5_0_4]
  exact (cons rfl (cons rfl (cons rfl nil)))
theorem swaitf (a : BitVec 5) (s : BitVec 4) (l : BitVec 3) : Statement (.swaitf a s l) := by
  refine of32 (w := (fR 5 0 0 a (s.setWidth 5) l 26)) (e28 rfl) (lowR ..) (fun hw => ?_) rfl
  rw [maj1A (R_2_6 ..)]
  simp only [decodeMaj1A, R_29_3, R_21_5, R_15_1, R_26_3, R_16_5, R_11_4, R_8_3, n4_5_4_1, n4_5_0_4]
  exact (cons rfl (cons rfl (cons rfl nil)))
theorem sevt (a : BitVec 5) (s : BitVec 4) (l : BitVec 3) : Statement (.sevt a s l) := by
  refine of32 (w := (fR 6 0 0 a (s.setWidth 5) l 26)) (e28 rfl) (lowR ..) (fun hw => ?_) rfl
  rw [maj1A (R_2_6 ..)]
  simp only [decodeMaj1A, R_29_3, R_21_5, R_15_1, R_26_3, R_16_5, R_11_4, R_8_3, n4_5_4_1, n4_5_0_4]
  exact (cons rfl (cons rfl (cons rfl nil)))
theorem srecall (s : BitVec 4) (l : BitVec 3) : Statement (.srecall s l) := by
  refine of32 (w := (fR 7 0 0 0 (s.setWidth 5) l 26)) (e30 rfl) (lowR ..) (fun hw => ?_) rfl
  rw [maj1A (R_2_6 ..)]
  simp only [decodeMaj1A, R_29_3, R_16_5, R_21_5, R_15_1, R_26_3, R_11_4, R_8_3, n4_5_4_1, n4_5_0_4]
  exact (cons rfl (cons rfl (cons rfl (cons rfl nil))))
theorem sskip (a : BitVec 5) (s : BitVec 4) (l : BitVec 3) : Statement (.sskip a s l) := by
  refine of32 (w := (fR 0 0 0 a (s.setWidth 5) l 27)) (e28 rfl) (lowR ..) (fun hw => ?_) rfl
  rw [maj1B (R_2_6 ..)]
  simp only [decodeMaj1B, R_29_3, R_21_5, R_15_1, R_26_3, R_16_5, R_11_4, R_8_3, n4_5_4_1, n4_5_0_4]
  exact (cons rfl (cons rfl (cons rfl nil)))
theorem ssave (a : BitVec 5) (s : BitVec 4) (l : BitVec 3) : Statement (.ssave a s l) := by
  refine of32 (w := (fR 1 0 0 a (s.setWidth 5) l 27)) (e28 rfl) (lowR ..) (fun hw => ?_) rfl
  rw [maj1B (R_2_6 ..)]
  simp only [decodeMaj1B, R_29_3, R_21_5, R_15_1, R_26_3, R_16_5, R_11_4, R_8_3, n4_5_4_1, n4_5_0_4]
  exact (cons rfl (cons rfl (cons rfl nil)))
theorem sload (a : BitVec 5) (s : BitVec 4) (l : BitVec 3) : Statement (.sload a s l) := by
  refine of32 (w := (fR 2 0 0 a (s.setWidth 5) l 27)) (e28 rfl) (lowR ..) (fun hw => ?_) rfl
  rw [maj1B (R_2_6 ..)]
  simp only [decodeMaj1B, R_29_3, R_21_5, R_15_1, R_26_3, R_16_5, R_11_4, R_8_3, n4_5_4_1, n4_5_0_4]
  exact (cons rfl (cons rfl (cons rfl nil)))
theorem squery (i : BitVec 3) (a : BitVec 5) (s : BitVec 4) (l : BitVec 3) : Statement (.squery i a s l) := by
  refine of32 (w := (fR 3 i 0 a (s.setWidth 5) l 27)) (e38 rfl) (lowR ..) (fun hw => ?_) rfl
  rw [maj1B (R_2_6 ..)]
  simp only [decodeMaj1B, R_29_3, R_21_5, R_15_1, R_26_3, R_16_5, R_11_4, R_8_3, n4_5_4_1, n4_5_0_4]
  exact (cons rfl (cons rfl (cons (query hw) nil)))
theorem send (z : BitVec 3) (b : BitVec 5) (a : BitVec 5) (d : BitVec 5) (t : BitVec 2) : Statement (.send z b a d t) := by
  refine of32 (w := (fR 0 z b a d (t.setWidth 3) 28)) (e39 rfl) (lowR ..) (fun hw => ?_) rfl
  rw [maj1C (R_2_6 ..)]
  simp only [decodeMaj1C, R_29_3, R_10_1, R_26_3, R_21_5, R_16_5, R_11_5, R_8_2, n2_3_2_1, n2_3_0_2]
  exact (cons rfl (cons (size hw) nil))
theorem sendr (z : BitVec 3) (b : BitVec 5) (a : BitVec 5) (d : BitVec 5) (t : BitVec 2) : Statement (.sendr z b a d t) := by
  refine of32 (w := (fR 1 z b a d (t.setWidth 3) 28)) (e39 rfl) (lowR ..) (fun hw => ?_) rfl
  rw [maj1C (R_2_6 ..)]
  simp only [decodeMaj1C, R_29_3, R_10_1, R_26_3, R_21_5, R_16_5, R_11_5, R_8_2, n2_3_2_1, n2_3_0_2]
  exact (cons rfl (cons (size hw) nil))
theorem sendw (z : BitVec 3) (b : BitVec 5) (a : BitVec 5) (d : BitVec 5) (t : BitVec 2) : Statement (.sendw z b a d t) := by
  refine of32 (w := (fR 2 z b a d (t.setWidth 3) 28)) (e39 rfl) (lowR ..) (fun hw => ?_) rfl
  rw [maj1C (R_2_6 ..)]
  simp only [decodeMaj1C, R_29_3, R_10_1, R_26_3, R_21_5, R_16_5, R_11_5, R_8_2, n2_3_2_1, n2_3_0_2]
  exact (cons rfl (cons (size hw) nil))
theorem sendt (z : BitVec 3) (b : BitVec 5) (a : BitVec 5) (d : BitVec 5) (t : BitVec 2) : Statement (.sendt z b a d t) := by
  refine of32 (w := (fR 3 z b a d (t.setWidth 3) 28)) (e39 rfl) (lowR ..) (fun hw => ?_) rfl
  rw [maj1C (R_2_6 ..)]
  simp only [decodeMaj1C, R_29_3, R_10_1, R_26_3, R_21_5, R_16_5, R_11_5, R_8_2, n2_3_2_1, n2_3_0_2]
  exact (cons rfl (cons (size hw) nil))
theorem sendv (b : BitVec 5) (a : BitVec 5) (d : BitVec 5) (t : BitVec 2) : Statement (.sendv b a d t) := by
  refine of32 (w := (fR 4 0 b a d (t.setWidth 3) 28)) (e40 rfl) (lowR ..) (fun hw => ?_) rfl
  rw [maj1C (R_2_6 ..)]
  simp only [decodeMaj1C, R_29_3, R_10_1, R_26_3, R_21_5, R_16_5, R_11_5, R_8_2, n2_3_2_1, n2_3_0_2]
  exact (cons rfl (cons rfl nil))
theorem reply (z : BitVec 3) (b : BitVec 5) (a : BitVec 5) (d : BitVec 5) : Statement (.reply z b a d) := by
  refine of32 (w := (fR 5 z b a d 0 28)) (e41 rfl) (lowR ..) (fun hw => ?_) rfl
  rw [maj1C (R_2_6 ..)]
  simp only [decodeMaj1C, R_29_3, R_10_1, R_26_3, R_8_2, R_21_5, R_16_5, R_11_5]
  exact (cons rfl (cons (size hw) (cons rfl nil)))
theorem fwd (a : BitVec 5) (d : BitVec 5) (t : BitVec 2) : Statement (.fwd a d t) := by
  refine of32 (w := (fR 6 0 0 a d (t.setWidth 3) 28)) (e42 rfl) (lowR ..) (fun hw => ?_) rfl
  rw [maj1C (R_2_6 ..)]
  simp only [decodeMaj1C, R_29_3, R_10_1, R_26_3, R_21_5, R_16_5, R_11_5, R_8_2, n2_3_2_1, n2_3_0_2]
  exact (cons rfl (cons rfl (cons rfl nil)))
theorem sendg (z : BitVec 3) (b : BitVec 5) (a : BitVec 5) (d : BitVec 5) (t : BitVec 2) : Statement (.sendg z b a d t) := by
  refine of32 (w := (fR 7 z b a d (t.setWidth 3) 28)) (e39 rfl) (lowR ..) (fun hw => ?_) rfl
  rw [maj1C (R_2_6 ..)]
  simp only [decodeMaj1C, R_29_3, R_10_1, R_26_3, R_21_5, R_16_5, R_11_5, R_8_2, n2_3_2_1, n2_3_0_2]
  exact (cons rfl (cons (size hw) nil))
theorem mbcfg (b : BitVec 5) (a : BitVec 5) (d : BitVec 5) (l : BitVec 3) : Statement (.mbcfg b a d l) := by
  refine of32 (w := (fR 0 0 b a d l 29)) (e1 rfl) (lowR ..) (fun hw => ?_) rfl
  rw [maj1D (R_2_6 ..)]
  simp only [decodeMaj1D, R_29_3, R_26_3, R_21_5, R_16_5, R_11_5, R_8_3]
  exact (cons rfl nil)
theorem mbcnt (b : BitVec 5) (a : BitVec 5) (d : BitVec 5) (l : BitVec 3) : Statement (.mbcnt b a d l) := by
  refine of32 (w := (fR 1 0 b a d l 29)) (e1 rfl) (lowR ..) (fun hw => ?_) rfl
  rw [maj1D (R_2_6 ..)]
  simp only [decodeMaj1D, R_29_3, R_26_3, R_21_5, R_16_5, R_11_5, R_8_3]
  exact (cons rfl nil)
theorem mbmask (a : BitVec 5) (d : BitVec 5) (l : BitVec 3) : Statement (.mbmask a d l) := by
  refine of32 (w := (fR 2 0 0 a d l 29)) (e2 rfl) (lowR ..) (fun hw => ?_) rfl
  rw [maj1D (R_2_6 ..)]
  simp only [decodeMaj1D, R_29_3, R_21_5, R_26_3, R_16_5, R_11_5, R_8_3]
  exact (cons rfl (cons rfl nil))
theorem msgf (a : BitVec 5) (d : BitVec 5) (l : BitVec 3) : Statement (.msgf a d l) := by
  refine of32 (w := (fR 3 0 0 a d l 29)) (e2 rfl) (lowR ..) (fun hw => ?_) rfl
  rw [maj1D (R_2_6 ..)]
  simp only [decodeMaj1D, R_29_3, R_21_5, R_26_3, R_16_5, R_11_5, R_8_3]
  exact (cons rfl (cons rfl nil))
theorem tagbind (b : BitVec 5) (a : BitVec 5) (d : BitVec 5) (l : BitVec 3) : Statement (.tagbind b a d l) := by
  refine of32 (w := (fR 4 0 b a d l 29)) (e1 rfl) (lowR ..) (fun hw => ?_) rfl
  rw [maj1D (R_2_6 ..)]
  simp only [decodeMaj1D, R_29_3, R_26_3, R_21_5, R_16_5, R_11_5, R_8_3]
  exact (cons rfl nil)
theorem tagwait (a : BitVec 5) (d : BitVec 5) (l : BitVec 3) : Statement (.tagwait a d l) := by
  refine of32 (w := (fR 5 0 0 a d l 29)) (e2 rfl) (lowR ..) (fun hw => ?_) rfl
  rw [maj1D (R_2_6 ..)]
  simp only [decodeMaj1D, R_29_3, R_21_5, R_26_3, R_16_5, R_11_5, R_8_3]
  exact (cons rfl (cons rfl nil))
theorem wret (d : BitVec 5) (l : BitVec 3) : Statement (.wret d l) := by
  refine of32 (w := (fR 0 0 0 0 d l 30)) (e15 rfl) (lowR ..) (fun hw => ?_) rfl
  rw [maj1E (R_2_6 ..)]
  simp only [decodeMaj1E, R_29_3, R_16_5, R_21_5, R_26_3, R_11_5, R_8_3]
  exact (cons rfl (cons rfl (cons rfl nil)))
theorem wq (d : BitVec 5) (l : BitVec 3) : Statement (.wq d l) := by
  refine of32 (w := (fR 1 0 0 0 d l 30)) (e15 rfl) (lowR ..) (fun hw => ?_) rfl
  rw [maj1E (R_2_6 ..)]
  simp only [decodeMaj1E, R_29_3, R_16_5, R_21_5, R_26_3, R_11_5, R_8_3]
  exact (cons rfl (cons rfl (cons rfl nil)))
theorem jcfg (b : BitVec 5) (a : BitVec 5) (d : BitVec 5) (l : BitVec 3) : Statement (.jcfg b a d l) := by
  refine of32 (w := (fR 2 0 b a d l 30)) (e1 rfl) (lowR ..) (fun hw => ?_) rfl
  rw [maj1E (R_2_6 ..)]
  simp only [decodeMaj1E, R_29_3, R_26_3, R_21_5, R_16_5, R_11_5, R_8_3]
  exact (cons rfl nil)
theorem jadd (b : BitVec 5) (a : BitVec 5) (d : BitVec 5) (l : BitVec 3) : Statement (.jadd b a d l) := by
  refine of32 (w := (fR 3 0 b a d l 30)) (e1 rfl) (lowR ..) (fun hw => ?_) rfl
  rw [maj1E (R_2_6 ..)]
  simp only [decodeMaj1E, R_29_3, R_26_3, R_21_5, R_16_5, R_11_5, R_8_3]
  exact (cons rfl nil)
theorem launch (b : BitVec 5) (a : BitVec 5) (d : BitVec 5) (l : BitVec 3) : Statement (.launch b a d l) := by
  refine of32 (w := (fR 4 0 b a d l 30)) (e1 rfl) (lowR ..) (fun hw => ?_) rfl
  rw [maj1E (R_2_6 ..)]
  simp only [decodeMaj1E, R_29_3, R_26_3, R_21_5, R_16_5, R_11_5, R_8_3]
  exact (cons rfl nil)
theorem selfq (a : BitVec 5) (d : BitVec 5) (l : BitVec 3) : Statement (.selfq a d l) := by
  refine of32 (w := (fR 5 0 0 a d l 30)) (e2 rfl) (lowR ..) (fun hw => ?_) rfl
  rw [maj1E (R_2_6 ..)]
  simp only [decodeMaj1E, R_29_3, R_21_5, R_26_3, R_16_5, R_11_5, R_8_3]
  exact (cons rfl (cons rfl nil))
theorem gangq (a : BitVec 5) (d : BitVec 5) (l : BitVec 3) : Statement (.gangq a d l) := by
  refine of32 (w := (fR 6 0 0 a d l 30)) (e2 rfl) (lowR ..) (fun hw => ?_) rfl
  rw [maj1E (R_2_6 ..)]
  simp only [decodeMaj1E, R_29_3, R_21_5, R_26_3, R_16_5, R_11_5, R_8_3]
  exact (cons rfl (cons rfl nil))
theorem fenceL (l : BitVec 3) : Statement (.fenceL l) := by
  refine of32 (w := (fR 0 0 0 0 0 l 31)) (e11 rfl) (lowR ..) (fun hw => ?_) rfl
  rw [maj1F (R_2_6 ..)]
  simp only [decodeMaj1F, R_29_3, R_11_5, R_16_5, R_21_5, R_26_3, R_8_3]
  exact (cons rfl (cons rfl (cons rfl (cons rfl nil))))
theorem rel (k : Scope) (l : BitVec 3) : Statement (.rel k l) := by
  cases k
  case cl =>
    refine of32 (w := (fR 1 0 0 0 0 l 31)) (e43 rfl) (lowR ..) (fun hw => ?_) rfl
    rw [maj1F (R_2_6 ..)]
    simp only [decodeMaj1F, R_29_3, R_26_3, R_11_5, R_16_5, R_21_5, R_8_3]
    exact scope rfl (cons rfl (cons rfl (cons rfl nil)))
  case dv =>
    refine of32 (w := (fR 1 1 0 0 0 l 31)) (e44 rfl) (lowR ..) (fun hw => ?_) rfl
    rw [maj1F (R_2_6 ..)]
    simp only [decodeMaj1F, R_29_3, R_26_3, R_11_5, R_16_5, R_21_5, R_8_3]
    exact scope rfl (cons rfl (cons rfl (cons rfl nil)))
  case sy =>
    refine of32 (w := (fR 1 2 0 0 0 l 31)) (e45 rfl) (lowR ..) (fun hw => ?_) rfl
    rw [maj1F (R_2_6 ..)]
    simp only [decodeMaj1F, R_29_3, R_26_3, R_11_5, R_16_5, R_21_5, R_8_3]
    exact scope rfl (cons rfl (cons rfl (cons rfl nil)))
theorem acq (k : Scope) (l : BitVec 3) : Statement (.acq k l) := by
  cases k
  case cl =>
    refine of32 (w := (fR 2 0 0 0 0 l 31)) (e43 rfl) (lowR ..) (fun hw => ?_) rfl
    rw [maj1F (R_2_6 ..)]
    simp only [decodeMaj1F, R_29_3, R_26_3, R_11_5, R_16_5, R_21_5, R_8_3]
    exact scope rfl (cons rfl (cons rfl (cons rfl nil)))
  case dv =>
    refine of32 (w := (fR 2 1 0 0 0 l 31)) (e44 rfl) (lowR ..) (fun hw => ?_) rfl
    rw [maj1F (R_2_6 ..)]
    simp only [decodeMaj1F, R_29_3, R_26_3, R_11_5, R_16_5, R_21_5, R_8_3]
    exact scope rfl (cons rfl (cons rfl (cons rfl nil)))
  case sy =>
    refine of32 (w := (fR 2 2 0 0 0 l 31)) (e45 rfl) (lowR ..) (fun hw => ?_) rfl
    rw [maj1F (R_2_6 ..)]
    simp only [decodeMaj1F, R_29_3, R_26_3, R_11_5, R_16_5, R_21_5, R_8_3]
    exact scope rfl (cons rfl (cons rfl (cons rfl nil)))
theorem strel (k : Scope) (b : BitVec 5) (a : BitVec 5) (l : BitVec 3) : Statement (.strel k b a l) := by
  cases k
  case cl =>
    refine of32 (w := (fR 3 0 b a 0 l 31)) (e46 rfl) (lowR ..) (fun hw => ?_) rfl
    rw [maj1F (R_2_6 ..)]
    simp only [decodeMaj1F, R_29_3, R_26_3, R_11_5, R_21_5, R_16_5, R_8_3]
    exact scope rfl (cons rfl nil)
  case dv =>
    refine of32 (w := (fR 3 1 b a 0 l 31)) (e47 rfl) (lowR ..) (fun hw => ?_) rfl
    rw [maj1F (R_2_6 ..)]
    simp only [decodeMaj1F, R_29_3, R_26_3, R_11_5, R_21_5, R_16_5, R_8_3]
    exact scope rfl (cons rfl nil)
  case sy =>
    refine of32 (w := (fR 3 2 b a 0 l 31)) (e48 rfl) (lowR ..) (fun hw => ?_) rfl
    rw [maj1F (R_2_6 ..)]
    simp only [decodeMaj1F, R_29_3, R_26_3, R_11_5, R_21_5, R_16_5, R_8_3]
    exact scope rfl (cons rfl nil)
theorem ldacq (k : Scope) (a : BitVec 5) (d : BitVec 5) (l : BitVec 3) : Statement (.ldacq k a d l) := by
  cases k
  case cl =>
    refine of32 (w := (fR 4 0 0 a d l 31)) (e49 rfl) (lowR ..) (fun hw => ?_) rfl
    rw [maj1F (R_2_6 ..)]
    simp only [decodeMaj1F, R_29_3, R_26_3, R_21_5, R_16_5, R_11_5, R_8_3]
    exact scope rfl (cons rfl nil)
  case dv =>
    refine of32 (w := (fR 4 1 0 a d l 31)) (e50 rfl) (lowR ..) (fun hw => ?_) rfl
    rw [maj1F (R_2_6 ..)]
    simp only [decodeMaj1F, R_29_3, R_26_3, R_21_5, R_16_5, R_11_5, R_8_3]
    exact scope rfl (cons rfl nil)
  case sy =>
    refine of32 (w := (fR 4 2 0 a d l 31)) (e51 rfl) (lowR ..) (fun hw => ?_) rfl
    rw [maj1F (R_2_6 ..)]
    simp only [decodeMaj1F, R_29_3, R_26_3, R_21_5, R_16_5, R_11_5, R_8_3]
    exact scope rfl (cons rfl nil)
theorem fenceS (l : BitVec 3) : Statement (.fenceS l) := by
  refine of32 (w := (fR 5 0 0 0 0 l 31)) (e11 rfl) (lowR ..) (fun hw => ?_) rfl
  rw [maj1F (R_2_6 ..)]
  simp only [decodeMaj1F, R_29_3, R_11_5, R_16_5, R_21_5, R_26_3, R_8_3]
  exact (cons rfl (cons rfl (cons rfl (cons rfl nil))))
theorem fenceM (l : BitVec 3) : Statement (.fenceM l) := by
  refine of32 (w := (fR 6 0 0 0 0 l 31)) (e11 rfl) (lowR ..) (fun hw => ?_) rfl
  rw [maj1F (R_2_6 ..)]
  simp only [decodeMaj1F, R_29_3, R_11_5, R_16_5, R_21_5, R_26_3, R_8_3]
  exact (cons rfl (cons rfl (cons rfl (cons rfl nil))))
theorem fenceA (l : BitVec 3) : Statement (.fenceA l) := by
  refine of32 (w := (fR 7 0 0 0 0 l 31)) (e11 rfl) (lowR ..) (fun hw => ?_) rfl
  rw [maj1F (R_2_6 ..)]
  simp only [decodeMaj1F, R_29_3, R_11_5, R_16_5, R_21_5, R_26_3, R_8_3]
  exact (cons rfl (cons rfl (cons rfl (cons rfl nil))))
theorem aaddS32 (b : BitVec 5) (a : BitVec 5) (d : BitVec 5) (p : Bool) (c : Scope) : Statement (.aaddS32 b a d p c) := by
  cases p
  case false =>
    cases c
    case cl =>
      refine of32 (w := (fR 0 0 b a d 0 32)) (e52 rfl) (lowR ..) (fun hw => ?_) rfl
      rw [maj20 (R_2_6 ..)]
      simp only [decodeMaj20, R_29_3, R_8_2, R_26_3, R_21_5, R_16_5, R_11_5, R_10_1]
      exact scope rfl (cons rfl (cons (posted0 (R_10_1 ..)) nil))
    case dv =>
      refine of32 (w := (fR 0 0 b a d 1 32)) (e53 rfl) (lowR ..) (fun hw => ?_) rfl
      rw [maj20 (R_2_6 ..)]
      simp only [decodeMaj20, R_29_3, R_8_2, R_26_3, R_21_5, R_16_5, R_11_5, R_10_1]
      exact scope rfl (cons rfl (cons (posted0 (R_10_1 ..)) nil))
    case sy =>
      refine of32 (w := (fR 0 0 b a d 2 32)) (e54 rfl) (lowR ..) (fun hw => ?_) rfl
      rw [maj20 (R_2_6 ..)]
      simp only [decodeMaj20, R_29_3, R_8_2, R_26_3, R_21_5, R_16_5, R_11_5, R_10_1]
      exact scope rfl (cons rfl (cons (posted0 (R_10_1 ..)) nil))
  case true =>
    cases c
    case cl =>
      refine of32 (w := (fR 0 0 b a d 4 32)) (e55 rfl) (lowR ..) (fun hw => ?_) rfl
      rw [maj20 (R_2_6 ..)]
      simp only [decodeMaj20, R_29_3, R_8_2, R_26_3, R_21_5, R_16_5, R_11_5, R_10_1]
      exact scope rfl (cons rfl (cons (posted1 (R_11_5 ..) hw) nil))
    case dv =>
      refine of32 (w := (fR 0 0 b a d 5 32)) (e56 rfl) (lowR ..) (fun hw => ?_) rfl
      rw [maj20 (R_2_6 ..)]
      simp only [decodeMaj20, R_29_3, R_8_2, R_26_3, R_21_5, R_16_5, R_11_5, R_10_1]
      exact scope rfl (cons rfl (cons (posted1 (R_11_5 ..) hw) nil))
    case sy =>
      refine of32 (w := (fR 0 0 b a d 6 32)) (e57 rfl) (lowR ..) (fun hw => ?_) rfl
      rw [maj20 (R_2_6 ..)]
      simp only [decodeMaj20, R_29_3, R_8_2, R_26_3, R_21_5, R_16_5, R_11_5, R_10_1]
      exact scope rfl (cons rfl (cons (posted1 (R_11_5 ..) hw) nil))
theorem aaddS64 (b : BitVec 5) (a : BitVec 5) (d : BitVec 5) (p : Bool) (c : Scope) : Statement (.aaddS64 b a d p c) := by
  cases p
  case false =>
    cases c
    case cl =>
      refine of32 (w := (fR 1 0 b a d 0 32)) (e52 rfl) (lowR ..) (fun hw => ?_) rfl
      rw [maj20 (R_2_6 ..)]
      simp only [decodeMaj20, R_29_3, R_8_2, R_26_3, R_21_5, R_16_5, R_11_5, R_10_1]
      exact scope rfl (cons rfl (cons (posted0 (R_10_1 ..)) nil))
    case dv =>
      refine of32 (w := (fR 1 0 b a d 1 32)) (e53 rfl) (lowR ..) (fun hw => ?_) rfl
      rw [maj20 (R_2_6 ..)]
      simp only [decodeMaj20, R_29_3, R_8_2, R_26_3, R_21_5, R_16_5, R_11_5, R_10_1]
      exact scope rfl (cons rfl (cons (posted0 (R_10_1 ..)) nil))
    case sy =>
      refine of32 (w := (fR 1 0 b a d 2 32)) (e54 rfl) (lowR ..) (fun hw => ?_) rfl
      rw [maj20 (R_2_6 ..)]
      simp only [decodeMaj20, R_29_3, R_8_2, R_26_3, R_21_5, R_16_5, R_11_5, R_10_1]
      exact scope rfl (cons rfl (cons (posted0 (R_10_1 ..)) nil))
  case true =>
    cases c
    case cl =>
      refine of32 (w := (fR 1 0 b a d 4 32)) (e55 rfl) (lowR ..) (fun hw => ?_) rfl
      rw [maj20 (R_2_6 ..)]
      simp only [decodeMaj20, R_29_3, R_8_2, R_26_3, R_21_5, R_16_5, R_11_5, R_10_1]
      exact scope rfl (cons rfl (cons (posted1 (R_11_5 ..) hw) nil))
    case dv =>
      refine of32 (w := (fR 1 0 b a d 5 32)) (e56 rfl) (lowR ..) (fun hw => ?_) rfl
      rw [maj20 (R_2_6 ..)]
      simp only [decodeMaj20, R_29_3, R_8_2, R_26_3, R_21_5, R_16_5, R_11_5, R_10_1]
      exact scope rfl (cons rfl (cons (posted1 (R_11_5 ..) hw) nil))
    case sy =>
      refine of32 (w := (fR 1 0 b a d 6 32)) (e57 rfl) (lowR ..) (fun hw => ?_) rfl
      rw [maj20 (R_2_6 ..)]
      simp only [decodeMaj20, R_29_3, R_8_2, R_26_3, R_21_5, R_16_5, R_11_5, R_10_1]
      exact scope rfl (cons rfl (cons (posted1 (R_11_5 ..) hw) nil))
theorem aminS32 (b : BitVec 5) (a : BitVec 5) (d : BitVec 5) (p : Bool) (c : Scope) : Statement (.aminS32 b a d p c) := by
  cases p
  case false =>
    cases c
    case cl =>
      refine of32 (w := (fR 2 0 b a d 0 32)) (e52 rfl) (lowR ..) (fun hw => ?_) rfl
      rw [maj20 (R_2_6 ..)]
      simp only [decodeMaj20, R_29_3, R_8_2, R_26_3, R_21_5, R_16_5, R_11_5, R_10_1]
      exact scope rfl (cons rfl (cons (posted0 (R_10_1 ..)) nil))
    case dv =>
      refine of32 (w := (fR 2 0 b a d 1 32)) (e53 rfl) (lowR ..) (fun hw => ?_) rfl
      rw [maj20 (R_2_6 ..)]
      simp only [decodeMaj20, R_29_3, R_8_2, R_26_3, R_21_5, R_16_5, R_11_5, R_10_1]
      exact scope rfl (cons rfl (cons (posted0 (R_10_1 ..)) nil))
    case sy =>
      refine of32 (w := (fR 2 0 b a d 2 32)) (e54 rfl) (lowR ..) (fun hw => ?_) rfl
      rw [maj20 (R_2_6 ..)]
      simp only [decodeMaj20, R_29_3, R_8_2, R_26_3, R_21_5, R_16_5, R_11_5, R_10_1]
      exact scope rfl (cons rfl (cons (posted0 (R_10_1 ..)) nil))
  case true =>
    cases c
    case cl =>
      refine of32 (w := (fR 2 0 b a d 4 32)) (e55 rfl) (lowR ..) (fun hw => ?_) rfl
      rw [maj20 (R_2_6 ..)]
      simp only [decodeMaj20, R_29_3, R_8_2, R_26_3, R_21_5, R_16_5, R_11_5, R_10_1]
      exact scope rfl (cons rfl (cons (posted1 (R_11_5 ..) hw) nil))
    case dv =>
      refine of32 (w := (fR 2 0 b a d 5 32)) (e56 rfl) (lowR ..) (fun hw => ?_) rfl
      rw [maj20 (R_2_6 ..)]
      simp only [decodeMaj20, R_29_3, R_8_2, R_26_3, R_21_5, R_16_5, R_11_5, R_10_1]
      exact scope rfl (cons rfl (cons (posted1 (R_11_5 ..) hw) nil))
    case sy =>
      refine of32 (w := (fR 2 0 b a d 6 32)) (e57 rfl) (lowR ..) (fun hw => ?_) rfl
      rw [maj20 (R_2_6 ..)]
      simp only [decodeMaj20, R_29_3, R_8_2, R_26_3, R_21_5, R_16_5, R_11_5, R_10_1]
      exact scope rfl (cons rfl (cons (posted1 (R_11_5 ..) hw) nil))
theorem amaxS32 (b : BitVec 5) (a : BitVec 5) (d : BitVec 5) (p : Bool) (c : Scope) : Statement (.amaxS32 b a d p c) := by
  cases p
  case false =>
    cases c
    case cl =>
      refine of32 (w := (fR 3 0 b a d 0 32)) (e52 rfl) (lowR ..) (fun hw => ?_) rfl
      rw [maj20 (R_2_6 ..)]
      simp only [decodeMaj20, R_29_3, R_8_2, R_26_3, R_21_5, R_16_5, R_11_5, R_10_1]
      exact scope rfl (cons rfl (cons (posted0 (R_10_1 ..)) nil))
    case dv =>
      refine of32 (w := (fR 3 0 b a d 1 32)) (e53 rfl) (lowR ..) (fun hw => ?_) rfl
      rw [maj20 (R_2_6 ..)]
      simp only [decodeMaj20, R_29_3, R_8_2, R_26_3, R_21_5, R_16_5, R_11_5, R_10_1]
      exact scope rfl (cons rfl (cons (posted0 (R_10_1 ..)) nil))
    case sy =>
      refine of32 (w := (fR 3 0 b a d 2 32)) (e54 rfl) (lowR ..) (fun hw => ?_) rfl
      rw [maj20 (R_2_6 ..)]
      simp only [decodeMaj20, R_29_3, R_8_2, R_26_3, R_21_5, R_16_5, R_11_5, R_10_1]
      exact scope rfl (cons rfl (cons (posted0 (R_10_1 ..)) nil))
  case true =>
    cases c
    case cl =>
      refine of32 (w := (fR 3 0 b a d 4 32)) (e55 rfl) (lowR ..) (fun hw => ?_) rfl
      rw [maj20 (R_2_6 ..)]
      simp only [decodeMaj20, R_29_3, R_8_2, R_26_3, R_21_5, R_16_5, R_11_5, R_10_1]
      exact scope rfl (cons rfl (cons (posted1 (R_11_5 ..) hw) nil))
    case dv =>
      refine of32 (w := (fR 3 0 b a d 5 32)) (e56 rfl) (lowR ..) (fun hw => ?_) rfl
      rw [maj20 (R_2_6 ..)]
      simp only [decodeMaj20, R_29_3, R_8_2, R_26_3, R_21_5, R_16_5, R_11_5, R_10_1]
      exact scope rfl (cons rfl (cons (posted1 (R_11_5 ..) hw) nil))
    case sy =>
      refine of32 (w := (fR 3 0 b a d 6 32)) (e57 rfl) (lowR ..) (fun hw => ?_) rfl
      rw [maj20 (R_2_6 ..)]
      simp only [decodeMaj20, R_29_3, R_8_2, R_26_3, R_21_5, R_16_5, R_11_5, R_10_1]
      exact scope rfl (cons rfl (cons (posted1 (R_11_5 ..) hw) nil))
theorem aminN32 (b : BitVec 5) (a : BitVec 5) (d : BitVec 5) (p : Bool) (c : Scope) : Statement (.aminN32 b a d p c) := by
  cases p
  case false =>
    cases c
    case cl =>
      refine of32 (w := (fR 4 0 b a d 0 32)) (e52 rfl) (lowR ..) (fun hw => ?_) rfl
      rw [maj20 (R_2_6 ..)]
      simp only [decodeMaj20, R_29_3, R_8_2, R_26_3, R_21_5, R_16_5, R_11_5, R_10_1]
      exact scope rfl (cons rfl (cons (posted0 (R_10_1 ..)) nil))
    case dv =>
      refine of32 (w := (fR 4 0 b a d 1 32)) (e53 rfl) (lowR ..) (fun hw => ?_) rfl
      rw [maj20 (R_2_6 ..)]
      simp only [decodeMaj20, R_29_3, R_8_2, R_26_3, R_21_5, R_16_5, R_11_5, R_10_1]
      exact scope rfl (cons rfl (cons (posted0 (R_10_1 ..)) nil))
    case sy =>
      refine of32 (w := (fR 4 0 b a d 2 32)) (e54 rfl) (lowR ..) (fun hw => ?_) rfl
      rw [maj20 (R_2_6 ..)]
      simp only [decodeMaj20, R_29_3, R_8_2, R_26_3, R_21_5, R_16_5, R_11_5, R_10_1]
      exact scope rfl (cons rfl (cons (posted0 (R_10_1 ..)) nil))
  case true =>
    cases c
    case cl =>
      refine of32 (w := (fR 4 0 b a d 4 32)) (e55 rfl) (lowR ..) (fun hw => ?_) rfl
      rw [maj20 (R_2_6 ..)]
      simp only [decodeMaj20, R_29_3, R_8_2, R_26_3, R_21_5, R_16_5, R_11_5, R_10_1]
      exact scope rfl (cons rfl (cons (posted1 (R_11_5 ..) hw) nil))
    case dv =>
      refine of32 (w := (fR 4 0 b a d 5 32)) (e56 rfl) (lowR ..) (fun hw => ?_) rfl
      rw [maj20 (R_2_6 ..)]
      simp only [decodeMaj20, R_29_3, R_8_2, R_26_3, R_21_5, R_16_5, R_11_5, R_10_1]
      exact scope rfl (cons rfl (cons (posted1 (R_11_5 ..) hw) nil))
    case sy =>
      refine of32 (w := (fR 4 0 b a d 6 32)) (e57 rfl) (lowR ..) (fun hw => ?_) rfl
      rw [maj20 (R_2_6 ..)]
      simp only [decodeMaj20, R_29_3, R_8_2, R_26_3, R_21_5, R_16_5, R_11_5, R_10_1]
      exact scope rfl (cons rfl (cons (posted1 (R_11_5 ..) hw) nil))
theorem axchg (b : BitVec 5) (a : BitVec 5) (d : BitVec 5) (p : Bool) (c : Scope) : Statement (.axchg b a d p c) := by
  cases p
  case false =>
    cases c
    case cl =>
      refine of32 (w := (fR 5 0 b a d 0 32)) (e52 rfl) (lowR ..) (fun hw => ?_) rfl
      rw [maj20 (R_2_6 ..)]
      simp only [decodeMaj20, R_29_3, R_8_2, R_26_3, R_21_5, R_16_5, R_11_5, R_10_1]
      exact scope rfl (cons rfl (cons (posted0 (R_10_1 ..)) nil))
    case dv =>
      refine of32 (w := (fR 5 0 b a d 1 32)) (e53 rfl) (lowR ..) (fun hw => ?_) rfl
      rw [maj20 (R_2_6 ..)]
      simp only [decodeMaj20, R_29_3, R_8_2, R_26_3, R_21_5, R_16_5, R_11_5, R_10_1]
      exact scope rfl (cons rfl (cons (posted0 (R_10_1 ..)) nil))
    case sy =>
      refine of32 (w := (fR 5 0 b a d 2 32)) (e54 rfl) (lowR ..) (fun hw => ?_) rfl
      rw [maj20 (R_2_6 ..)]
      simp only [decodeMaj20, R_29_3, R_8_2, R_26_3, R_21_5, R_16_5, R_11_5, R_10_1]
      exact scope rfl (cons rfl (cons (posted0 (R_10_1 ..)) nil))
  case true =>
    cases c
    case cl =>
      refine of32 (w := (fR 5 0 b a d 4 32)) (e55 rfl) (lowR ..) (fun hw => ?_) rfl
      rw [maj20 (R_2_6 ..)]
      simp only [decodeMaj20, R_29_3, R_8_2, R_26_3, R_21_5, R_16_5, R_11_5, R_10_1]
      exact scope rfl (cons rfl (cons (posted1 (R_11_5 ..) hw) nil))
    case dv =>
      refine of32 (w := (fR 5 0 b a d 5 32)) (e56 rfl) (lowR ..) (fun hw => ?_) rfl
      rw [maj20 (R_2_6 ..)]
      simp only [decodeMaj20, R_29_3, R_8_2, R_26_3, R_21_5, R_16_5, R_11_5, R_10_1]
      exact scope rfl (cons rfl (cons (posted1 (R_11_5 ..) hw) nil))
    case sy =>
      refine of32 (w := (fR 5 0 b a d 6 32)) (e57 rfl) (lowR ..) (fun hw => ?_) rfl
      rw [maj20 (R_2_6 ..)]
      simp only [decodeMaj20, R_29_3, R_8_2, R_26_3, R_21_5, R_16_5, R_11_5, R_10_1]
      exact scope rfl (cons rfl (cons (posted1 (R_11_5 ..) hw) nil))
theorem acas (b : BitVec 5) (a : BitVec 5) (d : BitVec 5) (p : Bool) (c : Scope) : Statement (.acas b a d p c) := by
  cases p
  case false =>
    cases c
    case cl =>
      refine of32 (w := (fR 6 0 b a d 0 32)) (e52 rfl) (lowR ..) (fun hw => ?_) rfl
      rw [maj20 (R_2_6 ..)]
      simp only [decodeMaj20, R_29_3, R_8_2, R_26_3, R_21_5, R_16_5, R_11_5, R_10_1]
      exact scope rfl (cons rfl (cons (posted0 (R_10_1 ..)) nil))
    case dv =>
      refine of32 (w := (fR 6 0 b a d 1 32)) (e53 rfl) (lowR ..) (fun hw => ?_) rfl
      rw [maj20 (R_2_6 ..)]
      simp only [decodeMaj20, R_29_3, R_8_2, R_26_3, R_21_5, R_16_5, R_11_5, R_10_1]
      exact scope rfl (cons rfl (cons (posted0 (R_10_1 ..)) nil))
    case sy =>
      refine of32 (w := (fR 6 0 b a d 2 32)) (e54 rfl) (lowR ..) (fun hw => ?_) rfl
      rw [maj20 (R_2_6 ..)]
      simp only [decodeMaj20, R_29_3, R_8_2, R_26_3, R_21_5, R_16_5, R_11_5, R_10_1]
      exact scope rfl (cons rfl (cons (posted0 (R_10_1 ..)) nil))
  case true =>
    cases c
    case cl =>
      refine of32 (w := (fR 6 0 b a d 4 32)) (e55 rfl) (lowR ..) (fun hw => ?_) rfl
      rw [maj20 (R_2_6 ..)]
      simp only [decodeMaj20, R_29_3, R_8_2, R_26_3, R_21_5, R_16_5, R_11_5, R_10_1]
      exact scope rfl (cons rfl (cons (posted1 (R_11_5 ..) hw) nil))
    case dv =>
      refine of32 (w := (fR 6 0 b a d 5 32)) (e56 rfl) (lowR ..) (fun hw => ?_) rfl
      rw [maj20 (R_2_6 ..)]
      simp only [decodeMaj20, R_29_3, R_8_2, R_26_3, R_21_5, R_16_5, R_11_5, R_10_1]
      exact scope rfl (cons rfl (cons (posted1 (R_11_5 ..) hw) nil))
    case sy =>
      refine of32 (w := (fR 6 0 b a d 6 32)) (e57 rfl) (lowR ..) (fun hw => ?_) rfl
      rw [maj20 (R_2_6 ..)]
      simp only [decodeMaj20, R_29_3, R_8_2, R_26_3, R_21_5, R_16_5, R_11_5, R_10_1]
      exact scope rfl (cons rfl (cons (posted1 (R_11_5 ..) hw) nil))
theorem aaddF32 (b : BitVec 5) (a : BitVec 5) (d : BitVec 5) (p : Bool) (c : Scope) : Statement (.aaddF32 b a d p c) := by
  cases p
  case false =>
    cases c
    case cl =>
      refine of32 (w := (fR 7 0 b a d 0 32)) (e52 rfl) (lowR ..) (fun hw => ?_) rfl
      rw [maj20 (R_2_6 ..)]
      simp only [decodeMaj20, R_29_3, R_8_2, R_26_3, R_21_5, R_16_5, R_11_5, R_10_1]
      exact scope rfl (cons rfl (cons (posted0 (R_10_1 ..)) nil))
    case dv =>
      refine of32 (w := (fR 7 0 b a d 1 32)) (e53 rfl) (lowR ..) (fun hw => ?_) rfl
      rw [maj20 (R_2_6 ..)]
      simp only [decodeMaj20, R_29_3, R_8_2, R_26_3, R_21_5, R_16_5, R_11_5, R_10_1]
      exact scope rfl (cons rfl (cons (posted0 (R_10_1 ..)) nil))
    case sy =>
      refine of32 (w := (fR 7 0 b a d 2 32)) (e54 rfl) (lowR ..) (fun hw => ?_) rfl
      rw [maj20 (R_2_6 ..)]
      simp only [decodeMaj20, R_29_3, R_8_2, R_26_3, R_21_5, R_16_5, R_11_5, R_10_1]
      exact scope rfl (cons rfl (cons (posted0 (R_10_1 ..)) nil))
  case true =>
    cases c
    case cl =>
      refine of32 (w := (fR 7 0 b a d 4 32)) (e55 rfl) (lowR ..) (fun hw => ?_) rfl
      rw [maj20 (R_2_6 ..)]
      simp only [decodeMaj20, R_29_3, R_8_2, R_26_3, R_21_5, R_16_5, R_11_5, R_10_1]
      exact scope rfl (cons rfl (cons (posted1 (R_11_5 ..) hw) nil))
    case dv =>
      refine of32 (w := (fR 7 0 b a d 5 32)) (e56 rfl) (lowR ..) (fun hw => ?_) rfl
      rw [maj20 (R_2_6 ..)]
      simp only [decodeMaj20, R_29_3, R_8_2, R_26_3, R_21_5, R_16_5, R_11_5, R_10_1]
      exact scope rfl (cons rfl (cons (posted1 (R_11_5 ..) hw) nil))
    case sy =>
      refine of32 (w := (fR 7 0 b a d 6 32)) (e57 rfl) (lowR ..) (fun hw => ?_) rfl
      rw [maj20 (R_2_6 ..)]
      simp only [decodeMaj20, R_29_3, R_8_2, R_26_3, R_21_5, R_16_5, R_11_5, R_10_1]
      exact scope rfl (cons rfl (cons (posted1 (R_11_5 ..) hw) nil))
theorem aor (b : BitVec 5) (a : BitVec 5) (d : BitVec 5) (p : Bool) (c : Scope) : Statement (.aor b a d p c) := by
  cases p
  case false =>
    cases c
    case cl =>
      refine of32 (w := (fR 0 0 b a d 0 33)) (e52 rfl) (lowR ..) (fun hw => ?_) rfl
      rw [maj21 (R_2_6 ..)]
      simp only [decodeMaj21, R_29_3, R_8_2, R_26_3, R_21_5, R_16_5, R_11_5, R_10_1]
      exact scope rfl (cons rfl (cons (posted0 (R_10_1 ..)) nil))
    case dv =>
      refine of32 (w := (fR 0 0 b a d 1 33)) (e53 rfl) (lowR ..) (fun hw => ?_) rfl
      rw [maj21 (R_2_6 ..)]
      simp only [decodeMaj21, R_29_3, R_8_2, R_26_3, R_21_5, R_16_5, R_11_5, R_10_1]
      exact scope rfl (cons rfl (cons (posted0 (R_10_1 ..)) nil))
    case sy =>
      refine of32 (w := (fR 0 0 b a d 2 33)) (e54 rfl) (lowR ..) (fun hw => ?_) rfl
      rw [maj21 (R_2_6 ..)]
      simp only [decodeMaj21, R_29_3, R_8_2, R_26_3, R_21_5, R_16_5, R_11_5, R_10_1]
      exact scope rfl (cons rfl (cons (posted0 (R_10_1 ..)) nil))
  case true =>
    cases c
    case cl =>
      refine of32 (w := (fR 0 0 b a d 4 33)) (e55 rfl) (lowR ..) (fun hw => ?_) rfl
      rw [maj21 (R_2_6 ..)]
      simp only [decodeMaj21, R_29_3, R_8_2, R_26_3, R_21_5, R_16_5, R_11_5, R_10_1]
      exact scope rfl (cons rfl (cons (posted1 (R_11_5 ..) hw) nil))
    case dv =>
      refine of32 (w := (fR 0 0 b a d 5 33)) (e56 rfl) (lowR ..) (fun hw => ?_) rfl
      rw [maj21 (R_2_6 ..)]
      simp only [decodeMaj21, R_29_3, R_8_2, R_26_3, R_21_5, R_16_5, R_11_5, R_10_1]
      exact scope rfl (cons rfl (cons (posted1 (R_11_5 ..) hw) nil))
    case sy =>
      refine of32 (w := (fR 0 0 b a d 6 33)) (e57 rfl) (lowR ..) (fun hw => ?_) rfl
      rw [maj21 (R_2_6 ..)]
      simp only [decodeMaj21, R_29_3, R_8_2, R_26_3, R_21_5, R_16_5, R_11_5, R_10_1]
      exact scope rfl (cons rfl (cons (posted1 (R_11_5 ..) hw) nil))
theorem aand (b : BitVec 5) (a : BitVec 5) (d : BitVec 5) (p : Bool) (c : Scope) : Statement (.aand b a d p c) := by
  cases p
  case false =>
    cases c
    case cl =>
      refine of32 (w := (fR 1 0 b a d 0 33)) (e52 rfl) (lowR ..) (fun hw => ?_) rfl
      rw [maj21 (R_2_6 ..)]
      simp only [decodeMaj21, R_29_3, R_8_2, R_26_3, R_21_5, R_16_5, R_11_5, R_10_1]
      exact scope rfl (cons rfl (cons (posted0 (R_10_1 ..)) nil))
    case dv =>
      refine of32 (w := (fR 1 0 b a d 1 33)) (e53 rfl) (lowR ..) (fun hw => ?_) rfl
      rw [maj21 (R_2_6 ..)]
      simp only [decodeMaj21, R_29_3, R_8_2, R_26_3, R_21_5, R_16_5, R_11_5, R_10_1]
      exact scope rfl (cons rfl (cons (posted0 (R_10_1 ..)) nil))
    case sy =>
      refine of32 (w := (fR 1 0 b a d 2 33)) (e54 rfl) (lowR ..) (fun hw => ?_) rfl
      rw [maj21 (R_2_6 ..)]
      simp only [decodeMaj21, R_29_3, R_8_2, R_26_3, R_21_5, R_16_5, R_11_5, R_10_1]
      exact scope rfl (cons rfl (cons (posted0 (R_10_1 ..)) nil))
  case true =>
    cases c
    case cl =>
      refine of32 (w := (fR 1 0 b a d 4 33)) (e55 rfl) (lowR ..) (fun hw => ?_) rfl
      rw [maj21 (R_2_6 ..)]
      simp only [decodeMaj21, R_29_3, R_8_2, R_26_3, R_21_5, R_16_5, R_11_5, R_10_1]
      exact scope rfl (cons rfl (cons (posted1 (R_11_5 ..) hw) nil))
    case dv =>
      refine of32 (w := (fR 1 0 b a d 5 33)) (e56 rfl) (lowR ..) (fun hw => ?_) rfl
      rw [maj21 (R_2_6 ..)]
      simp only [decodeMaj21, R_29_3, R_8_2, R_26_3, R_21_5, R_16_5, R_11_5, R_10_1]
      exact scope rfl (cons rfl (cons (posted1 (R_11_5 ..) hw) nil))
    case sy =>
      refine of32 (w := (fR 1 0 b a d 6 33)) (e57 rfl) (lowR ..) (fun hw => ?_) rfl
      rw [maj21 (R_2_6 ..)]
      simp only [decodeMaj21, R_29_3, R_8_2, R_26_3, R_21_5, R_16_5, R_11_5, R_10_1]
      exact scope rfl (cons rfl (cons (posted1 (R_11_5 ..) hw) nil))
theorem axor (b : BitVec 5) (a : BitVec 5) (d : BitVec 5) (p : Bool) (c : Scope) : Statement (.axor b a d p c) := by
  cases p
  case false =>
    cases c
    case cl =>
      refine of32 (w := (fR 2 0 b a d 0 33)) (e52 rfl) (lowR ..) (fun hw => ?_) rfl
      rw [maj21 (R_2_6 ..)]
      simp only [decodeMaj21, R_29_3, R_8_2, R_26_3, R_21_5, R_16_5, R_11_5, R_10_1]
      exact scope rfl (cons rfl (cons (posted0 (R_10_1 ..)) nil))
    case dv =>
      refine of32 (w := (fR 2 0 b a d 1 33)) (e53 rfl) (lowR ..) (fun hw => ?_) rfl
      rw [maj21 (R_2_6 ..)]
      simp only [decodeMaj21, R_29_3, R_8_2, R_26_3, R_21_5, R_16_5, R_11_5, R_10_1]
      exact scope rfl (cons rfl (cons (posted0 (R_10_1 ..)) nil))
    case sy =>
      refine of32 (w := (fR 2 0 b a d 2 33)) (e54 rfl) (lowR ..) (fun hw => ?_) rfl
      rw [maj21 (R_2_6 ..)]
      simp only [decodeMaj21, R_29_3, R_8_2, R_26_3, R_21_5, R_16_5, R_11_5, R_10_1]
      exact scope rfl (cons rfl (cons (posted0 (R_10_1 ..)) nil))
  case true =>
    cases c
    case cl =>
      refine of32 (w := (fR 2 0 b a d 4 33)) (e55 rfl) (lowR ..) (fun hw => ?_) rfl
      rw [maj21 (R_2_6 ..)]
      simp only [decodeMaj21, R_29_3, R_8_2, R_26_3, R_21_5, R_16_5, R_11_5, R_10_1]
      exact scope rfl (cons rfl (cons (posted1 (R_11_5 ..) hw) nil))
    case dv =>
      refine of32 (w := (fR 2 0 b a d 5 33)) (e56 rfl) (lowR ..) (fun hw => ?_) rfl
      rw [maj21 (R_2_6 ..)]
      simp only [decodeMaj21, R_29_3, R_8_2, R_26_3, R_21_5, R_16_5, R_11_5, R_10_1]
      exact scope rfl (cons rfl (cons (posted1 (R_11_5 ..) hw) nil))
    case sy =>
      refine of32 (w := (fR 2 0 b a d 6 33)) (e57 rfl) (lowR ..) (fun hw => ?_) rfl
      rw [maj21 (R_2_6 ..)]
      simp only [decodeMaj21, R_29_3, R_8_2, R_26_3, R_21_5, R_16_5, R_11_5, R_10_1]
      exact scope rfl (cons rfl (cons (posted1 (R_11_5 ..) hw) nil))
theorem aminN64 (b : BitVec 5) (a : BitVec 5) (d : BitVec 5) (p : Bool) (c : Scope) : Statement (.aminN64 b a d p c) := by
  cases p
  case false =>
    cases c
    case cl =>
      refine of32 (w := (fR 3 0 b a d 0 33)) (e52 rfl) (lowR ..) (fun hw => ?_) rfl
      rw [maj21 (R_2_6 ..)]
      simp only [decodeMaj21, R_29_3, R_8_2, R_26_3, R_21_5, R_16_5, R_11_5, R_10_1]
      exact scope rfl (cons rfl (cons (posted0 (R_10_1 ..)) nil))
    case dv =>
      refine of32 (w := (fR 3 0 b a d 1 33)) (e53 rfl) (lowR ..) (fun hw => ?_) rfl
      rw [maj21 (R_2_6 ..)]
      simp only [decodeMaj21, R_29_3, R_8_2, R_26_3, R_21_5, R_16_5, R_11_5, R_10_1]
      exact scope rfl (cons rfl (cons (posted0 (R_10_1 ..)) nil))
    case sy =>
      refine of32 (w := (fR 3 0 b a d 2 33)) (e54 rfl) (lowR ..) (fun hw => ?_) rfl
      rw [maj21 (R_2_6 ..)]
      simp only [decodeMaj21, R_29_3, R_8_2, R_26_3, R_21_5, R_16_5, R_11_5, R_10_1]
      exact scope rfl (cons rfl (cons (posted0 (R_10_1 ..)) nil))
  case true =>
    cases c
    case cl =>
      refine of32 (w := (fR 3 0 b a d 4 33)) (e55 rfl) (lowR ..) (fun hw => ?_) rfl
      rw [maj21 (R_2_6 ..)]
      simp only [decodeMaj21, R_29_3, R_8_2, R_26_3, R_21_5, R_16_5, R_11_5, R_10_1]
      exact scope rfl (cons rfl (cons (posted1 (R_11_5 ..) hw) nil))
    case dv =>
      refine of32 (w := (fR 3 0 b a d 5 33)) (e56 rfl) (lowR ..) (fun hw => ?_) rfl
      rw [maj21 (R_2_6 ..)]
      simp only [decodeMaj21, R_29_3, R_8_2, R_26_3, R_21_5, R_16_5, R_11_5, R_10_1]
      exact scope rfl (cons rfl (cons (posted1 (R_11_5 ..) hw) nil))
    case sy =>
      refine of32 (w := (fR 3 0 b a d 6 33)) (e57 rfl) (lowR ..) (fun hw => ?_) rfl
      rw [maj21 (R_2_6 ..)]
      simp only [decodeMaj21, R_29_3, R_8_2, R_26_3, R_21_5, R_16_5, R_11_5, R_10_1]
      exact scope rfl (cons rfl (cons (posted1 (R_11_5 ..) hw) nil))
theorem barv (a : BitVec 3) (l : BitVec 3) : Statement (.barv a l) := by
  refine of32 (w := (fR 0 0 0 (a.setWidth 5) 0 l 34)) (e58 rfl) (lowR ..) (fun hw => ?_) rfl
  rw [maj22 (R_2_6 ..)]
  simp only [decodeMaj22, R_29_3, R_11_5, R_16_5, R_21_5, R_26_3, R_16_3, R_8_3, n3_5_0_3]
  exact (cons rfl (cons (kreg3 _) (cons rfl (cons rfl nil))))
theorem barw (a : BitVec 3) (l : BitVec 3) : Statement (.barw a l) := by
  refine of32 (w := (fR 1 0 0 (a.setWidth 5) 0 l 34)) (e58 rfl) (lowR ..) (fun hw => ?_) rfl
  rw [maj22 (R_2_6 ..)]
  simp only [decodeMaj22, R_29_3, R_11_5, R_16_5, R_21_5, R_26_3, R_16_3, R_8_3, n3_5_0_3]
  exact (cons rfl (cons (kreg3 _) (cons rfl (cons rfl nil))))
theorem barvw (a : BitVec 3) (l : BitVec 3) : Statement (.barvw a l) := by
  refine of32 (w := (fR 2 0 0 (a.setWidth 5) 0 l 34)) (e58 rfl) (lowR ..) (fun hw => ?_) rfl
  rw [maj22 (R_2_6 ..)]
  simp only [decodeMaj22, R_29_3, R_11_5, R_16_5, R_21_5, R_26_3, R_16_3, R_8_3, n3_5_0_3]
  exact (cons rfl (cons (kreg3 _) (cons rfl (cons rfl nil))))
theorem barq (a : BitVec 3) (d : BitVec 5) (l : BitVec 3) : Statement (.barq a d l) := by
  refine of32 (w := (fR 3 0 0 (a.setWidth 5) d l 34)) (e24 rfl) (lowR ..) (fun hw => ?_) rfl
  rw [maj22 (R_2_6 ..)]
  simp only [decodeMaj22, R_29_3, R_16_5, R_21_5, R_26_3, R_16_3, R_11_5, R_8_3, n3_5_0_3]
  exact (cons (kreg3 _) (cons rfl (cons rfl nil)))
theorem watch (a : BitVec 5) (d : BitVec 5) (l : BitVec 3) : Statement (.watch a d l) := by
  refine of32 (w := (fR 4 0 0 a d l 34)) (e2 rfl) (lowR ..) (fun hw => ?_) rfl
  rw [maj22 (R_2_6 ..)]
  simp only [decodeMaj22, R_29_3, R_21_5, R_26_3, R_16_5, R_11_5, R_8_3]
  exact (cons rfl (cons rfl nil))
theorem waitw (b : BitVec 5) (a : BitVec 5) (d : BitVec 5) (l : BitVec 3) : Statement (.waitw b a d l) := by
  refine of32 (w := (fR 5 0 b a d l 34)) (e1 rfl) (lowR ..) (fun hw => ?_) rfl
  rw [maj22 (R_2_6 ..)]
  simp only [decodeMaj22, R_29_3, R_26_3, R_21_5, R_16_5, R_11_5, R_8_3]
  exact (cons rfl nil)
theorem unwatch (a : BitVec 5) (l : BitVec 3) : Statement (.unwatch a l) := by
  refine of32 (w := (fR 6 0 0 a 0 l 34)) (e10 rfl) (lowR ..) (fun hw => ?_) rfl
  rw [maj22 (R_2_6 ..)]
  simp only [decodeMaj22, R_29_3, R_11_5, R_21_5, R_26_3, R_16_5, R_8_3]
  exact (cons rfl (cons rfl (cons rfl nil)))
theorem mldb (b : BitVec 5) (a : BitVec 5) (e : Fmt) (l : BitVec 3) : Statement (.mldb b a e l) := by
  refine of32 (w := (fR 0 0 b a (e.code ++ 0#1) l 35)) (e59 rfl) (lowR ..) (fun hw => ?_) rfl
  rw [maj23 (R_2_6 ..)]
  simp only [decodeMaj23, R_29_3, R_12_4, R_11_1, R_26_3, R_21_5, R_16_5, R_8_3, c4_1_1_4, c4_1_0_1]
  exact fmt (hw) (cons rfl (cons rfl nil))
theorem mldbs (m : Sparse) (b : BitVec 5) (a : BitVec 5) (e : Fmt) (l : BitVec 3) : Statement (.mldbs m b a e l) := by
  cases m
  case of4 =>
    refine of32 (w := (fR 1 1 b a (e.code ++ 0#1) l 35)) (e60 rfl) (lowR ..) (fun hw => ?_) rfl
    rw [maj23 (R_2_6 ..)]
    simp only [decodeMaj23, R_29_3, R_12_4, R_11_1, R_26_3, R_21_5, R_16_5, R_8_3, c4_1_1_4, c4_1_0_1]
    exact fmt (hw) (cons rfl (cons rfl nil))
  case of2 =>
    refine of32 (w := (fR 1 2 b a (e.code ++ 0#1) l 35)) (e61 rfl) (lowR ..) (fun hw => ?_) rfl
    rw [maj23 (R_2_6 ..)]
    simp only [decodeMaj23, R_29_3, R_12_4, R_11_1, R_26_3, R_21_5, R_16_5, R_8_3, c4_1_1_4, c4_1_0_1]
    exact fmt (hw) (cons rfl (cons rfl nil))
theorem mswap (l : BitVec 3) : Statement (.mswap l) := by
  refine of32 (w := (fR 2 0 0 0 0 l 35)) (e11 rfl) (lowR ..) (fun hw => ?_) rfl
  rw [maj23 (R_2_6 ..)]
  simp only [decodeMaj23, R_29_3, R_16_5, R_21_5, R_11_1, R_26_3, R_12_4, R_8_3]
  exact (cons rfl (cons rfl (cons rfl (cons rfl (cons rfl nil)))))
theorem mscale (m : Bool) (a : BitVec 5) (l : BitVec 3) : Statement (.mscale m a l) := by
  cases m
  case false =>
    refine of32 (w := (fR 3 0 0 a 0 l 35)) (e62 rfl) (lowR ..) (fun hw => ?_) rfl
    rw [maj23 (R_2_6 ..)]
    simp only [decodeMaj23, R_29_3, R_21_5, R_11_1, R_26_3, R_12_4, R_26_1, R_16_5, R_8_3]
    exact (cons rfl (cons rfl (cons rfl (cons rfl nil))))
  case true =>
    refine of32 (w := (fR 3 1 0 a 0 l 35)) (e63 rfl) (lowR ..) (fun hw => ?_) rfl
    rw [maj23 (R_2_6 ..)]
    simp only [decodeMaj23, R_29_3, R_21_5, R_11_1, R_26_3, R_12_4, R_26_1, R_16_5, R_8_3]
    exact (cons rfl (cons rfl (cons rfl (cons rfl nil))))
theorem mzero (z : BitVec 1) (l : BitVec 3) : Statement (.mzero z l) := by
  refine of32 (w := (fR 4 0 0 0 (z.setWidth 5) l 35)) (e64 rfl) (lowR ..) (fun hw => ?_) rfl
  rw [maj23 (R_2_6 ..)]
  simp only [decodeMaj23, R_29_3, R_16_5, R_21_5, R_26_3, R_12_4, R_11_1, R_8_3, n1_5_1_4, n1_5_0_1]
  exact (cons rfl (cons rfl (cons rfl (cons rfl nil))))
theorem mquad (a : BitVec 5) (l : BitVec 3) : Statement (.mquad a l) := by
  refine of32 (w := (fR 5 0 0 a 0 l 35)) (e10 rfl) (lowR ..) (fun hw => ?_) rfl
  rw [maj23 (R_2_6 ..)]
  simp only [decodeMaj23, R_29_3, R_21_5, R_11_1, R_26_3, R_12_4, R_16_5, R_8_3]
  exact (cons rfl (cons rfl (cons rfl (cons rfl nil))))
theorem mma (m : Bool) (b : BitVec 5) (a : BitVec 5) (e : Fmt) (z : BitVec 1) (l : BitVec 3) : Statement (.mma m b a e z l) := by
  cases m
  case false =>
    refine of32 (w := (fR 0 0 b a (e.code ++ z) l 36)) (e65 rfl) (lowR ..) (fun hw => ?_) rfl
    rw [maj24 (R_2_6 ..)]
    simp only [decodeMaj24, R_29_3, R_12_4, R_26_3, R_26_1, R_20_1, R_16_5, R_21_5, R_11_1, R_8_3, c4_1_1_4, c4_1_0_1]
    exact fmt (and1 hw) (cons rfl (cons rfl nil))
  case true =>
    refine of32 (w := (fR 0 1 b a (e.code ++ z) l 36)) (e66 rfl) (lowR ..) (fun hw => ?_) rfl
    rw [maj24 (R_2_6 ..)]
    simp only [decodeMaj24, R_29_3, R_12_4, R_26_3, R_26_1, R_20_1, R_16_5, R_21_5, R_11_1, R_8_3, c4_1_1_4, c4_1_0_1]
    exact fmt (and1 hw) (cons rfl (cons (low (and2 hw)) nil))
theorem mmas (m : Bool) (b : BitVec 5) (a : BitVec 5) (e : Fmt) (z : BitVec 1) (l : BitVec 3) : Statement (.mmas m b a e z l) := by
  cases m
  case false =>
    refine of32 (w := (fR 1 0 b a (e.code ++ z) l 36)) (e65 rfl) (lowR ..) (fun hw => ?_) rfl
    rw [maj24 (R_2_6 ..)]
    simp only [decodeMaj24, R_29_3, R_12_4, R_26_3, R_26_1, R_20_1, R_16_5, R_21_5, R_11_1, R_8_3, c4_1_1_4, c4_1_0_1]
    exact fmt (and1 hw) (cons rfl (cons rfl nil))
  case true =>
    refine of32 (w := (fR 1 1 b a (e.code ++ z) l 36)) (e66 rfl) (lowR ..) (fun hw => ?_) rfl
    rw [maj24 (R_2_6 ..)]
    simp only [decodeMaj24, R_29_3, R_12_4, R_26_3, R_26_1, R_20_1, R_16_5, R_21_5, R_11_1, R_8_3, c4_1_1_4, c4_1_0_1]
    exact fmt (and1 hw) (cons rfl (cons (low (and2 hw)) nil))
theorem moutl (b : BitVec 5) (a : BitVec 5) (e : Fmt) (z : BitVec 1) (l : BitVec 3) : Statement (.moutl b a e z l) := by
  refine of32 (w := (fR 2 0 b a (e.code ++ z) l 36)) (e67 rfl) (lowR ..) (fun hw => ?_) rfl
  rw [maj24 (R_2_6 ..)]
  simp only [decodeMaj24, R_29_3, R_12_4, R_26_3, R_21_5, R_16_5, R_11_1, R_8_3, c4_1_1_4, c4_1_0_1]
  exact fmt (hw) (cons rfl nil)
theorem mrdz (m : Bool) (b : BitVec 5) (a : BitVec 5) (e : Fmt) (z : BitVec 1) (l : BitVec 3) : Statement (.mrdz m b a e z l) := by
  cases m
  case false =>
    refine of32 (w := (fR 0 0 b a (e.code ++ z) l 37)) (e65 rfl) (lowR ..) (fun hw => ?_) rfl
    rw [maj25 (R_2_6 ..)]
    simp only [decodeMaj25, R_29_3, R_12_4, R_26_3, R_26_1, R_21_5, R_16_5, R_11_1, R_8_3, c4_1_1_4, c4_1_0_1]
    exact fmt (hw) (cons rfl nil)
  case true =>
    refine of32 (w := (fR 0 1 b a (e.code ++ z) l 37)) (e66 rfl) (lowR ..) (fun hw => ?_) rfl
    rw [maj25 (R_2_6 ..)]
    simp only [decodeMaj25, R_29_3, R_12_4, R_26_3, R_26_1, R_21_5, R_16_5, R_11_1, R_8_3, c4_1_1_4, c4_1_0_1]
    exact fmt (hw) (cons rfl nil)
theorem mstz (m : Bool) (b : BitVec 5) (a : BitVec 5) (e : Fmt) (z : BitVec 1) (l : BitVec 3) : Statement (.mstz m b a e z l) := by
  cases m
  case false =>
    refine of32 (w := (fR 1 0 b a (e.code ++ z) l 37)) (e65 rfl) (lowR ..) (fun hw => ?_) rfl
    rw [maj25 (R_2_6 ..)]
    simp only [decodeMaj25, R_29_3, R_12_4, R_26_3, R_26_1, R_21_5, R_16_5, R_11_1, R_8_3, c4_1_1_4, c4_1_0_1]
    exact fmt (hw) (cons rfl nil)
  case true =>
    refine of32 (w := (fR 1 1 b a (e.code ++ z) l 37)) (e66 rfl) (lowR ..) (fun hw => ?_) rfl
    rw [maj25 (R_2_6 ..)]
    simp only [decodeMaj25, R_29_3, R_12_4, R_26_3, R_26_1, R_21_5, R_16_5, R_11_1, R_8_3, c4_1_1_4, c4_1_0_1]
    exact fmt (hw) (cons rfl nil)
theorem mdrain (t : BitVec 2) (m : Bool) (b : BitVec 5) (a : BitVec 5) (e : Fmt) (z : BitVec 1) (l : BitVec 3) : Statement (.mdrain t m b a e z l) := by
  cases m
  case false =>
    refine of32 (w := (fR 2 (t ++ 0#1) b a (e.code ++ z) l 37)) (e68 rfl) (lowR ..) (fun hw => ?_) rfl
    rw [maj25 (R_2_6 ..)]
    simp only [decodeMaj25, R_29_3, R_12_4, R_27_2, R_26_1, R_21_5, R_16_5, R_11_1, R_8_3, c2_1_1_2, c2_1_0_1, c4_1_1_4, c4_1_0_1]
    exact fmt (hw) nil
  case true =>
    refine of32 (w := (fR 2 (t ++ 1#1) b a (e.code ++ z) l 37)) (e69 rfl) (lowR ..) (fun hw => ?_) rfl
    rw [maj25 (R_2_6 ..)]
    simp only [decodeMaj25, R_29_3, R_12_4, R_27_2, R_26_1, R_21_5, R_16_5, R_11_1, R_8_3, c2_1_1_2, c2_1_0_1, c4_1_1_4, c4_1_0_1]
    exact fmt (hw) nil
theorem mwait (z : BitVec 1) (l : BitVec 3) : Statement (.mwait z l) := by
  refine of32 (w := (fR 3 0 0 0 (z.setWidth 5) l 37)) (e64 rfl) (lowR ..) (fun hw => ?_) rfl
  rw [maj25 (R_2_6 ..)]
  simp only [decodeMaj25, R_29_3, R_16_5, R_21_5, R_26_3, R_12_4, R_11_1, R_8_3, n1_5_1_4, n1_5_0_1]
  exact (cons rfl (cons rfl (cons rfl (cons rfl nil))))
theorem tlrdef (a : BitVec 5) (d : BitVec 5) (l : BitVec 3) : Statement (.tlrdef a d l) := by
  refine of32 (w := (fR 0 0 0 a d l 38)) (e2 rfl) (lowR ..) (fun hw => ?_) rfl
  rw [maj26 (R_2_6 ..)]
  simp only [decodeMaj26, R_29_3, R_21_5, R_26_3, R_16_5, R_11_5, R_8_3]
  exact (cons rfl (cons rfl nil))
theorem tlrfree (a : BitVec 5) (d : BitVec 5) (l : BitVec 3) : Statement (.tlrfree a d l) := by
  refine of32 (w := (fR 1 0 0 a d l 38)) (e2 rfl) (lowR ..) (fun hw => ?_) rfl
  rw [maj26 (R_2_6 ..)]
  simp only [decodeMaj26, R_29_3, R_21_5, R_26_3, R_16_5, R_11_5, R_8_3]
  exact (cons rfl (cons rfl nil))
theorem copy (a : BitVec 5) (d : BitVec 5) (l : BitVec 3) : Statement (.copy a d l) := by
  refine of32 (w := (fR 2 0 0 a d l 38)) (e2 rfl) (lowR ..) (fun hw => ?_) rfl
  rw [maj26 (R_2_6 ..)]
  simp only [decodeMaj26, R_29_3, R_21_5, R_26_3, R_16_5, R_11_5, R_8_3]
  exact (cons rfl (cons rfl nil))
theorem copyf (a : BitVec 5) (d : BitVec 5) (l : BitVec 3) : Statement (.copyf a d l) := by
  refine of32 (w := (fR 3 0 0 a d l 38)) (e2 rfl) (lowR ..) (fun hw => ?_) rfl
  rw [maj26 (R_2_6 ..)]
  simp only [decodeMaj26, R_29_3, R_21_5, R_26_3, R_16_5, R_11_5, R_8_3]
  exact (cons rfl (cons rfl nil))
theorem cpatch (b : BitVec 5) (a : BitVec 5) (d : BitVec 5) (l : BitVec 3) : Statement (.cpatch b a d l) := by
  refine of32 (w := (fR 4 0 b a d l 38)) (e1 rfl) (lowR ..) (fun hw => ?_) rfl
  rw [maj26 (R_2_6 ..)]
  simp only [decodeMaj26, R_29_3, R_26_3, R_21_5, R_16_5, R_11_5, R_8_3]
  exact (cons rfl nil)
theorem copyq (a : BitVec 5) (d : BitVec 5) (l : BitVec 3) : Statement (.copyq a d l) := by
  refine of32 (w := (fR 5 0 0 a d l 38)) (e2 rfl) (lowR ..) (fun hw => ?_) rfl
  rw [maj26 (R_2_6 ..)]
  simp only [decodeMaj26, R_29_3, R_21_5, R_26_3, R_16_5, R_11_5, R_8_3]
  exact (cons rfl (cons rfl nil))
theorem ccancel (a : BitVec 5) (d : BitVec 5) (l : BitVec 3) : Statement (.ccancel a d l) := by
  refine of32 (w := (fR 6 0 0 a d l 38)) (e2 rfl) (lowR ..) (fun hw => ?_) rfl
  rw [maj26 (R_2_6 ..)]
  simp only [decodeMaj26, R_29_3, R_21_5, R_26_3, R_16_5, R_11_5, R_8_3]
  exact (cons rfl (cons rfl nil))
theorem pft (b : BitVec 5) (a : BitVec 5) (l : BitVec 3) : Statement (.pft b a l) := by
  refine of32 (w := (fR 7 0 b a 0 l 38)) (e14 rfl) (lowR ..) (fun hw => ?_) rfl
  rw [maj26 (R_2_6 ..)]
  simp only [decodeMaj26, R_29_3, R_11_5, R_26_3, R_21_5, R_16_5, R_8_3]
  exact (cons rfl (cons rfl nil))
theorem bbinit (b : BitVec 5) (a : BitVec 5) (d : BitVec 5) (l : BitVec 3) : Statement (.bbinit b a d l) := by
  refine of32 (w := (fR 0 0 b a d l 39)) (e1 rfl) (lowR ..) (fun hw => ?_) rfl
  rw [maj27 (R_2_6 ..)]
  simp only [decodeMaj27, R_29_3, R_26_3, R_21_5, R_16_5, R_11_5, R_8_3]
  exact (cons rfl nil)
theorem bget (b : BitVec 5) (a : BitVec 5) (d : BitVec 5) (l : BitVec 3) : Statement (.bget b a d l) := by
  refine of32 (w := (fR 1 0 b a d l 39)) (e1 rfl) (lowR ..) (fun hw => ?_) rfl
  rw [maj27 (R_2_6 ..)]
  simp only [decodeMaj27, R_29_3, R_26_3, R_21_5, R_16_5, R_11_5, R_8_3]
  exact (cons rfl nil)
theorem bpeek (b : BitVec 5) (d : BitVec 5) (l : BitVec 3) : Statement (.bpeek b d l) := by
  refine of32 (w := (fR 2 0 b 0 d l 39)) (e70 rfl) (lowR ..) (fun hw => ?_) rfl
  rw [maj27 (R_2_6 ..)]
  simp only [decodeMaj27, R_29_3, R_16_5, R_26_3, R_21_5, R_11_5, R_8_3]
  exact (cons rfl (cons rfl nil))
theorem bskip (b : BitVec 5) (a : BitVec 5) (l : BitVec 3) : Statement (.bskip b a l) := by
  refine of32 (w := (fR 3 0 b a 0 l 39)) (e14 rfl) (lowR ..) (fun hw => ?_) rfl
  rw [maj27 (R_2_6 ..)]
  simp only [decodeMaj27, R_29_3, R_11_5, R_26_3, R_21_5, R_16_5, R_8_3]
  exact (cons rfl (cons rfl nil))
theorem bput (b : BitVec 5) (a : BitVec 5) (d : BitVec 5) (l : BitVec 3) : Statement (.bput b a d l) := by
  refine of32 (w := (fR 4 0 b a d l 39)) (e1 rfl) (lowR ..) (fun hw => ?_) rfl
  rw [maj27 (R_2_6 ..)]
  simp only [decodeMaj27, R_29_3, R_26_3, R_21_5, R_16_5, R_11_5, R_8_3]
  exact (cons rfl nil)
theorem bflush (a : BitVec 5) (d : BitVec 5) (l : BitVec 3) : Statement (.bflush a d l) := by
  refine of32 (w := (fR 5 0 0 a d l 39)) (e2 rfl) (lowR ..) (fun hw => ?_) rfl
  rw [maj27 (R_2_6 ..)]
  simp only [decodeMaj27, R_29_3, R_21_5, R_26_3, R_16_5, R_11_5, R_8_3]
  exact (cons rfl (cons rfl nil))
theorem bgetx (b : BitVec 5) (a : BitVec 5) (d : BitVec 5) (l : BitVec 3) : Statement (.bgetx b a d l) := by
  refine of32 (w := (fR 6 0 b a d l 39)) (e1 rfl) (lowR ..) (fun hw => ?_) rfl
  rw [maj27 (R_2_6 ..)]
  simp only [decodeMaj27, R_29_3, R_26_3, R_21_5, R_16_5, R_11_5, R_8_3]
  exact (cons rfl nil)
theorem bbpos (d : BitVec 5) (l : BitVec 3) : Statement (.bbpos d l) := by
  refine of32 (w := (fR 7 0 0 0 d l 39)) (e15 rfl) (lowR ..) (fun hw => ?_) rfl
  rw [maj27 (R_2_6 ..)]
  simp only [decodeMaj27, R_29_3, R_16_5, R_21_5, R_26_3, R_11_5, R_8_3]
  exact (cons rfl (cons rfl (cons rfl nil)))
theorem sealg (a : BitVec 5) (d : BitVec 5) (l : BitVec 3) : Statement (.sealg a d l) := by
  refine of32 (w := (fR 0 0 0 a d l 40)) (e2 rfl) (lowR ..) (fun hw => ?_) rfl
  rw [maj28 (R_2_6 ..)]
  simp only [decodeMaj28, R_29_3, R_21_5, R_26_3, R_16_5, R_11_5, R_8_3]
  exact (cons rfl (cons rfl nil))
theorem sealset (b : BitVec 5) (d : BitVec 5) (l : BitVec 3) : Statement (.sealset b d l) := by
  refine of32 (w := (fR 1 0 b 0 d l 40)) (e70 rfl) (lowR ..) (fun hw => ?_) rfl
  rw [maj28 (R_2_6 ..)]
  simp only [decodeMaj28, R_29_3, R_16_5, R_26_3, R_21_5, R_11_5, R_8_3]
  exact (cons rfl (cons rfl nil))
theorem sealchk (a : BitVec 5) (d : BitVec 5) (l : BitVec 3) : Statement (.sealchk a d l) := by
  refine of32 (w := (fR 2 0 0 a d l 40)) (e2 rfl) (lowR ..) (fun hw => ?_) rfl
  rw [maj28 (R_2_6 ..)]
  simp only [decodeMaj28, R_29_3, R_21_5, R_26_3, R_16_5, R_11_5, R_8_3]
  exact (cons rfl (cons rfl nil))
theorem poison (d : BitVec 5) (l : BitVec 3) : Statement (.poison d l) := by
  refine of32 (w := (fR 3 0 0 0 d l 40)) (e15 rfl) (lowR ..) (fun hw => ?_) rfl
  rw [maj28 (R_2_6 ..)]
  simp only [decodeMaj28, R_29_3, R_16_5, R_21_5, R_26_3, R_11_5, R_8_3]
  exact (cons rfl (cons rfl (cons rfl nil)))
theorem sealmode (a : BitVec 5) (d : BitVec 5) (l : BitVec 3) : Statement (.sealmode a d l) := by
  refine of32 (w := (fR 4 0 0 a d l 40)) (e2 rfl) (lowR ..) (fun hw => ?_) rfl
  rw [maj28 (R_2_6 ..)]
  simp only [decodeMaj28, R_29_3, R_21_5, R_26_3, R_16_5, R_11_5, R_8_3]
  exact (cons rfl (cons rfl nil))
theorem csrr (c : Csr) (d : BitVec 5) (l : BitVec 3) : Statement (.csrr c d l) := by
  refine of32 (w := (fM 0 c.num 0 d l 41)) (e71 rfl) (lowM ..) (fun hw => ?_) rfl
  rw [maj29 (M_2_6 ..)]
  simp only [decodeMaj29, M_29_3, M_16_5, M_11_5, M_8_3]
  exact csr (M_21_8 ..) (cons rfl nil)
theorem csrw (c : Csr) (a : BitVec 5) (d : BitVec 5) (l : BitVec 3) : Statement (.csrw c a d l) := by
  refine of32 (w := (fM 1 c.num a d l 41)) (e72 rfl) (lowM ..) (fun hw => ?_) rfl
  rw [maj29 (M_2_6 ..)]
  simp only [decodeMaj29, M_29_3, M_16_5, M_11_5, M_8_3]
  exact csr (M_21_8 ..) nil
theorem csrs (c : Csr) (a : BitVec 5) (d : BitVec 5) (l : BitVec 3) : Statement (.csrs c a d l) := by
  refine of32 (w := (fM 2 c.num a d l 41)) (e72 rfl) (lowM ..) (fun hw => ?_) rfl
  rw [maj29 (M_2_6 ..)]
  simp only [decodeMaj29, M_29_3, M_16_5, M_11_5, M_8_3]
  exact csr (M_21_8 ..) nil
theorem csrc (c : Csr) (a : BitVec 5) (d : BitVec 5) (l : BitVec 3) : Statement (.csrc c a d l) := by
  refine of32 (w := (fM 3 c.num a d l 41)) (e72 rfl) (lowM ..) (fun hw => ?_) rfl
  rw [maj29 (M_2_6 ..)]
  simp only [decodeMaj29, M_29_3, M_16_5, M_11_5, M_8_3]
  exact csr (M_21_8 ..) nil
theorem gstop (a : BitVec 5) (d : BitVec 5) (l : BitVec 3) : Statement (.gstop a d l) := by
  refine of32 (w := (fR 0 0 0 a d l 42)) (e2 rfl) (lowR ..) (fun hw => ?_) rfl
  rw [maj2A (R_2_6 ..)]
  simp only [decodeMaj2A, R_29_3, R_21_5, R_26_3, R_16_5, R_11_5, R_8_3]
  exact (cons rfl (cons rfl nil))
theorem gresume (a : BitVec 5) (d : BitVec 5) (l : BitVec 3) : Statement (.gresume a d l) := by
  refine of32 (w := (fR 1 0 0 a d l 42)) (e2 rfl) (lowR ..) (fun hw => ?_) rfl
  rw [maj2A (R_2_6 ..)]
  simp only [decodeMaj2A, R_29_3, R_21_5, R_26_3, R_16_5, R_11_5, R_8_3]
  exact (cons rfl (cons rfl nil))
theorem ctxsave (b : BitVec 5) (a : BitVec 5) (d : BitVec 5) (l : BitVec 3) : Statement (.ctxsave b a d l) := by
  refine of32 (w := (fR 2 0 b a d l 42)) (e1 rfl) (lowR ..) (fun hw => ?_) rfl
  rw [maj2A (R_2_6 ..)]
  simp only [decodeMaj2A, R_29_3, R_26_3, R_21_5, R_16_5, R_11_5, R_8_3]
  exact (cons rfl nil)
theorem ctxload (b : BitVec 5) (a : BitVec 5) (d : BitVec 5) (l : BitVec 3) : Statement (.ctxload b a d l) := by
  refine of32 (w := (fR 3 0 b a d l 42)) (e1 rfl) (lowR ..) (fun hw => ?_) rfl
  rw [maj2A (R_2_6 ..)]
  simp only [decodeMaj2A, R_29_3, R_26_3, R_21_5, R_16_5, R_11_5, R_8_3]
  exact (cons rfl nil)
theorem evict (b : BitVec 5) (a : BitVec 5) (d : BitVec 5) (l : BitVec 3) : Statement (.evict b a d l) := by
  refine of32 (w := (fR 4 0 b a d l 42)) (e1 rfl) (lowR ..) (fun hw => ?_) rfl
  rw [maj2A (R_2_6 ..)]
  simp only [decodeMaj2A, R_29_3, R_26_3, R_21_5, R_16_5, R_11_5, R_8_3]
  exact (cons rfl nil)
theorem restore (b : BitVec 5) (a : BitVec 5) (d : BitVec 5) (l : BitVec 3) : Statement (.restore b a d l) := by
  refine of32 (w := (fR 5 0 b a d l 42)) (e1 rfl) (lowR ..) (fun hw => ?_) rfl
  rw [maj2A (R_2_6 ..)]
  simp only [decodeMaj2A, R_29_3, R_26_3, R_21_5, R_16_5, R_11_5, R_8_3]
  exact (cons rfl nil)
theorem tret (a : BitVec 5) (l : BitVec 3) : Statement (.tret a l) := by
  refine of32 (w := (fR 6 0 0 a 0 l 42)) (e10 rfl) (lowR ..) (fun hw => ?_) rfl
  rw [maj2A (R_2_6 ..)]
  simp only [decodeMaj2A, R_29_3, R_11_5, R_21_5, R_26_3, R_16_5, R_8_3]
  exact (cons rfl (cons rfl (cons rfl nil)))
theorem tlbinv (b : BitVec 5) (a : BitVec 5) (d : BitVec 5) (l : BitVec 3) : Statement (.tlbinv b a d l) := by
  refine of32 (w := (fR 0 0 b a d l 43)) (e1 rfl) (lowR ..) (fun hw => ?_) rfl
  rw [maj2B (R_2_6 ..)]
  simp only [decodeMaj2B, R_29_3, R_26_3, R_21_5, R_16_5, R_11_5, R_8_3]
  exact (cons rfl nil)
theorem tlbinva (a : BitVec 5) (d : BitVec 5) (l : BitVec 3) : Statement (.tlbinva a d l) := by
  refine of32 (w := (fR 1 0 0 a d l 43)) (e2 rfl) (lowR ..) (fun hw => ?_) rfl
  rw [maj2B (R_2_6 ..)]
  simp only [decodeMaj2B, R_29_3, R_21_5, R_26_3, R_16_5, R_11_5, R_8_3]
  exact (cons rfl (cons rfl nil))
theorem xbset (a : BitVec 5) (d : BitVec 5) (l : BitVec 3) : Statement (.xbset a d l) := by
  refine of32 (w := (fR 2 0 0 a d l 43)) (e2 rfl) (lowR ..) (fun hw => ?_) rfl
  rw [maj2B (R_2_6 ..)]
  simp only [decodeMaj2B, R_29_3, R_21_5, R_26_3, R_16_5, R_11_5, R_8_3]
  exact (cons rfl (cons rfl nil))
theorem pageq (a : BitVec 5) (d : BitVec 5) (l : BitVec 3) : Statement (.pageq a d l) := by
  refine of32 (w := (fR 3 0 0 a d l 43)) (e2 rfl) (lowR ..) (fun hw => ?_) rfl
  rw [maj2B (R_2_6 ..)]
  simp only [decodeMaj2B, R_29_3, R_21_5, R_26_3, R_16_5, R_11_5, R_8_3]
  exact (cons rfl (cons rfl nil))
theorem amapset (b : BitVec 5) (a : BitVec 5) (d : BitVec 5) (l : BitVec 3) : Statement (.amapset b a d l) := by
  refine of32 (w := (fR 4 0 b a d l 43)) (e1 rfl) (lowR ..) (fun hw => ?_) rfl
  rw [maj2B (R_2_6 ..)]
  simp only [decodeMaj2B, R_29_3, R_26_3, R_21_5, R_16_5, R_11_5, R_8_3]
  exact (cons rfl nil)
theorem cMov (a : BitVec 5) (d : BitVec 5) : Statement (.cMov a d) := by
  have b0 := a.isLt
  have b1 := d.isLt
  refine of16 (w := BitVec.ofNat 16 (0x4 + a.toNat * 2 ^ 11 + d.toNat * 2 ^ 6)) rfl (fld16_eq (v := 0) (by decide) (by change _ = 0; omega)) ?_ rfl
  simp only [decode16, (fld16_eq (v := 0) (by decide) (by change _ = 0; omega) : fld16 (BitVec.ofNat 16 (0x4 + a.toNat * 2 ^ 11 + d.toNat * 2 ^ 6)) 0 2 = 0),
    (fld16_eq (v := 1) (by decide) (by change _ = 1; omega) : fld16 (BitVec.ofNat 16 (0x4 + a.toNat * 2 ^ 11 + d.toNat * 2 ^ 6)) 2 4 = 1),
    (fld16_eq (by decide) (by omega) : fld16 (BitVec.ofNat 16 (0x4 + a.toNat * 2 ^ 11 + d.toNat * 2 ^ 6)) 11 5 = a),
    (fld16_eq (by decide) (by omega) : fld16 (BitVec.ofNat 16 (0x4 + a.toNat * 2 ^ 11 + d.toNat * 2 ^ 6)) 6 5 = d)]
  rfl
theorem cAddi (i : BitVec 5) (d : BitVec 5) : Statement (.cAddi i d) := by
  have b0 := i.isLt
  have b1 := d.isLt
  refine of16 (w := BitVec.ofNat 16 (0x8 + i.toNat * 2 ^ 11 + d.toNat * 2 ^ 6)) rfl (fld16_eq (v := 0) (by decide) (by change _ = 0; omega)) ?_ rfl
  simp only [decode16, (fld16_eq (v := 0) (by decide) (by change _ = 0; omega) : fld16 (BitVec.ofNat 16 (0x8 + i.toNat * 2 ^ 11 + d.toNat * 2 ^ 6)) 0 2 = 0),
    (fld16_eq (v := 2) (by decide) (by change _ = 2; omega) : fld16 (BitVec.ofNat 16 (0x8 + i.toNat * 2 ^ 11 + d.toNat * 2 ^ 6)) 2 4 = 2),
    (fld16_eq (by decide) (by omega) : fld16 (BitVec.ofNat 16 (0x8 + i.toNat * 2 ^ 11 + d.toNat * 2 ^ 6)) 11 5 = i),
    (fld16_eq (by decide) (by omega) : fld16 (BitVec.ofNat 16 (0x8 + i.toNat * 2 ^ 11 + d.toNat * 2 ^ 6)) 6 5 = d)]
  rfl
theorem cLi (i : BitVec 5) (d : BitVec 5) : Statement (.cLi i d) := by
  have b0 := i.isLt
  have b1 := d.isLt
  refine of16 (w := BitVec.ofNat 16 (0xC + i.toNat * 2 ^ 11 + d.toNat * 2 ^ 6)) rfl (fld16_eq (v := 0) (by decide) (by change _ = 0; omega)) ?_ rfl
  simp only [decode16, (fld16_eq (v := 0) (by decide) (by change _ = 0; omega) : fld16 (BitVec.ofNat 16 (0xC + i.toNat * 2 ^ 11 + d.toNat * 2 ^ 6)) 0 2 = 0),
    (fld16_eq (v := 3) (by decide) (by change _ = 3; omega) : fld16 (BitVec.ofNat 16 (0xC + i.toNat * 2 ^ 11 + d.toNat * 2 ^ 6)) 2 4 = 3),
    (fld16_eq (by decide) (by omega) : fld16 (BitVec.ofNat 16 (0xC + i.toNat * 2 ^ 11 + d.toNat * 2 ^ 6)) 11 5 = i),
    (fld16_eq (by decide) (by omega) : fld16 (BitVec.ofNat 16 (0xC + i.toNat * 2 ^ 11 + d.toNat * 2 ^ 6)) 6 5 = d)]
  rfl
theorem cLdl (a : BitVec 5) (d : BitVec 5) : Statement (.cLdl a d) := by
  have b0 := a.isLt
  have b1 := d.isLt
  refine of16 (w := BitVec.ofNat 16 (0x10 + a.toNat * 2 ^ 11 + d.toNat * 2 ^ 6)) rfl (fld16_eq (v := 0) (by decide) (by change _ = 0; omega)) ?_ rfl
  simp only [decode16, (fld16_eq (v := 0) (by decide) (by change _ = 0; omega) : fld16 (BitVec.ofNat 16 (0x10 + a.toNat * 2 ^ 11 + d.toNat * 2 ^ 6)) 0 2 = 0),
    (fld16_eq (v := 4) (by decide) (by change _ = 4; omega) : fld16 (BitVec.ofNat 16 (0x10 + a.toNat * 2 ^ 11 + d.toNat * 2 ^ 6)) 2 4 = 4),
    (fld16_eq (by decide) (by omega) : fld16 (BitVec.ofNat 16 (0x10 + a.toNat * 2 ^ 11 + d.toNat * 2 ^ 6)) 11 5 = a),
    (fld16_eq (by decide) (by omega) : fld16 (BitVec.ofNat 16 (0x10 + a.toNat * 2 ^ 11 + d.toNat * 2 ^ 6)) 6 5 = d)]
  rfl
theorem cStl (a : BitVec 5) (b : BitVec 5) : Statement (.cStl a b) := by
  have b0 := a.isLt
  have b1 := b.isLt
  refine of16 (w := BitVec.ofNat 16 (0x14 + a.toNat * 2 ^ 11 + b.toNat * 2 ^ 6)) rfl (fld16_eq (v := 0) (by decide) (by change _ = 0; omega)) ?_ rfl
  simp only [decode16, (fld16_eq (v := 0) (by decide) (by change _ = 0; omega) : fld16 (BitVec.ofNat 16 (0x14 + a.toNat * 2 ^ 11 + b.toNat * 2 ^ 6)) 0 2 = 0),
    (fld16_eq (v := 5) (by decide) (by change _ = 5; omega) : fld16 (BitVec.ofNat 16 (0x14 + a.toNat * 2 ^ 11 + b.toNat * 2 ^ 6)) 2 4 = 5),
    (fld16_eq (by decide) (by omega) : fld16 (BitVec.ofNat 16 (0x14 + a.toNat * 2 ^ 11 + b.toNat * 2 ^ 6)) 11 5 = a),
    (fld16_eq (by decide) (by omega) : fld16 (BitVec.ofNat 16 (0x14 + a.toNat * 2 ^ 11 + b.toNat * 2 ^ 6)) 6 5 = b)]
  rfl
theorem cBeqz (o : BitVec 5) (a : BitVec 5) : Statement (.cBeqz o a) := by
  have b0 := o.isLt
  have b1 := a.isLt
  refine of16 (w := BitVec.ofNat 16 (0x18 + o.toNat * 2 ^ 11 + a.toNat * 2 ^ 6)) rfl (fld16_eq (v := 0) (by decide) (by change _ = 0; omega)) ?_ rfl
  simp only [decode16, (fld16_eq (v := 0) (by decide) (by change _ = 0; omega) : fld16 (BitVec.ofNat 16 (0x18 + o.toNat * 2 ^ 11 + a.toNat * 2 ^ 6)) 0 2 = 0),
    (fld16_eq (v := 6) (by decide) (by change _ = 6; omega) : fld16 (BitVec.ofNat 16 (0x18 + o.toNat * 2 ^ 11 + a.toNat * 2 ^ 6)) 2 4 = 6),
    (fld16_eq (by decide) (by omega) : fld16 (BitVec.ofNat 16 (0x18 + o.toNat * 2 ^ 11 + a.toNat * 2 ^ 6)) 11 5 = o),
    (fld16_eq (by decide) (by omega) : fld16 (BitVec.ofNat 16 (0x18 + o.toNat * 2 ^ 11 + a.toNat * 2 ^ 6)) 6 5 = a)]
  rfl
theorem cBnez (o : BitVec 5) (a : BitVec 5) : Statement (.cBnez o a) := by
  have b0 := o.isLt
  have b1 := a.isLt
  refine of16 (w := BitVec.ofNat 16 (0x1C + o.toNat * 2 ^ 11 + a.toNat * 2 ^ 6)) rfl (fld16_eq (v := 0) (by decide) (by change _ = 0; omega)) ?_ rfl
  simp only [decode16, (fld16_eq (v := 0) (by decide) (by change _ = 0; omega) : fld16 (BitVec.ofNat 16 (0x1C + o.toNat * 2 ^ 11 + a.toNat * 2 ^ 6)) 0 2 = 0),
    (fld16_eq (v := 7) (by decide) (by change _ = 7; omega) : fld16 (BitVec.ofNat 16 (0x1C + o.toNat * 2 ^ 11 + a.toNat * 2 ^ 6)) 2 4 = 7),
    (fld16_eq (by decide) (by omega) : fld16 (BitVec.ofNat 16 (0x1C + o.toNat * 2 ^ 11 + a.toNat * 2 ^ 6)) 11 5 = o),
    (fld16_eq (by decide) (by omega) : fld16 (BitVec.ofNat 16 (0x1C + o.toNat * 2 ^ 11 + a.toNat * 2 ^ 6)) 6 5 = a)]
  rfl
theorem cJ (o : BitVec 10) : Statement (.cJ o) := by
  have b0 := o.isLt
  refine of16 (w := BitVec.ofNat 16 (0x20 + o.toNat * 2 ^ 6)) rfl (fld16_eq (v := 0) (by decide) (by change _ = 0; omega)) ?_ rfl
  simp only [decode16, (fld16_eq (v := 0) (by decide) (by change _ = 0; omega) : fld16 (BitVec.ofNat 16 (0x20 + o.toNat * 2 ^ 6)) 0 2 = 0),
    (fld16_eq (v := 8) (by decide) (by change _ = 8; omega) : fld16 (BitVec.ofNat 16 (0x20 + o.toNat * 2 ^ 6)) 2 4 = 8),
    (fld16_eq (by decide) (by omega) : fld16 (BitVec.ofNat 16 (0x20 + o.toNat * 2 ^ 6)) 6 10 = o)]
  rfl
theorem cEnd : Statement (.cEnd) := by
  refine of16 (w := BitVec.ofNat 16 (0x24)) rfl (fld16_eq (v := 0) (by decide) (by change _ = 0; omega)) ?_ rfl
  simp only [decode16, (fld16_eq (v := 0) (by decide) (by change _ = 0; omega) : fld16 (BitVec.ofNat 16 (0x24)) 0 2 = 0),
    (fld16_eq (v := 9) (by decide) (by change _ = 9; omega) : fld16 (BitVec.ofNat 16 (0x24)) 2 4 = 9),
    (fld16_eq (v := 0) (by decide) (by change _ = 0; omega) : fld16 (BitVec.ofNat 16 (0x24)) 11 5 = 0),
    (fld16_eq (v := 0) (by decide) (by change _ = 0; omega) : fld16 (BitVec.ofNat 16 (0x24)) 6 5 = 0)]
  rfl
theorem cRet : Statement (.cRet) := by
  refine of16 (w := BitVec.ofNat 16 (0x28)) rfl (fld16_eq (v := 0) (by decide) (by change _ = 0; omega)) ?_ rfl
  simp only [decode16, (fld16_eq (v := 0) (by decide) (by change _ = 0; omega) : fld16 (BitVec.ofNat 16 (0x28)) 0 2 = 0),
    (fld16_eq (v := 10) (by decide) (by change _ = 10; omega) : fld16 (BitVec.ofNat 16 (0x28)) 2 4 = 10),
    (fld16_eq (v := 0) (by decide) (by change _ = 0; omega) : fld16 (BitVec.ofNat 16 (0x28)) 11 5 = 0),
    (fld16_eq (v := 0) (by decide) (by change _ = 0; omega) : fld16 (BitVec.ofNat 16 (0x28)) 6 5 = 0)]
  rfl
theorem cSpop (s : BitVec 4) (d : BitVec 5) : Statement (.cSpop s d) := by
  have b0 := s.isLt
  have b1 := d.isLt
  refine of16 (w := BitVec.ofNat 16 (0x2C + s.toNat * 2 ^ 11 + d.toNat * 2 ^ 6)) rfl (fld16_eq (v := 0) (by decide) (by change _ = 0; omega)) ?_ rfl
  simp only [decode16, (fld16_eq (v := 0) (by decide) (by change _ = 0; omega) : fld16 (BitVec.ofNat 16 (0x2C + s.toNat * 2 ^ 11 + d.toNat * 2 ^ 6)) 0 2 = 0),
    (fld16_eq (v := 11) (by decide) (by change _ = 11; omega) : fld16 (BitVec.ofNat 16 (0x2C + s.toNat * 2 ^ 11 + d.toNat * 2 ^ 6)) 2 4 = 11),
    (fld16_eq (v := 0) (by decide) (by change _ = 0; omega) : fld16 (BitVec.ofNat 16 (0x2C + s.toNat * 2 ^ 11 + d.toNat * 2 ^ 6)) 15 1 = 0),
    (fld16_eq (by decide) (by omega) : fld16 (BitVec.ofNat 16 (0x2C + s.toNat * 2 ^ 11 + d.toNat * 2 ^ 6)) 11 4 = s),
    (fld16_eq (by decide) (by omega) : fld16 (BitVec.ofNat 16 (0x2C + s.toNat * 2 ^ 11 + d.toNat * 2 ^ 6)) 6 5 = d)]
  rfl
theorem cSpush (s : BitVec 4) (a : BitVec 5) : Statement (.cSpush s a) := by
  have b0 := s.isLt
  have b1 := a.isLt
  refine of16 (w := BitVec.ofNat 16 (0x30 + s.toNat * 2 ^ 11 + a.toNat * 2 ^ 6)) rfl (fld16_eq (v := 0) (by decide) (by change _ = 0; omega)) ?_ rfl
  simp only [decode16, (fld16_eq (v := 0) (by decide) (by change _ = 0; omega) : fld16 (BitVec.ofNat 16 (0x30 + s.toNat * 2 ^ 11 + a.toNat * 2 ^ 6)) 0 2 = 0),
    (fld16_eq (v := 12) (by decide) (by change _ = 12; omega) : fld16 (BitVec.ofNat 16 (0x30 + s.toNat * 2 ^ 11 + a.toNat * 2 ^ 6)) 2 4 = 12),
    (fld16_eq (v := 0) (by decide) (by change _ = 0; omega) : fld16 (BitVec.ofNat 16 (0x30 + s.toNat * 2 ^ 11 + a.toNat * 2 ^ 6)) 15 1 = 0),
    (fld16_eq (by decide) (by omega) : fld16 (BitVec.ofNat 16 (0x30 + s.toNat * 2 ^ 11 + a.toNat * 2 ^ 6)) 11 4 = s),
    (fld16_eq (by decide) (by omega) : fld16 (BitVec.ofNat 16 (0x30 + s.toNat * 2 ^ 11 + a.toNat * 2 ^ 6)) 6 5 = a)]
  rfl
theorem cVmov (a : BitVec 5) (d : BitVec 5) : Statement (.cVmov a d) := by
  have b0 := a.isLt
  have b1 := d.isLt
  refine of16 (w := BitVec.ofNat 16 (0x34 + a.toNat * 2 ^ 11 + d.toNat * 2 ^ 6)) rfl (fld16_eq (v := 0) (by decide) (by change _ = 0; omega)) ?_ rfl
  simp only [decode16, (fld16_eq (v := 0) (by decide) (by change _ = 0; omega) : fld16 (BitVec.ofNat 16 (0x34 + a.toNat * 2 ^ 11 + d.toNat * 2 ^ 6)) 0 2 = 0),
    (fld16_eq (v := 13) (by decide) (by change _ = 13; omega) : fld16 (BitVec.ofNat 16 (0x34 + a.toNat * 2 ^ 11 + d.toNat * 2 ^ 6)) 2 4 = 13),
    (fld16_eq (by decide) (by omega) : fld16 (BitVec.ofNat 16 (0x34 + a.toNat * 2 ^ 11 + d.toNat * 2 ^ 6)) 11 5 = a),
    (fld16_eq (by decide) (by omega) : fld16 (BitVec.ofNat 16 (0x34 + a.toNat * 2 ^ 11 + d.toNat * 2 ^ 6)) 6 5 = d)]
  rfl
theorem cVfmaF32 (b : BitVec 3) (a : BitVec 3) (d : BitVec 3) : Statement (.cVfmaF32 b a d) := by
  have b0 := b.isLt
  have b1 := a.isLt
  have b2 := d.isLt
  refine of16 (w := BitVec.ofNat 16 (0x38 + b.toNat * 2 ^ 12 + a.toNat * 2 ^ 9 + d.toNat * 2 ^ 6)) rfl (fld16_eq (v := 0) (by decide) (by change _ = 0; omega)) ?_ rfl
  simp only [decode16, (fld16_eq (v := 0) (by decide) (by change _ = 0; omega) : fld16 (BitVec.ofNat 16 (0x38 + b.toNat * 2 ^ 12 + a.toNat * 2 ^ 9 + d.toNat * 2 ^ 6)) 0 2 = 0),
    (fld16_eq (v := 14) (by decide) (by change _ = 14; omega) : fld16 (BitVec.ofNat 16 (0x38 + b.toNat * 2 ^ 12 + a.toNat * 2 ^ 9 + d.toNat * 2 ^ 6)) 2 4 = 14),
    (fld16_eq (v := 0) (by decide) (by change _ = 0; omega) : fld16 (BitVec.ofNat 16 (0x38 + b.toNat * 2 ^ 12 + a.toNat * 2 ^ 9 + d.toNat * 2 ^ 6)) 15 1 = 0),
    (fld16_eq (by decide) (by omega) : fld16 (BitVec.ofNat 16 (0x38 + b.toNat * 2 ^ 12 + a.toNat * 2 ^ 9 + d.toNat * 2 ^ 6)) 12 3 = b),
    (fld16_eq (by decide) (by omega) : fld16 (BitVec.ofNat 16 (0x38 + b.toNat * 2 ^ 12 + a.toNat * 2 ^ 9 + d.toNat * 2 ^ 6)) 9 3 = a),
    (fld16_eq (by decide) (by omega) : fld16 (BitVec.ofNat 16 (0x38 + b.toNat * 2 ^ 12 + a.toNat * 2 ^ 9 + d.toNat * 2 ^ 6)) 6 3 = d)]
  rfl
theorem cNop : Statement (.cNop) := by
  refine of16 (w := BitVec.ofNat 16 (0x3C)) rfl (fld16_eq (v := 0) (by decide) (by change _ = 0; omega)) ?_ rfl
  simp only [decode16, (fld16_eq (v := 0) (by decide) (by change _ = 0; omega) : fld16 (BitVec.ofNat 16 (0x3C)) 0 2 = 0),
    (fld16_eq (v := 15) (by decide) (by change _ = 15; omega) : fld16 (BitVec.ofNat 16 (0x3C)) 2 4 = 15),
    (fld16_eq (v := 0) (by decide) (by change _ = 0; omega) : fld16 (BitVec.ofNat 16 (0x3C)) 11 5 = 0),
    (fld16_eq (v := 0) (by decide) (by change _ = 0; omega) : fld16 (BitVec.ofNat 16 (0x3C)) 6 5 = 0)]
  rfl
theorem lqrsvRead (part : Nat) (queue : Nat) : Statement (.lqrsvRead part queue) := ofNone rfl
theorem lqtailWrite (part : Nat) (queue : Nat) (idx : Word) : Statement (.lqtailWrite part queue idx) := ofNone rfl
theorem asgWrite (idx : BitVec 4) (val : Word) : Statement (.asgWrite idx val) := ofNone rfl
theorem lcWrite (val : Word) : Statement (.lcWrite val) := ofNone rfl
theorem messageLanding (m : MsgRef) : Statement (.messageLanding m) := ofNone rfl
theorem tagReplyLanding (m : MsgRef) : Statement (.tagReplyLanding m) := ofNone rfl
theorem hwFaultMessageLanding (id : Nat) : Statement (.hwFaultMessageLanding id) := ofNone rfl
theorem mailboxOverflowTrap (core : Nat) : Statement (.mailboxOverflowTrap core) := ofNone rfl
theorem firingSelection (core : Nat) : Statement (.firingSelection core) := ofNone rfl
theorem ageExpiry (core : Nat) (idx : Nat) (mb : Nat) : Statement (.ageExpiry core idx mb) := ofNone rfl
theorem budgetExpiry (core : Nat) (ctx : Nat) : Statement (.budgetExpiry core ctx) := ofNone rfl
theorem slotHoldExpiry (core : Nat) (idx : Nat) (mb : Nat) (holder : Nat) : Statement (.slotHoldExpiry core idx mb holder) := ofNone rfl
theorem retrySignal (m : MsgRef) : Statement (.retrySignal m) := ofNone rfl
theorem retryBackoffExpiry (m : MsgRef) : Statement (.retryBackoffExpiry m) := ofNone rfl
theorem parkAppend (m : MsgRef) : Statement (.parkAppend m) := ofNone rfl
theorem parkReplayRecord (core : Nat) (idx : Nat) : Statement (.parkReplayRecord core idx) := ofNone rfl
theorem distributorTakeStage (part : Nat) (queue : Nat) : Statement (.distributorTakeStage part queue) := ofNone rfl
theorem stageAgingExpiry (stage : Nat) : Statement (.stageAgingExpiry stage) := ofNone rfl
theorem weightReturnArrival (id : Nat) : Statement (.weightReturnArrival id) := ofNone rfl
theorem storeQueueDrain (core : Nat) (id : Nat) : Statement (.storeQueueDrain core id) := ofNone rfl
theorem loadReply (core : Nat) (id : Nat) : Statement (.loadReply core id) := ofNone rfl
theorem homeFillRequest (dst : Nat) (pa : Nat) (evicts : List Nat) : Statement (.homeFillRequest dst pa evicts) := ofNone rfl
theorem writeBackArrival (src : Nat) (fromCore : Bool) (line : Nat) (evicts : List Nat) : Statement (.writeBackArrival src fromCore line evicts) := ofNone rfl
theorem homeDirectAccess (core : Nat) (id : Nat) (err : Bool) (evicts : List Nat) : Statement (.homeDirectAccess core id err evicts) := ofNone rfl
theorem remoteDeviceAccess (core : Nat) (id : Nat) (routed : Bool) : Statement (.remoteDeviceAccess core id routed) := ofNone rfl
theorem freqReadAtHome (core : Nat) (id : Nat) (err : Bool) : Statement (.freqReadAtHome core id err) := ofNone rfl
theorem atomicExecute (core : Nat) (id : Nat) (evicts : List Nat) : Statement (.atomicExecute core id evicts) := ofNone rfl
theorem atomicReply (core : Nat) (id : Nat) : Statement (.atomicReply core id) := ofNone rfl
theorem pageSwap (frame : Nat) : Statement (.pageSwap frame) := ofNone rfl
theorem streamElement (core : Nat) (slot : Nat) (err : Bool) : Statement (.streamElement core slot err) := ofNone rfl
theorem nbuRowOperation (core : Nat) (slot : Nat) (n : Nat) : Statement (.nbuRowOperation core slot n) := ofNone rfl
theorem streamMove (core : Nat) (slot : Nat) (loc : BitVec 2) (locId : Nat) : Statement (.streamMove core slot loc locId) := ofNone rfl
theorem streamPatchArrival (core : Nat) (id : Nat) : Statement (.streamPatchArrival core id) := ofNone rfl
theorem frontierAck (core : Nat) (slot : Nat) : Statement (.frontierAck core slot) := ofNone rfl
theorem copyRequest (id : Nat) : Statement (.copyRequest id) := ofNone rfl
theorem copyPart (id : Nat) (part : Nat) (err : Option Bool) : Statement (.copyPart id part err) := ofNone rfl
theorem copyLanding (id : Nat) (part : Nat) : Statement (.copyLanding id part) := ofNone rfl
theorem copyfFollowon (id : Nat) : Statement (.copyfFollowon id) := ofNone rfl
theorem matrixLoadComplete (core : Nat) : Statement (.matrixLoadComplete core) := ofNone rfl
theorem mmaComplete (core : Nat) (errs : ArrayErrors) : Statement (.mmaComplete core errs) := ofNone rfl
theorem quadMmaReceive (core : Nat) (errs : ArrayErrors) : Statement (.quadMmaReceive core errs) := ofNone rfl
theorem barrierRelease (gang : Nat) (tag : Nat) : Statement (.barrierRelease gang tag) := ofNone rfl
theorem waitwTimeout (core : Nat) (ctx : Nat) : Statement (.waitwTimeout core ctx) := ofNone rfl
theorem rampWindowExpiry (slate : Nat) (demand : Nat) : Statement (.rampWindowExpiry slate demand) := ofNone rfl
theorem monitorSample (site : MonitorSite) (temp : Int) (volt : Int) (proc : Int) :
    Statement (.monitorSample site temp volt proc) := ofNone rfl
theorem powerOn (r : Fratre) (genuine : Bool) : Statement (.powerOn r genuine) := ofNone rfl
theorem functionReady (f : Fn) : Statement (.functionReady f) := ofNone rfl
theorem functionFailure (f : Fn) : Statement (.functionFailure f) := ofNone rfl
theorem flitReceive (link : Nat) (good : Bool) : Statement (.flitReceive link good) := ofNone rfl
theorem linkFailure (link : Nat) : Statement (.linkFailure link) := ofNone rfl
theorem partitionCreate (part : Nat) : Statement (.partitionCreate part) := ofNone rfl
theorem partitionActivate (part : Nat) (p : PartSetup) : Statement (.partitionActivate part p) := ofNone rfl
theorem partitionFree (part : Nat) : Statement (.partitionFree part) := ofNone rfl
theorem partitionErase (part : Nat) : Statement (.partitionErase part) := ofNone rfl
theorem eraseComplete (part : Nat) : Statement (.eraseComplete part) := ofNone rfl
theorem keySlotGenerate (part : Nat) (slot : Nat) : Statement (.keySlotGenerate part slot) := ofNone rfl
theorem keySlotDiscard (part : Nat) (slot : Nat) : Statement (.keySlotDiscard part slot) := ofNone rfl
theorem frameAssign (frame : Nat) (part : Nat) : Statement (.frameAssign frame part) := ofNone rfl
theorem launchQueueSetup (part : Nat) (queue : Nat) (cb : Word) (base : Word) (count : Nat) (enable : Bool) : Statement (.launchQueueSetup part queue cb base count enable) := ofNone rfl
theorem checkpointExport (req : CkRequest) : Statement (.checkpointExport req) := ofNone rfl
theorem checkpointImport (req : CkRequest) (frames : List CkFrame) :
    Statement (.checkpointImport req frames) := ofNone rfl
theorem attestationReport (nonce : Word) : Statement (.attestationReport nonce) := ofNone rfl
theorem illegalEncoding (e : DecodeError) (word : BitVec 32) (half : Bool) : Statement (.illegalEncoding e word half) := ofNone rfl
theorem variableLatencyResult (core : Nat) (ctx : Nat) (id : Nat) : Statement (.variableLatencyResult core ctx id) := ofNone rfl

end Sys2Proof.Laws.RoundTrip
end

