-- ==== Sys2Proof/Tests/Slice0.lean ====
section
/-!
SUPPORT. Tests: instruction words written out from the encodings of the spec, ill-formed terms and refused words, results of one step
worked by hand from the tables and examples of the spec, and for each statement with hypotheses states that meet them.
-/

namespace Sys2Proof
open Machine
set_option Elab.async false

/-! Checks that stand together at the head of a witness are decided in one evaluation. -/

theorem lead2 {a b r : Prop} (h : a ∧ b) (t : r) : a ∧ b ∧ r := ⟨h.1, h.2, t⟩
theorem lead4 {a b c d r : Prop} (h : (a ∧ b) ∧ c ∧ d) (t : r) : a ∧ b ∧ c ∧ d ∧ r := lead2 h.1 (lead2 h.2 t)
theorem lead8 {a b c d e f g i r : Prop} (h : ((a ∧ b) ∧ c ∧ d) ∧ (e ∧ f) ∧ g ∧ i) (t : r) : a ∧ b ∧ c ∧ d ∧ e ∧ f ∧ g ∧ i ∧ r :=
  lead4 h.1 (lead4 h.2 t)

theorem test_decode_scalar_1 : ∀ p ∈ ([(0x02E6AB07, .add 0x17 6 0x15 3), (0x22E6AB07, .sub 0x17 6 0x15 3), (0x42E6AB07, .and 0x17 6 0x15 3), (0x62E6AB07, .or 0x17 6 0x15 3), (0x82E6AB07, .xor 0x17 6 0x15 3),
    (0xA2E6AB07, .andn 0x17 6 0x15 3), (0xC2E6AB07, .sll 0x17 6 0x15 3), (0xE2E6AB07, .srl 0x17 6 0x15 3), (0x02E6AB0B, .sra 0x17 6 0x15 3), (0x22E6AB0B, .ror 0x17 6 0x15 3),
    (0x42E6AB0B, .minS 0x17 6 0x15 3), (0x62E6AB0B, .maxS 0x17 6 0x15 3), (0x82E6AB0B, .minN 0x17 6 0x15 3), (0xA2E6AB0B, .maxN 0x17 6 0x15 3), (0xC006AB0B, .clz 6 0x15 3),
    (0xE006AB0B, .popc 6 0x15 3), (0x02E6AB0F, .mul 0x17 6 0x15 3), (0x22E6AB0F, .mulhS 0x17 6 0x15 3), (0x42E6AB0F, .mulhN 0x17 6 0x15 3), (0x62E6AB0F, .divS 0x17 6 0x15 3),
    (0x82E6AB0F, .divN 0x17 6 0x15 3), (0xA2E6AB0F, .remS 0x17 6 0x15 3), (0xC2E6AB0F, .remN 0x17 6 0x15 3), (0xE2E6AB0F, .madd 0x17 6 0x15 3)] : List (Nat × Instr)),
    decodeBytes (wordBytes 4 p.1) = .instr p.2 4 := by decide

theorem test_decode_scalar_2 : ∀ p ∈ ([(0x02E6AB13, .seq 0x17 6 0x15 3), (0x22E6AB13, .sne 0x17 6 0x15 3), (0x42E6AB13, .sltS 0x17 6 0x15 3), (0x62E6AB13, .sltN 0x17 6 0x15 3), (0x82E6AB13, .sleS 0x17 6 0x15 3),
    (0xA2E6AB13, .sleN 0x17 6 0x15 3), (0xC2E6AB13, .csel 0x17 6 0x15 3), (0xE2E6AB13, .bfx 0x17 6 0x15 3), (0x14A6AB17, .addi 0xa5 6 0x15 3), (0x34A6AB17, .andi 0xa5 6 0x15 3),
    (0x54A6AB17, .ori 0xa5 6 0x15 3), (0x74A6AB17, .xori 0xa5 6 0x15 3), (0x84A6AB17, .slli 0x25 6 0x15 3), (0xA4A6AB17, .srli 0x25 6 0x15 3), (0xC4A6AB17, .srai 0x25 6 0x15 3),
    (0xF4A6AB17, .slti 0xa5 6 0x15 3), (0xA693AB1B, .li 0xa693 0x15 3), (0xA693AB1F, .lsh 0xa693 0x15 3)] : List (Nat × Instr)),
    decodeBytes (wordBytes 4 p.1) = .instr p.2 4 := by decide

theorem test_decode_control : ∀ p ∈ ([(0xD2773023, .beq 0x693 0x17 6), (0xD2773123, .bne 0x693 0x17 6), (0xD2773223, .bltS 0x693 0x17 6), (0xD2773323, .bgeS 0x693 0x17 6), (0xD2773423, .bltN 0x693 0x17 6),
    (0xD2773523, .bgeN 0x693 0x17 6), (0xD2603623, .bkany 0x693 6), (0xD2603723, .bknone 0x693 6), (0x05A69327, .j 0x5a693), (0x85A69327, .call 0x5a693), (0xD266032B, .loop 0x693 6 3),
    (0x0006032F, .jr 6 3), (0x2006032F, .callr 6 3), (0x4000032F, .ret 3), (0x6000032F, .endFiring 3), (0x8000032F, .nop 3), (0xA006032F, .trap 6 3), (0xC000032F, .brk 3)] : List (Nat × Instr)),
    decodeBytes (wordBytes 4 p.1) = .instr p.2 4 := by decide

theorem test_decode_local : ∀ p ∈ ([(0x1A66AB33, .ldlS8 0xd3 6 0x15 3), (0x3A66AB33, .ldlN8 0xd3 6 0x15 3), (0x5A66AB33, .ldlS16 0xd3 6 0x15 3), (0x7A66AB33, .ldlN16 0xd3 6 0x15 3), (0x9A66AB33, .ldlS32 0xd3 6 0x15 3),
    (0xBA66AB33, .ldlN32 0xd3 6 0x15 3), (0xDA66AB33, .ldl64 0xd3 6 0x15 3), (0xFA66AB33, .vldl 0xd3 6 0x15 3), (0x1A66AB37, .stl8 0xd3 6 0x15 3), (0x3A66AB37, .stl16 0xd3 6 0x15 3),
    (0x5A66AB37, .stl32 0xd3 6 0x15 3), (0x7A66AB37, .stl64 0xd3 6 0x15 3), (0x9A66AB37, .vstl 0xd3 6 0x15 3), (0xBA66AB37, .vgatl 0xd3 6 0x15 3), (0xDA66AB37, .vscatl 0xd3 6 0x15 3),
    (0xFA66AB37, .vbcl 0xd3 6 0x15 3)] : List (Nat × Instr)),
    decodeBytes (wordBytes 4 p.1) = .instr p.2 4 := by decide

theorem test_decode_global : ∀ p ∈ ([(0x1A66AB3B, .ldg32 0xd3 6 0x15 3), (0x3A66AB3B, .ldg64 0xd3 6 0x15 3), (0x5A66AB3B, .stg32 0xd3 6 0x15 3), (0x7A66AB3B, .stg64 0xd3 6 0x15 3), (0x9A66AB3B, .vldg 0xd3 6 0x15 3),
    (0xBA66AB3B, .vstg 0xd3 6 0x15 3), (0xDA66AB3B, .freq 0xd3 6 0x15 3), (0xFA660B3B, .pfg 0xd3 6 true 3), (0x02E6033F, .cwb 0x17 6 3), (0x22E6033F, .cinv 0x17 6 3),
    (0x42E6033F, .cwbinv 0x17 6 3), (0x62E6033F, .cflush 0x17 6 3), (0x8006AB3F, .cways 6 0x15 3), (0xA000AB3F, .cwayq 0x15 3)] : List (Nat × Instr)),
    decodeBytes (wordBytes 4 p.1) = .instr p.2 4 := by decide

theorem test_decode_vector_a_1 : ∀ p ∈ ([(0x0AE6AB43, .vaddF32 2 0x17 6 0x15 3), (0x2AE6AB43, .vsubF32 2 0x17 6 0x15 3), (0x4AE6AB43, .vmulF32 2 0x17 6 0x15 3), (0x6AE6AB43, .vfmaF32 2 0x17 6 0x15 3),
    (0x8AE6AB43, .vfmsF32 2 0x17 6 0x15 3), (0xAAE6AB43, .vminF32 2 0x17 6 0x15 3), (0xCAE6AB43, .vmaxF32 2 0x17 6 0x15 3), (0xE806AB43, .vabsF32 2 6 0x15 3),
    (0x0AE6AB47, .vaddF16 2 0x17 6 0x15 3), (0x2AE6AB47, .vmulF16 2 0x17 6 0x15 3), (0x4AE6AB47, .vfmaF16 2 0x17 6 0x15 3), (0x6AE6AB47, .vaddB16 2 0x17 6 0x15 3),
    (0x8AE6AB47, .vmulB16 2 0x17 6 0x15 3), (0xAAE6AB47, .vfmaB16 2 0x17 6 0x15 3), (0xCAE6AB47, .vdotF16 2 0x17 6 0x15 3), (0xEAE6AB47, .vdotB16 2 0x17 6 0x15 3),
    (0x0AE6AB4B, .vaddS32 2 0x17 6 0x15 3), (0x2AE6AB4B, .vsubS32 2 0x17 6 0x15 3), (0x4AE6AB4B, .vmulS32 2 0x17 6 0x15 3), (0x6AE6AB4B, .vmaddS32 2 0x17 6 0x15 3),
    (0x8AE6AB4B, .vminS32 2 0x17 6 0x15 3), (0xAAE6AB4B, .vmaxS32 2 0x17 6 0x15 3), (0xCAE6AB4B, .vdotbS8 2 0x17 6 0x15 3), (0xEAE6AB4B, .vdotqQ4x 2 0x17 6 0x15 3)] : List (Nat × Instr)),
    decodeBytes (wordBytes 4 p.1) = .instr p.2 4 := by decide

theorem test_decode_vector_a_2 : ∀ p ∈ ([(0x0AE6AB4F, .vand 2 0x17 6 0x15 3), (0x2AE6AB4F, .vor 2 0x17 6 0x15 3), (0x4AE6AB4F, .vxor 2 0x17 6 0x15 3), (0x6AE6AB4F, .vsll 2 0x17 6 0x15 3), (0x8AE6AB4F, .vsrl 2 0x17 6 0x15 3),
    (0xAAE6AB4F, .vsra 2 0x17 6 0x15 3), (0xCAE6AB4F, .vsel 2 0x17 6 0x15 3), (0xE806AB4F, .vmov 2 6 0x15 3)] : List (Nat × Instr)),
    decodeBytes (wordBytes 4 p.1) = .instr p.2 4 := by decide

theorem test_decode_vector_b_1 : ∀ p ∈ ([(0x0AE62B53, .vceqF32 2 0x17 6 5 3), (0x2AE62B53, .vcltF32 2 0x17 6 5 3), (0x4AE62B53, .vcleF32 2 0x17 6 5 3), (0x6AE62B53, .vcunF32 2 0x17 6 5 3),
    (0x8AE62B53, .vceqS32 2 0x17 6 5 3), (0xAAE62B53, .vcltS32 2 0x17 6 5 3), (0xCAE62B53, .vcltN32 2 0x17 6 5 3), (0xE8062B53, .vcnz 2 6 5 3), (0x0806AB57, .vcvtF32S32 2 6 0x15 3),
    (0x2806AB57, .vcvtS32F32 2 6 0x15 3), (0x4AE6AB57, .vcvtF16F32 2 0x17 6 0x15 3), (0x6806AB57, .vcvtF32F16 2 6 0x15 3), (0x8AE6AB57, .vcvtB16F32 2 0x17 6 0x15 3),
    (0xA806AB57, .vcvtF32B16 2 6 0x15 3), (0xC806AB57, .vcvtE4F32 2 6 0x15 3), (0xE806AB57, .vcvtF32E4 2 6 0x15 3), (0x0AE6AB5B, .vperm 2 0x17 6 0x15 3), (0x2806AB5B, .vbcst 2 6 0x15 3),
    (0x42E6AB5B, .vext 0x17 6 0x15 3), (0x62E6AB5B, .vins 0x17 6 0x15 3), (0x8806AB5B, .vcomp 2 6 0x15 3), (0xAAE6AB5B, .vnzscan 2 0x17 6 0x15 3), (0xC806AB5B, .viota 2 6 0x15 3),
    (0xEAE6AB5B, .vunpq 2 0x17 6 0x15 3)] : List (Nat × Instr)),
    decodeBytes (wordBytes 4 p.1) = .instr p.2 4 := by decide

theorem test_decode_vector_b_2 : ∀ p ∈ ([(0x0806AB5F, .vrsumF32 2 6 0x15 3), (0x2806AB5F, .vrmaxF32 2 6 0x15 3), (0x4806AB5F, .vrsumS32 2 6 0x15 3), (0x6806AB5F, .vexp2F32 2 6 0x15 3), (0x8806AB5F, .vlog2F32 2 6 0x15 3),
    (0xA806AB5F, .vrcpF32 2 6 0x15 3), (0xC806AB5F, .vrsqrtF32 2 6 0x15 3), (0xEAE6AB5F, .vdivF32 2 0x17 6 0x15 3)] : List (Nat × Instr)),
    decodeBytes (wordBytes 4 p.1) = .instr p.2 4 := by decide

theorem test_decode_mask : ∀ p ∈ ([(0x0806AB63, .vrng 2 6 0x15 3), (0x2806AB63, .vrngf 2 6 0x15 3), (0x40E62B63, .kand 7 6 5 3), (0x60E62B63, .kor 7 6 5 3), (0x80E62B63, .kxor 7 6 5 3), (0xA0062B63, .knot 6 5 3),
    (0xC006AB63, .kpop 6 0x15 3), (0xE0062B63, .kmovKk 6 5 3), (0xE0262B63, .kmovGk 6 5 3), (0xE046AB63, .kmovKg 6 0x15 3)] : List (Nat × Instr)),
    decodeBytes (wordBytes 4 p.1) = .instr p.2 4 := by decide

theorem test_decode_stream_1 : ∀ p ∈ ([(0x0C064B67, .sopen .idx 6 9 3), (0x26E64B67, .sdim 1 0x17 6 9 3), (0x40064B67, .sbase 6 9 3), (0x62E64B67, .sidx 0x17 6 9 3), (0x80004B67, .sattNone 9 3),
    (0x84064B67, .sattScale 6 9 3), (0x88064B67, .sattAdds 6 9 3), (0x8EE64B67, .sattFmas 0x17 6 9 3), (0x90044B67, .sattCvt .e5 9 3), (0x94064B67, .sattMins 6 9 3),
    (0x98064B67, .sattMaxs 6 9 3), (0x9C004B67, .sattSumr 9 3), (0x8006CB67, .sattAdd2 6 9 3), (0xA0004B67, .sgo 9 3), (0xC0064B67, .sclose 6 9 3), (0xE4004B67, .spin 1 9 3),
    (0x00064B6B, .spop 6 9 3), (0x20E64B6B, .spopk 7 6 9 3), (0x40064B6B, .spush 6 9 3), (0x6006CB6B, .sgrant 6 true 9 3), (0x80064B6B, .sfront 6 9 3), (0xA0064B6B, .swaitf 6 9 3),
    (0xC0064B6B, .sevt 6 9 3), (0xE0004B6B, .srecall 9 3)] : List (Nat × Instr)),
    decodeBytes (wordBytes 4 p.1) = .instr p.2 4 := by decide

theorem test_decode_stream_2 : ∀ p ∈ ([(0x00064B6F, .sskip 6 9 3), (0x20064B6F, .ssave 6 9 3), (0x40064B6F, .sload 6 9 3), (0x70064B6F, .squery 4 6 9 3)] : List (Nat × Instr)),
    decodeBytes (wordBytes 4 p.1) = .instr p.2 4 := by decide

theorem test_decode_message : ∀ p ∈ ([(0x12E6AA73, .send 4 0x17 6 0x15 2), (0x32E6AA73, .sendr 4 0x17 6 0x15 2), (0x52E6AA73, .sendw 4 0x17 6 0x15 2), (0x72E6AA73, .sendt 4 0x17 6 0x15 2),
    (0x82E6AA73, .sendv 0x17 6 0x15 2), (0xB2E6A873, .reply 4 0x17 6 0x15), (0xC006AA73, .fwd 6 0x15 2), (0xF2E6AA73, .sendg 4 0x17 6 0x15 2), (0x02E6AB77, .mbcfg 0x17 6 0x15 3),
    (0x22E6AB77, .mbcnt 0x17 6 0x15 3), (0x4006AB77, .mbmask 6 0x15 3), (0x6006AB77, .msgf 6 0x15 3), (0x82E6AB77, .tagbind 0x17 6 0x15 3), (0xA006AB77, .tagwait 6 0x15 3),
    (0x0000AB7B, .wret 0x15 3), (0x2000AB7B, .wq 0x15 3), (0x42E6AB7B, .jcfg 0x17 6 0x15 3), (0x62E6AB7B, .jadd 0x17 6 0x15 3), (0x82E6AB7B, .launch 0x17 6 0x15 3),
    (0xA006AB7B, .selfq 6 0x15 3), (0xC006AB7B, .gangq 6 0x15 3)] : List (Nat × Instr)),
    decodeBytes (wordBytes 4 p.1) = .instr p.2 4 := by decide

theorem test_decode_sync_1 : ∀ p ∈ ([(0x0000037F, .fenceL 3), (0x2800037F, .rel .sy 3), (0x4800037F, .acq .sy 3), (0x6AE6037F, .strel .sy 0x17 6 3), (0x8806AB7F, .ldacq .sy 6 0x15 3), (0xA000037F, .fenceS 3),
    (0xC000037F, .fenceM 3), (0xE000037F, .fenceA 3), (0x02E6AA83, .aaddS32 0x17 6 0x15 false .sy), (0x22E6AA83, .aaddS64 0x17 6 0x15 false .sy),
    (0x42E6AA83, .aminS32 0x17 6 0x15 false .sy), (0x62E6AA83, .amaxS32 0x17 6 0x15 false .sy), (0x82E6AA83, .aminN32 0x17 6 0x15 false .sy), (0xA2E6AA83, .axchg 0x17 6 0x15 false .sy),
    (0xC2E6AA83, .acas 0x17 6 0x15 false .sy), (0xE2E6AA83, .aaddF32 0x17 6 0x15 false .sy), (0x02E6AA87, .aor 0x17 6 0x15 false .sy), (0x22E6AA87, .aand 0x17 6 0x15 false .sy),
    (0x42E6AA87, .axor 0x17 6 0x15 false .sy), (0x62E6AA87, .aminN64 0x17 6 0x15 false .sy), (0x0006038B, .barv 6 3), (0x2006038B, .barw 6 3), (0x4006038B, .barvw 6 3),
    (0x6006AB8B, .barq 6 0x15 3)] : List (Nat × Instr)),
    decodeBytes (wordBytes 4 p.1) = .instr p.2 4 := by decide

theorem test_decode_sync_2 : ∀ p ∈ ([(0x8006AB8B, .watch 6 0x15 3), (0xA2E6AB8B, .waitw 0x17 6 0x15 3), (0xC006038B, .unwatch 6 3)] : List (Nat × Instr)),
    decodeBytes (wordBytes 4 p.1) = .instr p.2 4 := by decide

theorem test_decode_matrix : ∀ p ∈ ([(0x02E6538F, .mldb 0x17 6 .s8 3), (0x2AE6538F, .mldbs .of2 0x17 6 .s8 3), (0x4000038F, .mswap 3), (0x6406038F, .mscale true 6 3), (0x80000B8F, .mzero 1 3), (0xA006038F, .mquad 6 3),
    (0x06E65B93, .mma true 0x17 6 .s8 1 3), (0x26E65B93, .mmas true 0x17 6 .s8 1 3), (0x42E65B93, .moutl 0x17 6 .s8 1 3), (0x06E69B97, .mrdz true 0x17 6 .s32 1 3),
    (0x26E65B97, .mstz true 0x17 6 .s8 1 3), (0x56E65B97, .mdrain 2 true 0x17 6 .s8 1 3), (0x60000B97, .mwait 1 3)] : List (Nat × Instr)),
    decodeBytes (wordBytes 4 p.1) = .instr p.2 4 := by decide

theorem test_decode_rest_1 : ∀ p ∈ ([(0x0006AB9B, .tlrdef 6 0x15 3), (0x2006AB9B, .tlrfree 6 0x15 3), (0x4006AB9B, .copy 6 0x15 3), (0x6006AB9B, .copyf 6 0x15 3), (0x82E6AB9B, .cpatch 0x17 6 0x15 3),
    (0xA006AB9B, .copyq 6 0x15 3), (0xC006AB9B, .ccancel 6 0x15 3), (0xE2E6039B, .pft 0x17 6 3), (0x02E6AB9F, .bbinit 0x17 6 0x15 3), (0x22E6AB9F, .bget 0x17 6 0x15 3),
    (0x42E0AB9F, .bpeek 0x17 0x15 3), (0x62E6039F, .bskip 0x17 6 3), (0x82E6AB9F, .bput 0x17 6 0x15 3), (0xA006AB9F, .bflush 6 0x15 3), (0xC2E6AB9F, .bgetx 0x17 6 0x15 3),
    (0xE000AB9F, .bbpos 0x15 3), (0x0006ABA3, .sealg 6 0x15 3), (0x22E0ABA3, .sealset 0x17 0x15 3), (0x4006ABA3, .sealchk 6 0x15 3), (0x6000ABA3, .poison 0x15 3),
    (0x8006ABA3, .sealmode 6 0x15 3), (0x0440ABA7, .csrr .ssx0 0x15 3), (0x2446ABA7, .csrw .ssx0 6 0x15 3), (0x4446ABA7, .csrs .ssx0 6 0x15 3)] : List (Nat × Instr)),
    decodeBytes (wordBytes 4 p.1) = .instr p.2 4 := by decide

theorem test_decode_rest_2 : ∀ p ∈ ([(0x6446ABA7, .csrc .ssx0 6 0x15 3), (0x0006ABAB, .gstop 6 0x15 3), (0x2006ABAB, .gresume 6 0x15 3), (0x42E6ABAB, .ctxsave 0x17 6 0x15 3), (0x62E6ABAB, .ctxload 0x17 6 0x15 3),
    (0x82E6ABAB, .evict 0x17 6 0x15 3), (0xA2E6ABAB, .restore 0x17 6 0x15 3), (0xC00603AB, .tret 6 3), (0x02E6ABAF, .tlbinv 0x17 6 0x15 3), (0x2006ABAF, .tlbinva 6 0x15 3),
    (0x4006ABAF, .xbset 6 0x15 3), (0x6006ABAF, .pageq 6 0x15 3), (0x82E6ABAF, .amapset 0x17 6 0x15 3)] : List (Nat × Instr)),
    decodeBytes (wordBytes 4 p.1) = .instr p.2 4 := by decide

theorem test_decode_compact : ∀ p ∈ ([(0x3544, .cMov 6 0x15), (0x9D48, .cAddi 0x13 0x15), (0x9D4C, .cLi 0x13 0x15), (0x3550, .cLdl 6 0x15), (0x35D4, .cStl 6 0x17), (0x9998, .cBeqz 0x13 6), (0x999C, .cBnez 0x13 6),
    (0xA4E0, .cJ 0x293), (0x0024, .cEnd), (0x0028, .cRet), (0x4D6C, .cSpop 9 0x15), (0x49B0, .cSpush 9 6), (0x3574, .cVmov 6 0x15), (0x7D78, .cVfmaF32 7 6 5), (0x003C, .cNop)] : List (Nat × Instr)),
    decodeBytes (wordBytes 2 p.1) = .instr p.2 2 := by decide

theorem test_wf_loop : Instr.wf (.loop 2 1 0) = false ∧ Instr.wf (.loop 3 1 0) = true := by decide

theorem test_wf_mask : (∀ i ∈ ([.vaddF32 4 1 2 3 0, .vsubF32 4 1 2 3 0, .vmulF32 4 1 2 3 0, .vfmaF32 4 1 2 3 0, .vfmsF32 4 1 2 3 0,
    .vminF32 4 1 2 3 0, .vmaxF32 4 1 2 3 0, .vabsF32 4 1 2 0, .vaddF16 4 1 2 3 0, .vmulF16 4 1 2 3 0, .vfmaF16 4 1 2 3 0,
    .vaddB16 4 1 2 3 0, .vmulB16 4 1 2 3 0, .vfmaB16 4 1 2 3 0, .vdotF16 4 1 2 3 0, .vdotB16 4 1 2 3 0, .vaddS32 4 1 2 3 0,
    .vsubS32 4 1 2 3 0, .vmulS32 4 1 2 3 0, .vmaddS32 4 1 2 3 0, .vminS32 4 1 2 3 0, .vmaxS32 4 1 2 3 0, .vdotbS8 4 1 2 3 0,
    .vdotqQ4x 4 1 2 3 0, .vand 4 1 2 3 0, .vor 4 1 2 3 0, .vxor 4 1 2 3 0, .vsll 4 1 2 3 0, .vsrl 4 1 2 3 0, .vsra 4 1 2 3 0,
    .vmov 4 1 2 0, .vceqF32 4 1 2 3 0, .vcltF32 4 1 2 3 0, .vcleF32 4 1 2 3 0, .vcunF32 4 1 2 3 0, .vceqS32 4 1 2 3 0,
    .vcltS32 4 1 2 3 0, .vcltN32 4 1 2 3 0, .vcnz 4 1 2 0, .vcvtF32S32 4 1 2 0, .vcvtS32F32 4 1 2 0, .vcvtF16F32 4 1 2 3 0,
    .vcvtF32F16 4 1 2 0, .vcvtB16F32 4 1 2 3 0, .vcvtF32B16 4 1 2 0, .vcvtE4F32 4 1 2 0, .vcvtF32E4 4 1 2 0, .vperm 4 1 2 3 0,
    .vbcst 4 1 2 0, .vcomp 4 1 2 0, .viota 4 1 2 0, .vunpq 4 1 2 3 0, .vexp2F32 4 1 2 0, .vlog2F32 4 1 2 0, .vrcpF32 4 1 2 0,
    .vrsqrtF32 4 1 2 0, .vdivF32 4 1 2 3 0, .vrng 4 1 2 0, .vrngf 4 1 2 0] : List Instr), i.wf = false) := by decide

theorem test_wf_k_destination : (∀ i ∈ ([.vceqF32 0 1 2 0 0, .vcltF32 0 1 2 0 0, .vcleF32 0 1 2 0 0, .vcunF32 0 1 2 0 0,
    .vceqS32 0 1 2 0 0, .vcltS32 0 1 2 0 0, .vcltN32 0 1 2 0 0, .vcnz 0 1 0 0, .kand 1 2 0 0, .kor 1 2 0 0, .kxor 1 2 0 0,
    .knot 1 0 0, .kmovKk 1 0 0, .kmovGk 1 0 0, .spopk 0 1 2 0] : List Instr), i.wf = false) := by decide

theorem test_wf_fields : (∀ i ∈ ([.squery 6 1 2 0, .send 5 1 2 3 0, .sendr 5 1 2 3 0, .sendw 5 1 2 3 0, .sendt 5 1 2 3 0,
    .reply 5 1 2 3, .sendg 5 1 2 3 0, .aaddS32 1 2 3 true .cl, .aaddS64 1 2 3 true .cl, .aminS32 1 2 3 true .cl,
    .amaxS32 1 2 3 true .cl, .aminN32 1 2 3 true .cl, .axchg 1 2 3 true .cl, .acas 1 2 3 true .cl, .aaddF32 1 2 3 true .cl,
    .aor 1 2 3 true .cl, .aand 1 2 3 true .cl, .axor 1 2 3 true .cl, .aminN64 1 2 3 true .cl] : List Instr), i.wf = false) := by
  decide

theorem test_wf_formats : (∀ i ∈ ([.mldb 1 2 .f32 0, .mldbs .of4 1 2 .s32 0, .mma false 1 2 .q4x 0 0, .mma true 1 16 .s8 0 0,
    .mmas false 1 2 .f32 0 0, .mmas true 1 31 .s8 0 0, .moutl 1 2 .f16 0 0, .mrdz false 1 2 .s8 0 0, .mstz false 1 2 .s4 0 0,
    .mdrain 0 false 1 2 .q4x 0 0] : List Instr), i.wf = false) := by decide

/-- The words of such terms are refused with the causes of R59: the mask field, the k destination, the format and D. -/
theorem test_refused_words :
    decodeBytes (wordBytes 4 0x90621843) = .bad ⟨6, [4]⟩ 0x90621843#32 false ∧
    decodeBytes (wordBytes 2 0) = .bad ⟨1, [0]⟩ 0 true := by decide

end Sys2Proof

/-! ## Witnesses: states that meet the hypotheses of the statements -/

namespace Sys2Proof.Tests
open Machine Claims
set_option Elab.async false

/-- The configuration of a mailbox with number n, kind, size class 1, two slots, one reserved, and entry 0x100 where it has one. -/
def box (n kind base : Nat) (slots : Tab Slot) : Nat × Mailbox :=
  (n, ⟨BitVec.ofNat 64 (n + kind * 2 ^ 9 + 2 ^ 14 + 2 ^ 17 + 2 ^ 25 + if kind = 1 then 0 else 0x100 * 2 ^ 45), base, slots, [], [], none⟩)
/-- A message of 64 bytes ready in a slot. -/
def readySlot : Slot := { Slot.free with st := .ready, header := 64 * 2 ^ 64, weight := 7, span := 1, ord := true }
/-- A tensor of two S32 elements at 0x2000, of one tile. -/
def theRec : Vec := BitVec.ofNat 1024 (0x2000 + 9 * 2 ^ 64 + 2 * 2 ^ 128 + 2 ^ 160 + 2 ^ 192 + 2 ^ 224 + 2 ^ 256 + 4 * 2 ^ 320 + 2 * 2 ^ 640 + 2 ^ 672 + 2 ^ 704 +
  2 ^ 736 + 2 ^ 768)
/-- An actor with address 0x10 in gang 5 of stage 3 whose window is LM from 0x2000 on, with every slot and the array, a handler mailbox
0 with a message, a deposit mailbox 1 with a message, a join mailbox 2, mailbox 7, and a tensor handle 16. -/
def theActor : Actor :=
  { placedActor with addr := 0x10, gang := 5, stage := 3, rank := 0, csr := { placedActor.csr with asgSlots := 0xFFFF, asgArr := true, w := 2 }
                     mbs := [box 0 0 0x4000 [(0, readySlot)], box 1 1 0x5000 [(0, readySlot)], box 2 2 0x6000 [], box 7 0 0x7000 []]
                     ridge := [.idle, .arrived, .released], tlr := [(0, ⟨theRec, 1, true⟩)] }
/-- Its gang, of one member. -/
def theGang : Gang := ⟨5, 0, 3, 0, [(0, 0, 0x10)], [⟨0, 0, 0, none, []⟩, ⟨1, 0, 0, none, []⟩, ⟨2, 0, 0, none, []⟩], false, 0⟩
/-- Core 0 with that actor, XB at 0x2000, and a firing in context 0 at 0x100.  Partition 0 is active; its tables map every address
below 1 GiB to itself, writable, and the frames from 1 to 10 are its own, their homes ready; page 1 is in the core's TLB. -/
def base : State :=
  let s := (State.reset.upC fun c => { c.setActor 0 (some theActor) with
    part := some 0, m := { c.m with xb := 1, tlb := [⟨0, 1, 13, 0xD000000000002000, some 0⟩] } }).upX fun x =>
      { x with firing := some (placedFiring 0), pc := 0x100 }
  let table := fun (m : Mem) (a : Nat) (w : Word) => m.setGran (a / 8) w (sealFn w)
  { s with
    home := { s.home with frames := (List.range 10).map (fun i => (i + 1, 0x20))
                          mem := table (table (table .empty 0x8000 0x8000000000010000) 0x10000 0x8000000000014000) 0x14000 0xD000000000000000 }
    power := { s.power with ready := (List.range 12).map .eave }
    dist := { s.dist with parts := [(0, { Partition.free with st := .active, ptb := 0x8000, cores := [0], keys := 1, amap := [(1, 0x4000000000000000)] })]
                          gangs := [theGang], stages := [⟨3, 0, 0, 0, 0, 1, 5, 0, 0⟩] } }
/-- The acting context with values and fresh seals in g registers. -/
def gs (s : State) (l : List (Nat × Word)) : State :=
  l.foldl (fun s p => s.upX fun x => { x with regs := x.regs.setG p.1 p.2 (sealFn p.2) }) s
/-- The acting context changed at level S. -/
def sup (s : State) : State := s.upX fun x => { x with trap := { x.trap with pl := true } }
/-- The acting actor changed. -/
def withActor (s : State) (f : Actor → Actor) : State := s.upAct f
/-- A slot of the acting core. -/
def withStream (s : State) (k : Nat) (t : Stream) : State := s.upC fun c => { c with streams := tset .closed c.streams k t }
/-- Registers with the boundary values of the statements: the window's lowest and last addresses, an odd one, small numbers. -/
def wit : State := gs base [(1, 0x2000), (2, 0x7FFF8), (3, 0x2001), (4, 1), (5, 0xFFFFFFFFFFFFFFFF), (6, 0x7FF80), (7, 64), (8, 0x80000000),
  (9, 2), (10, 0x200)]
/-- The step goes on. -/
def goes : Host.Outcome State Fault Refusal → Bool
  | .next _ => true
  | _ => false

theorem goes_next {o : Host.Outcome State Fault Refusal} (h : goes o = true) : ∃ t, o = .next t := by
  cases o with
  | next t => exact ⟨t, rfl⟩
  | fault f => cases h
  | refused r => cases h

/-- No wait and no failing seal for the registers that an instruction with stall count 0 reads. -/
def reads (s : State) (l : List Nat) : Bool := s.readyFor 0 false (l.map .g) && l.all fun n => (s.seen 0 false).clean n

theorem test_witness_DivisionResults : wit.readyFor 0 false [gR (1 : BitVec 5), gR (0 : BitVec 5)] = true ∧ (wit.seen 0 false).clean 1 = true ∧
    (wit.seen 0 false).clean 0 = true ∧ scalarDiv.length = 4 := by decide +kernel

theorem test_witness_ScalarArithmeticResults : reads wit [1, 2, 3] = true ∧ scalarTwo.length = 23 ∧ scalarOne.length = 2 ∧ scalarThree.length = 2 ∧
    wit.readyFor 0 true [gR (1 : BitVec 5)] = true := by decide +kernel

theorem test_witness_ImmediateAndConstantResults : reads wit [1] = true ∧ wit.readyFor 7 false [] = true ∧ wit.readyFor 0 true [gR (1 : BitVec 5)] = true ∧
    immediates.length = 5 ∧ immediateShifts.length = 3 ∧ fld (0x88000017 : BitVec 32) 0 2 = 3 ∧ fld (0x88000017 : BitVec 32) 2 6 = 5 ∧
    (fld (0x88000017 : BitVec 32) 29 3).toNat = 4 ∧ fld (0x88000017 : BitVec 32) 27 2 ≠ 0 := by decide +kernel

/-- In trust and in check mode. -/
def trusting (m : BitVec 2) : State := withActor wit fun a => { a with csr := { a.csr with scb := m } }

theorem test_witness_TrustDistance : (∀ m ∈ [(0 : BitVec 2), 2], reads (trusting m) [1, 2] = true ∧ (trusting m).x.pend = [] ∧ (trusting m).x.trap.pl = false ∧
    (trusting m).scbMode = m.toNat) ∧ (∃ t, exec (.add 2 1 9 0) (trusting 0) = .next t) ∧ ∃ t, exec (.mul 2 1 9 0) (trusting 2) = .next t :=
  ⟨by decide +kernel, goes_next (by decide +kernel), goes_next (by decide +kernel)⟩

theorem test_witness_BranchAndJumpResults : reads wit [1, 3, 5] = true ∧ branchesTwo.length = 6 ∧ wit.readyFor 0 false [kR (0 : BitVec 3)] = true ∧
    wit.readyFor 0 true [gR (0 : BitVec 5)] = true ∧ ((wit.seen 0 false).gv 1).toNat % 2 = 0 ∧ ((wit.seen 0 false).gv 3).toNat % 2 = 1 := by decide +kernel

/-- Sixteen return addresses in hardware and TOP at the window's lowest granule; none in hardware and one in LM. -/
def full : State := wit.upX fun x => { x with rstack := List.replicate 16 0x100, rspTop := 0x400 }
def spilled : State := (withActor (wit.upX fun x => { x with rspTop := 0x401 }) fun a => { a with csr := { a.csr with rspBase := 0x400 } }).upM fun m =>
  { m with lm := m.lm.setGran 0x400 0x100 (sealFn 0x100) }

theorem test_witness_CallAndReturnResults : full.readyFor 0 false [] = true ∧ full.lmOk (full.x.rspTop.setWidth 64 <<< 3) 8 8 = true ∧ reads full [1] = true ∧
    ((full.seen 0 false).gv 1).toNat % 2 = 0 ∧ wit.x.rstack.length < 16 ∧ (full.x.rstack.headD 1).toNat % 2 = 0 ∧ full.readyFor 0 true [] = true ∧
    spilled.x.rstack = [] ∧ spilled.rspBase.toNat < spilled.x.rspTop.toNat ∧ spilled.loadOk ((spilled.x.rspTop - 1).setWidth 64 <<< 3) 8 8 = true ∧
    syn (spilled.c.m.lm.gran 0x400) (spilled.c.m.lm.sealOf 0x400) = 0 ∧ (spilled.c.m.lm.gran 0x400).toNat % 2 = 0 ∧
    wit.x.rstack = [] ∧ wit.x.rspTop.toNat ≤ wit.rspBase.toNat ∧
    (let s := spilled.upM fun m => { m with lm := m.lm.setGran 0x400 0x101 (sealFn 0x101) }
     s.loadOk ((s.x.rspTop - 1).setWidth 64 <<< 3) 8 8 = true ∧ syn (s.c.m.lm.gran 0x400) (s.c.m.lm.sealOf 0x400) = 0 ∧ (s.c.m.lm.gran 0x400).toNat % 2 = 1) := by decide +kernel

theorem test_witness_LoopResultsAndEndCheck : reads wit [0, 1] = true ∧ wit.x.loops.length < 4 ∧ ((wit.seen 0 false).gv 0).setWidth 32 = (0 : BitVec 32) ∧
    ((wit.seen 0 false).gv 1).setWidth 32 ≠ (0 : BitVec 32) ∧ 4 ≤ (wit.upX fun x => { x with loops := List.replicate 4 ⟨0x104, 0x110, 1, 0⟩ }).x.loops.length ∧
    (let e : LoopEntry := ⟨0x104, 0x110, 2, 0⟩
     e.depth = 0 ∧ e.start.toNat ≤ 0x10C ∧ 0x10C < e.fin.toNat ∧ e.fin.toNat ≤ 0x110 ∧ 1 < 2 ∧ e.count = BitVec.ofNat 32 2) := by decide +kernel

theorem test_witness_NopTrapBreakAndEndResults : reads wit [1] = true ∧ wit.readyFor 0 false [] = true ∧ wit.readyFor 0 true [] = true ∧
    wit.x.firing ≠ none ∧ (∀ f, wit.x.firing = some f → f.join = false ∧ (wit.c.actor f.actor).isSome = true) := by
  refine lead4 (by decide +kernel) (fun f h => ?_)
  have w : wit.x.firing = some (placedFiring 0) := by decide +kernel
  rw [w] at h; cases h; decide +kernel

theorem test_witness_TrapEntry : wit.x.trap.tact = false ∧ (wit.upX fun x => { x with trap := { x.trap with tact := true } }).x.trap.tact = true := by decide +kernel

theorem test_witness_LocalMemoryResults : reads wit [1, 2] = true ∧ localLoads.length = 7 ∧ localStores.length = 4 ∧
    address ((wit.seen 0 false).gv 1) 0 8 = 0x2000 ∧ address ((wit.seen 0 false).gv 2) 0 8 = 0x7FFF8 ∧ wit.loadOk 0x2000 8 8 = true ∧
    wit.loadOk 0x7FFF8 8 8 = true ∧ wit.lmOk 0x7FFF8 8 8 = true ∧ carried wit.c.m.lm 0x7FFF8 = 0 ∧ (∀ n ∈ [1, 2, 4], wit.lmOk 0x2000 n n = true) ∧
    wit.readyFor 0 true [gR (1 : BitVec 5), gR (2 : BitVec 5)] = true := by decide +kernel

theorem test_witness_VectorLocalMemoryResults : reads wit [1, 6] = true ∧ wit.loadOk (address ((wit.seen 0 false).gv 6) 0 128) 128 128 = true ∧
    wit.readyFor 0 false [gR (6 : BitVec 5), vR (0 : BitVec 5), vR (1 : BitVec 5)] = true ∧ wit.lmOk 0x7FF80 128 128 = true ∧ wit.loadOk 0x2000 4 4 = true ∧
    (wit.seen 0 false).cleanV 0 (List.range 16) = true ∧ (address ((wit.seen 0 false).gv 1) 0 128).toNat % 4 = 0 ∧
    (∀ i, i < 32 → wit.loadOk (address ((wit.seen 0 false).gv 1) 0 128 + (lane ((wit.seen 0 false).vv 0) i).setWidth 64) 4 4 = true) ∧
    carried wit.c.m.lm 0x2000 = 0 ∧ (wit.seen 0 false).cleanV 1 (List.range 16) = true := by decide +kernel

/-! ## One step: results worked by hand from the spec's tables and examples -/

/-- The value that one instruction gives g11, at once or as its result of variable latency (R55), with operands in g1 and g2 (and g11 before it). -/
def result (i : Instr) (a b d : Word) : Option Word := match exec i (gs base [(1, a), (2, b), (11, d)]) with
  | .next t => some (match t.x.varp.find? (·.reg == .g 11) with
    | some e => (e.res.getD (0, 0)).1.setWidth 64
    | none => t.x.regs.gv 11)
  | _ => none
/-- A row: the instruction, a, b, the old destination, and the result that the spec gives. -/
abbrev Row := Instr × Word × Word × Word × Word
/-- Rows whose results come out. -/
def agree (l : List Row) : Bool := l.all fun r => result r.1 r.2.1 r.2.2.1 r.2.2.2.1 == some r.2.2.2.2

/-- R64, majors 0x01 and 0x02: wraps, the ignored high bits of a shift amount, signs. -/
theorem test_scalar_arithmetic : agree [(.add 2 1 11 0, 0xFFFFFFFFFFFFFFFF, 2, 0, 1), (.sub 2 1 11 0, 1, 2, 0, 0xFFFFFFFFFFFFFFFF), (.and 2 1 11 0, 0xC, 0xA, 0, 8), (.or 2 1 11 0, 0xC, 0xA, 0, 0xE),
    (.xor 2 1 11 0, 0xC, 0xA, 0, 6), (.andn 2 1 11 0, 0xC, 0xA, 0, 4), (.sll 2 1 11 0, 3, 65, 0, 6), (.srl 2 1 11 0, 0x8000000000000000, 127, 0, 1),
    (.sra 2 1 11 0, 0x8000000000000000, 63, 0, 0xFFFFFFFFFFFFFFFF), (.ror 2 1 11 0, 1, 1, 0, 0x8000000000000000), (.minS 2 1 11 0, 0xFFFFFFFFFFFFFFFF, 1, 0, 0xFFFFFFFFFFFFFFFF),
    (.maxS 2 1 11 0, 0xFFFFFFFFFFFFFFFF, 1, 0, 1), (.minN 2 1 11 0, 0xFFFFFFFFFFFFFFFF, 1, 0, 1), (.maxN 2 1 11 0, 0xFFFFFFFFFFFFFFFF, 1, 0, 0xFFFFFFFFFFFFFFFF), (.clz 1 11 0, 0, 0, 0, 64),
    (.popc 1 11 0, 0xF0F, 0, 0, 8)] = true := by decide +kernel

/-- R64, majors 0x03 and 0x04: the division corners, the products' halves, and the worked BFX. -/
theorem test_scalar_products_and_compares : agree [(.mul 2 1 11 0, 0xFFFFFFFFFFFFFFFF, 3, 0, 0xFFFFFFFFFFFFFFFD), (.mulhS 2 1 11 0, 0xFFFFFFFFFFFFFFFF, 3, 0, 0xFFFFFFFFFFFFFFFF),
    (.mulhN 2 1 11 0, 0xFFFFFFFFFFFFFFFF, 3, 0, 2), (.divS 2 1 11 0, 0x8000000000000000, 0xFFFFFFFFFFFFFFFF, 0, 0x8000000000000000), (.divS 2 1 11 0, 0xFFFFFFFFFFFFFFF9, 2, 0, 0xFFFFFFFFFFFFFFFD),
    (.divN 2 1 11 0, 7, 0, 0, 0xFFFFFFFFFFFFFFFF), (.remS 2 1 11 0, 0xFFFFFFFFFFFFFFF9, 2, 0, 0xFFFFFFFFFFFFFFFF), (.remN 2 1 11 0, 7, 0, 0, 7), (.madd 2 1 11 0, 3, 5, 100, 115),
    (.seq 2 1 11 0, 5, 5, 9, 1), (.sne 2 1 11 0, 5, 5, 9, 0), (.sltS 2 1 11 0, 0xFFFFFFFFFFFFFFFF, 0, 9, 1), (.sltN 2 1 11 0, 0xFFFFFFFFFFFFFFFF, 0, 9, 0), (.sleS 2 1 11 0, 1, 0xFFFFFFFFFFFFFFFF, 9, 0),
    (.sleN 2 1 11 0, 1, 0xFFFFFFFFFFFFFFFF, 9, 1), (.csel 2 1 11 0, 6, 7, 1, 6), (.csel 2 1 11 0, 6, 7, 0, 7), (.bfx 2 1 11 0, 0xABCD00, 0x8C08, 0, 0xFFFFFFFFFFFFFBCD)] = true := by decide +kernel

/-- R65, R66: sign extension of IMM8 and IMM16, and LSH after LI. -/
theorem test_immediates : agree [(.addi 0x80 1 11 0, 0, 0, 0, 0xFFFFFFFFFFFFFF80), (.andi 0xF0 1 11 0, 0x1234, 0, 0, 0x1230), (.ori 0x0F 1 11 0, 0x1230, 0, 0, 0x123F), (.xori 0xFF 1 11 0, 0, 0, 0, 0xFFFFFFFFFFFFFFFF),
    (.slli 63 1 11 0, 3, 0, 0, 0x8000000000000000), (.srli 4 1 11 0, 0xF000000000000000, 0, 0, 0xF00000000000000), (.srai 4 1 11 0, 0xF000000000000000, 0, 0, 0xFF00000000000000),
    (.slti 0xFF 1 11 0, 0xFFFFFFFFFFFFFFFE, 0, 0, 1), (.li 0x8000 11 0, 0, 0, 0, 0xFFFFFFFFFFFF8000), (.lsh 0x1234 11 0, 0, 0, 0xABCD, 0xABCD1234)] = true := by decide +kernel

/-- The PC after one instruction at 0x100 with operands in g1 and g2. -/
def next (i : Instr) (a b : Word) : Option Word := match exec i (gs base [(1, a), (2, b)]) with
  | .next t => some t.x.pc
  | _ => none

/-- R67, R68: a branch back by 4 as in the tutorial's retry, one not taken, and jumps. -/
theorem test_transfers : next (.beq 0x7FE 2 1) 5 5 = some 0xFC ∧ next (.beq 0x7FE 2 1) 5 6 = some 0x104 ∧ next (.bltS 4 2 1) 0xFFFFFFFFFFFFFFFF 0 = some 0x108 ∧
    next (.bltN 4 2 1) 0xFFFFFFFFFFFFFFFF 0 = some 0x104 ∧ next (.call 32) 0 0 = some 0x140 ∧ next (.jr 1 0) 0x200 0 = some 0x200 ∧ next (.loop 8 1 0) 0 0 = some 0x110 := by decide +kernel

/-- The seals of a v register. -/
def sealsOf (v : Vec) : VSeals := BitVec.ofNat 128 (packNat 8 ((List.range 16).map fun j => (sealFn (pair v j)).toNat))
/-- A v register from its lowest lanes, or with all lanes equal. -/
def lanesOf (l : List Nat) : Vec := BitVec.ofNat 1024 (packNat 32 l)
def every (x : Nat) : Vec := lanesOf (List.replicate 32 x)
/-- v1 to v3 and v6, k1, and g1. -/
def vs (a b c d : Vec) (k1 : BitVec 32) (g : Word) : State :=
  (gs base [(1, g)]).upX fun x => { x with regs := [(1, a), (2, b), (3, c), (6, d)].foldl (fun r p => r.put (.v p.1) p.2 (sealsOf p.2)) (x.regs.put (.k 1) (k1.setWidth 1024) 0) }
/-- The first lanes that one instruction gives v6. -/
def lanes (i : Instr) (s : State) (n : Nat) : Option (List Nat) := match exec i s with
  | .next t => some ((List.range n).map fun j => (lane (match t.x.varp.find? (·.reg == .v 6) with
    | some e => (e.res.getD (0, 0)).1
    | none => t.x.regs.vv 6) j).toNat)
  | _ => none

/-- The worked examples of R107, R114, R120 and R122, and Philox of a zero counter and key (R124). -/
theorem test_vector_examples : lanes (.vaddF32 1 2 1 6 0) (vs (every 0x3F800000) (every 0x40000000) 0 (every 7) 5 0) 4 = some [0x40400000, 7, 0x40400000, 7] ∧
    lanes (.vdotqQ4x 0 2 1 6 0) (vs (lanesOf [0x583D]) (lanesOf [0x05010102]) 0 0 0 0) 1 = some [77] ∧
    lanes (.vnzscan 0 1 2 6 0) (vs 0 (lanesOf ([0, 9, 0, 0, 9] ++ List.replicate 25 0 ++ [9])) 0 0 0 64) 4 = some [65, 68, 94, 0xFFFFFFFF] ∧
    lanes (.vrsumF32 0 1 6 0) (vs (lanesOf (0x3F800000 :: List.replicate 31 0x33800000)) 0 0 0 0 0) 2 = some [0x3F80000F, 0x3F80000F] ∧
    lanes (.vrng 0 1 6 0) (vs 0 0 0 0 0 0) 4 = some [0x6627E8D5, 0xE169C58D, 0xBC57AC4C, 0x9B00DBD8] := by
  refine ⟨?_, ?_, ?_, ?_, ?_⟩ <;> decide +kernel

/-- R110 to R121: one fused rounding, signed lanes, permutation, compaction without fill, insertion, and conversions. -/
theorem test_vector_lanes : lanes (.vfmaF32 0 2 1 6 0) (vs (every 0x80000000) (every 0x3F800000) 0 (lanesOf [0x80000000]) 0 0) 2 = some [0x80000000, 0] ∧
    lanes (.vmaddS32 0 2 1 6 0) (vs (lanesOf [0xFFFFFFFF]) (lanesOf [3]) 0 (lanesOf [1]) 0 0) 1 = some [0xFFFFFFFE] ∧
    lanes (.vsra 0 2 1 6 0) (vs (lanesOf [0x80000000]) (lanesOf [33]) 0 0 0 0) 1 = some [0xC0000000] ∧
    lanes (.vperm 0 2 1 6 0) (vs (lanesOf [10, 11, 12]) (lanesOf [2, 0x21, 0]) 0 0 0 0) 3 = some [12, 11, 10] ∧
    lanes (.vcomp 1 1 6 0) (vs (lanesOf [10, 11, 12]) 0 0 (every 7) 5 0) 3 = some [10, 12, 7] ∧
    lanes (.viota 0 1 6 0) (vs 0 0 0 0 0 0xFFFFFFFE) 3 = some [0xFFFFFFFE, 0xFFFFFFFF, 0] ∧
    lanes (.vcvtS32F32 0 1 6 0) (vs (lanesOf [0x7FC00000, 0x4F000000, 0xC0200000]) 0 0 0 0 0) 3 = some [0, 0x7FFFFFFF, 0xFFFFFFFE] ∧
    lanes (.vrcpF32 0 1 6 0) (vs (lanesOf [0x80000000, 0x40000000, 0xFF800000]) 0 0 0 0 0) 3 = some [0xFF800000, 0x3F000000, 0x80000000] ∧
    lanes (.vexp2F32 0 1 6 0) (vs (lanesOf [0xFF800000, 0x40400000, 0x43000000]) 0 0 0 0 0) 3 = some [0, 0x41000000, 0x7F800000] := by
  refine ⟨?_, ?_, ?_, ?_, ?_, ?_, ?_, ?_, ?_⟩ <;> decide +kernel

/-- R67, R71, R349: SEAL is a trap that writes nothing; TRAP enters with its operand. -/
theorem test_traps : (match exec (.add 2 1 11 0) (base.upX fun x => { x with regs := x.regs.setG 1 5 (sealFn 5 ^^^ 1) }) with
      | .next t => decide (t.x.trap.tact = true ∧ t.x.regs.gv 11 = 0 ∧ t.x.trap.tpc = 0x100 ∧ t.x.pc = BitVec.ofNat 64 (2 * t.c.tvec.toNat))
      | _ => false) = true ∧
    (match exec (.trap 1 0) (gs base [(1, 77)]) with
      | .next t => decide (t.x.trap.tact = true ∧ t.x.trap.pl = true ∧ t.x.trap.tinfo0 = 77)
      | _ => false) = true := by decide +kernel

/-- A running affine stream of four 32-bit elements from 0x2000. -/
def strm (dir : Dir) (ph : SlotPhase) : Stream :=
  { Stream.closed with ph := ph, d := { Descr.zero with dir := dir, fmt := Fmt.s32.code, base := 0x2000, c := [4, 1, 1, 1], t := [4, 0, 0, 0] } }
/-- The translation of page 1. -/
def page : Xlat := ⟨0x2000, 0xD000000000002000, 0, some 0⟩
/-- Every granule of the page's first 128 bytes in the core cache. -/
def cached : State := wit.upM fun m => { m with cache := (List.range 16).map fun i => (0x400 + i, ⟨0, 0, i == 3, 0, 0⟩) }
/-- The same page at home only. -/
def homeOnly : State := wit.upM fun m => { m with tlb := [⟨0, 1, 13, 0xF000000000002000, some 0⟩] }
/-- An update stream over the bytes that a store at 0x2000 writes, with nothing of them cached, with a dirty granule in the core cache, and where the page is at home only. -/
def updating (s : State) : State := withStream s 5 (strm .upd .running)
def matching : State := updating wit

/-- Whether an address translates to x, of the core's partition and writable where it must be. -/
def canReach (s : State) (va : Word) (wr : Bool) (x : Xlat) : Bool :=
  va.toNat < 2 ^ 56 && x.owner == some s.c.partNo && (!wr || x.wr) && match (s.translate s.cur s.c.partNo va.toNat).1 with
    | .ok y => y == x
    | .error _ => false

theorem reaches_of {s : State} {va : Word} {wr : Bool} {x : Xlat} (h : canReach s va wr x = true) : reaches s va wr x := by
  simp only [canReach, Bool.and_eq_true, decide_eq_true_eq, Bool.or_eq_true, Bool.not_eq_true', beq_iff_eq] at h
  obtain ⟨⟨⟨h1, h2⟩, h3⟩, h4⟩ := h
  refine ⟨h1, ?_, h2, fun w => by simp_all⟩
  split at h4
  · rename_i y hy; rw [hy, beq_iff_eq.mp h4]
  · cases h4

theorem test_witness_GlobalMemoryResults : (∀ s ∈ [wit, cached, homeOnly, matching], reads s [1, 2] = true ∧ s.readyFor 0 false [gR (1 : BitVec 5), vR (0 : BitVec 5)] = true) ∧
    address ((wit.seen 0 false).gv 1) 0 128 = 0x2000 ∧ reaches wit 0x2000 true page ∧ reaches cached 0x2000 false page ∧
    reaches homeOnly 0x2000 false ⟨0x2000, 0xF000000000002000, 0, some 0⟩ ∧ (∀ n ∈ [4, 8, 128], unheld cached 0x2000 0x2000 n false ∧ unheld wit 0x2000 0x2000 n false) ∧
    (∀ g ∈ granulesAt 0x2000 128, inCache cached.c.m.cache g = true ∧ inCache wit.c.m.cache g = false ∧ wit.locked g = false) ∧ wit.c.misses < 16 ∧
    wit.c.matchSlots 0x2000 128 = [] ∧ wit.c.m.stores.length < 16 ∧ matching.c.matchSlots 0x2000 4 ≠ [] ∧ reaches matching 0x2000 true page ∧
    ((∀ g ∈ granulesAt 0x2000 128, matching.dirtyCopy matching.cur g = false) ∧ (updating cached).c.matchSlots 0x2000 128 ≠ [] ∧ ((updating cached).c.m.cache.map (·.1)).Nodup ∧
      (∃ q, cacheAt (updating cached).c.m.cache 0x403 = some q ∧ q.dirty = true) ∧ (updating cached).denied 0 (8 * 0x403) = false ∧ (updating cached).lostAt 0x403 = false) ∧
    reaches (updating cached) 0x2000 true page ∧ reaches (updating homeOnly) 0x2000 true ⟨0x2000, 0xF000000000002000, 0, some 0⟩ :=
  ⟨by decide +kernel, by decide +kernel, reaches_of (by decide +kernel), reaches_of (by decide +kernel),
    reaches_of (by decide +kernel), by simp only [unheld]; decide +kernel, lead4 (by decide +kernel) ⟨by decide +kernel, reaches_of (by decide +kernel),
      ⟨by decide +kernel, by decide +kernel, by decide +kernel, ⟨⟨0, 0, true, 0, 0⟩, by decide +kernel⟩, by decide +kernel⟩, reaches_of (by decide +kernel), reaches_of (by decide +kernel)⟩⟩

/-- Registers at the places where the access faults meet: below XB, at XB, past the window, past 2^56, a page that is not mapped. -/
def edges : State := gs wit [(11, 0x1FF8), (12, 0x80000), (13, 0x100000000000000), (14, 0xFFFFFFFFFFFF80)]
/-- The page belongs to partition 1; and the page is not writable. -/
def foreign : State := wit.upM fun m => { m with tlb := [⟨0, 1, 13, 0xD000000000002000, some 1⟩] }
def readOnly : State := wit.upM fun m => { m with tlb := [⟨0, 1, 13, 0xC000000000002000, some 0⟩] }

/-- The address of the last lane is odd. -/
def lastLane : State := wit.upX fun x => { x with regs := x.regs.setV 4 (1 <<< 992) (vsealsOf ((List.range 16).map fun j => sealFn (pair (1 <<< 992) j))) }
/-- Where VGATL and VSCATL look: the base of g[A], and lane i. -/
def laneAt (s : State) (a d i : Nat) : Word := address ((s.seen 0 false).gv a) 0 128 + (lane ((s.seen 0 false).vv d) i).setWidth 64

theorem test_witness_AccessFaultOrders : (edges.readyFor 0 false [gR (1 : BitVec 5), vR (0 : BitVec 5), vR (1 : BitVec 5)] = true ∧ (∀ n ∈ [0, 1], (edges.seen 0 false).cleanV n (List.range 16) = true) ∧
      (edges.c.storesLm edges.curCtx = false ∧ (laneAt edges 11 0 0).toNat % 4 = 0 ∧ (laneAt edges 11 0 0).toNat < edges.c.xbAddr ∧ edges.c.xbAddr ≤ (laneAt edges 12 0 0).toNat ∧
        edges.lmInside (laneAt edges 12 0 0).toNat 4 = false) ∧
      (lastLane.seen 0 false).cleanV 4 (List.range 16) = true ∧ (laneAt lastLane 1 4 31).toNat % 4 ≠ 0 ∧
      ∀ j, j < 31 → (laneAt lastLane 1 4 j).toNat % 4 = 0 ∧ lastLane.c.xbAddr ≤ (laneAt lastLane 1 4 j).toNat ∧ lastLane.lmInside (laneAt lastLane 1 4 j).toNat 4 = true) ∧ reads edges [1, 3, 11, 12, 13, 14] = true ∧ edges.readyFor 0 false [vR (0 : BitVec 5)] = true ∧ 0x2001 % 8 ≠ 0 ∧
    0x1FF8 % 8 = 0 ∧ 0x1FF8 < edges.c.xbAddr ∧ 0x80000 % 8 = 0 ∧ edges.c.xbAddr ≤ 0x80000 ∧ edges.lmInside 0x80000 8 = false ∧
    0x100000000000000 % 128 = 0 ∧ 2 ^ 56 ≤ 0x100000000000000 ∧ 0xFFFFFFFFFFFF80 % 128 = 0 ∧ 0xFFFFFFFFFFFF80 < 2 ^ 56 ∧
    (match (edges.translate edges.cur edges.c.partNo 0xFFFFFFFFFFFF80).1 with | .error _ => true | .ok _ => false) = true ∧
    (match (foreign.translate foreign.cur foreign.c.partNo 0x2000).1 with | .error _ => false | .ok x => x.owner != some foreign.c.partNo) = true ∧
    (match (readOnly.translate readOnly.cur readOnly.c.partNo 0x2000).1 with | .error _ => false | .ok x => x.owner == some readOnly.c.partNo && !x.wr) = true := by decide +kernel

/-- The last tag free, and none. -/
def tagsUsed (n : Nat) : State := withActor wit fun a => { a with tags := (List.range n).map fun i => (i, { Tag.free with used := true }) }

theorem test_witness_FarReadAndPrefetchResults : (∀ s ∈ [wit, tagsUsed 15, tagsUsed 16], reads s [1] = true) ∧ reaches wit 0x2000 false page ∧
    reaches (tagsUsed 15) 0x2000 false page ∧ (∃ k, (tagsUsed 15).act = some k ∧ (k.tag 15).used = false ∧ ∀ u, u < 15 → (k.tag u).used = true) ∧
    (∃ k, (tagsUsed 16).act = some k ∧ ∀ u, u < 16 → (k.tag u).used = true) ∧ (wit.upC fun c => c.setActor 0 none).act = none ∧
    (match (wit.translate wit.cur wit.c.partNo 0x2000).1 with | .error n => n != 3 | .ok _ => true) = true :=
  ⟨by decide +kernel, reaches_of (by decide +kernel), reaches_of (by decide +kernel),
    ⟨{ theActor with tags := (List.range 15).map fun i => (i, { Tag.free with used := true }) }, by decide +kernel⟩,
    ⟨{ theActor with tags := (List.range 16).map fun i => (i, { Tag.free with used := true }) }, by decide +kernel⟩, by decide +kernel, by decide +kernel⟩

/-- Dirty granules of page 1 in the cluster cache too, one that the core cache does not hold. -/
def flushing : State := cached.upCluster 0 fun k => { k with cache := [(0x403, ⟨7, sealFn 7, true, 0, 0⟩), (0x410, ⟨9, sealFn 9, true, 0, 0⟩)] }
/-- The same data and context at an eave core. -/
def onEave (s : State) : State := { s with cur := 1024, cores := tset .reset s.cores 1024 s.c }
/-- A window up to the end of LM with one way converted. -/
def wide (hi : BitVec 7) (ways : Nat) : State := (withActor cached fun a => { a with csr := { a.csr with hi := hi } }).upM fun m => { m with ways := ways }

theorem test_witness_CacheAndWayResults : (∀ n, (bankLines (cached.cluster (clusterOf cached.cur)).cache n).length + cached.c.m.cache.length ≤ 1024) ∧
    isEave cached.cur = false ∧ (wide 71 0).c.storesLm (wide 71 0).curCtx = false ∧ (∀ s ∈ [cached, flushing, onEave cached], reads s [0, 1, 5, 10] = true ∧
      (∀ len ∈ [0, 0x200, 2 ^ 64 - 1], s.walkHeld 0x2000 len = false ∧ ∀ p ∈ [(false, false), (true, false), (true, true)], s.maintainBlocked 0x2000 len p.1 p.2 = false) ∧
      (s.c.m.cache.map (·.1)).Nodup) ∧ isEave (onEave cached).cur = true ∧ ((flushing.cluster 0).cache.map (·.1)).Nodup ∧
    (∀ g ∈ [0x403, 0x410], flushing.lineInRange 0x2000 0x200 32 (g / 32) = true ∧ flushing.c.storeTo 32 g = false ∧ (cacheAt (flushing.cluster 0).cache g).any (·.dirty) = true ∧
      flushing.denied 0 (8 * g) = false ∧ flushing.lostAt g = false) ∧ (cacheAt flushing.c.m.cache 0x410).isNone = true ∧
    (wide 71 0).cleanHeld (wide 71 0).cur (inWays (wide 71 0).c.m.cache 1) = false ∧
    (cached.c.m.cache.map (·.1)).Nodup ∧ (∃ e ∈ cached.c.m.cache, e.2.dirty = true ∧ cached.lineInRange 0x2000 0x200 4 (e.1 / 4) = true) ∧
    (wide 64 1).c.m.ways = 1 ∧ (1 ≠ (wide 64 0).c.m.ways ∧ (wide 64 0).hi < 64 + 1) ∧ reads (gs (wide 71 0) [(11, 7), (12, 8)]) [11, 12] = true ∧
    64 + 7 ≤ (wide 71 0).hi ∧ (wide 71 7).c.m.ways ≤ 7 := by
  refine ⟨fun n => ?_, by decide +kernel⟩
  have h : (cached.cluster (clusterOf cached.cur)).cache = [] ∧ cached.c.m.cache.length ≤ 1024 := by decide +kernel
  rw [h.1, show (bankLines [] n).length = 0 from rfl, Nat.zero_add]
  exact h.2

/-- Merging under k1 with pair 0 in part, and zeroing under k1. -/
def masked : State := wit.upX fun x => { x with regs := (x.regs.setK 1 0x80000001).setV 2 3 (vsealsOf [sealFn 3]) }

theorem test_witness_VectorIntegerResults : vectorIntegers.length = 13 ∧ ∀ k ∈ [(0 : BitVec 3), 1, 5], masked.readyFor 0 false [.k (k.toNat % 4), .v 2, .v 3] = true ∧
    (masked.seen 0 false).cleanV 2 (livePairs (masked.seen 0 false) k) = true ∧ (masked.seen 0 false).cleanV 3 (splitPairs (masked.seen 0 false) k) = true := by decide +kernel

theorem test_witness_VectorFloatResults : vectorFloats.length = 15 ∧ masked.readyFor 0 true [.k 0, .v 2, .v 3] = true ∧
    ∀ k ∈ [(0 : BitVec 3), 1, 5], masked.readyFor 0 false [.k (k.toNat % 4), .v 2, .v 3] = true ∧
    (masked.seen 0 false).cleanV 2 (livePairs (masked.seen 0 false) k) = true ∧ (masked.seen 0 false).cleanV 3 (splitPairs (masked.seen 0 false) k) = true := by decide +kernel

/-- v2 with a seal that does not match, failures directed to traps. -/
def broken : State := wit.upX fun x => { x with regs := x.regs.setV 2 3 0 }

theorem test_witness_VectorCompareResults : vectorCompares.length = 7 ∧ (∀ k ∈ [(0 : BitVec 3), 1, 5], masked.readyFor 0 false [.k (k.toNat % 4), .v 2, .v 3, .k 7] = true ∧
    (masked.seen 0 false).cleanV 2 (livePairs (masked.seen 0 false) k) = true ∧ (masked.seen 0 false).cleanV 3 (livePairs (masked.seen 0 false) k) = true) ∧
    broken.sealMode = 0 ∧ broken.readyFor 0 false [.k 0, .v 2, .v 3] = true ∧ (broken.seen 0 false).cleanV 2 (livePairs (broken.seen 0 false) 0) = false := by decide +kernel

theorem test_witness_VectorConversionAndMoveResults : masked.readyFor 0 false [.k 1, .v 2, .v 3, .v 4, .v 5] = true ∧ masked.readyFor 0 true [.k 0, .v 2] = true ∧
    (∀ n ∈ [2, 3, 4, 5], (masked.seen 0 false).cleanV n (List.range 16) = true) := by decide +kernel

theorem test_witness_VectorPermuteResults : masked.readyFor 0 false [.k 1, kR (1 : BitVec 2), .v 2, .v 3, .v 4, .v 0, gR (2 : BitVec 5), gR (3 : BitVec 5)] = true ∧
    (∀ n ∈ [2, 3, 4, 0], (masked.seen 0 false).cleanV n (List.range 16) = true) ∧ reads masked [2, 3] = true := by decide +kernel

theorem test_witness_VectorReductionAndRandomResults : masked.readyFor 0 false [kR (1 : BitVec 2), .k 1, .v 2, .v 3, .v 4] = true ∧
    (∀ n ∈ [2, 3, 4], (masked.seen 0 false).cleanV n (List.range 16) = true) ∧ livePairs (masked.seen 0 false) 1 ≠ [] := by decide +kernel

theorem test_witness_MaskResults : masked.readyFor 0 false [kR (7 : BitVec 3), kR (0 : BitVec 3), kR (1 : BitVec 3)] = true ∧ (7 : BitVec 3) ≠ 0 ∧ reads masked [1] = true := by decide +kernel

/-- The bit buffer at a position. -/
def bitsAt (pos : BitVec 7) : State := wit.upX fun x => { x with bbPos := pos, bbData := 0x80000000000000000000000000000000 }

theorem test_witness_BitStreamResults : (∀ pos ∈ [(0 : BitVec 7), 63], (bitsAt pos).x.bbPos.toNat ≤ 63 ∧ reads (bitsAt pos) [1, 7, 8, 10] = true ∧
    (bitsAt pos).readyFor 0 false [] = true) ∧ 64 ≤ 63 + min (((bitsAt 63).seen 0 false).gv 4).toNat 64 ∧ (bitsAt 63).loadOk 0x2000 8 8 = true ∧
    (bitsAt 63).loadOk (0x2000 + 8) 8 8 = true ∧ (bitsAt 63).lmOk 0x2000 8 8 = true ∧ carried (bitsAt 63).c.m.lm 0x2000 = 0 ∧ carried (bitsAt 63).c.m.lm 0x2008 = 0 ∧
    (bitsAt 0).x.bbData.getLsbD 127 = true ∧ (((bitsAt 0).seen 0 false).gv 7).getLsbD 8 = false ∧ ((gs (bitsAt 0) [(11, 0x100)]).seen 0 false |>.gv 11).getLsbD 8 = true := by decide +kernel

theorem test_witness_SealInstructionResults : reads wit [1, 2, 4] = true ∧ wit.act.isSome = true ∧ (wit.upC fun c => c.setActor 0 none).act = none ∧
    reads (wit.upC fun c => c.setActor 0 none) [1] = true := by decide +kernel

/-- An open slot of the acting actor. -/
theorem openAs_of {s : State} {k : BitVec 4} {t : Stream} (h : (s.act.any fun w => w.csr.asgSlots.getLsbD k.toNat) = true)
    (h2 : (decide (s.c.stream k.toNat = t) && decide (t.ph ≠ .closed)) = true) : openAs s k t := by
  simp only [Bool.and_eq_true, decide_eq_true_eq] at h2
  refine ⟨?_, h2.1, h2.2⟩
  cases ha : s.act with
  | none => rw [ha] at h; cases h
  | some w => rw [ha] at h; exact ⟨w, ha, h⟩

theorem test_witness_CsrAndAssignmentResults : (∀ c ∈ everyCsr, wit.csrPending c = false) ∧ everyCsr.length = 30 ∧ csrUserReads .scb = true ∧ (sup wit).x.trap.pl = true ∧
    wit.readyFor 0 false [] = true ∧ reads wit [1] = true ∧ reads (sup wit) [1] = true ∧ csrWritable false .fpx = true ∧ csrWritable true .lmwin = true ∧ wit.act ≠ none ∧ (sup wit).act ≠ none ∧
    (wit.upX fun x => { x with loops := [⟨0x104, 0x110, 3, 0⟩] }).x.loops = [⟨0x104, 0x110, 3, 0⟩] ∧ wit.x.loops = [] ∧ (wit.c.actor 0).isSome = true ∧
    (∃ j, j < 16 ∧ theActor.csr.asgSlots.getLsbD j = true ∧ (0 : Word).getLsbD j = false ∧ ((withStream wit 5 (strm .src .opened)).c.stream j).ph ≠ .closed) ∧
    (∀ j, j < 16 → (wit.c.stream j).ph = .closed) := by
  refine lead8 (by decide +kernel) (lead4 (by decide +kernel) ⟨by decide +kernel, by decide +kernel, ⟨5, by decide +kernel⟩, by decide +kernel⟩)

theorem test_witness_PrivilegeTraps : wit.x.trap.pl = false ∧ (supervisorOnly 1 2 3 0).length = 12 ∧ csrUserReads .tvec = false ∧ csrWritable false .tvec = false ∧
    csrWritable true .self = false ∧ (∀ r ∈ supervisorOnly 1 2 3 0, encode r.1 ≠ .none) ∧ wit.act ≠ none ∧ csrWritable false .fpx = true := by decide +kernel

/-- A supervisor context without a firing. -/
def bare : State := (sup wit).upX fun x => { x with firing := none, mbTrap := true }

theorem test_witness_TrapReturnResults : (sup wit).x.trap.pl = true ∧ reads (sup wit) [0, 4, 9] = true ∧ (sup wit).x.firing ≠ none ∧ ((sup wit).seen 0 false).gv 0 = 0 ∧
    ((sup wit).seen 0 false).gv 4 = 1 ∧ 2 ≤ (((sup wit).seen 0 false).gv 9).toNat ∧ bare.x.trap.pl = true ∧ bare.x.firing = none ∧ reads bare [0, 4] = true := by decide +kernel

/-- An actor without slots, array, mailboxes or firing, of which an image with its header is at 0x4000 and its contents are remembered. -/
def small : Actor := { theActor with csr := { ActorCsrs.reset with lo := 1, hi := 2 }, mbs := [] }
def saved (idx : Nat) : State :=
  let s := (sup (gs wit [(11, 5), (12, 0x4000), (13, 16), (14, BitVec.ofNat 64 idx), (15, 0xFFFFFFFFFFE000)])).upX fun x => { x with firing := none, mbTrap := true }
  let s1 := s.upC fun c => c.setActor 0 (some small)
  { s1 with home := { s1.home with mem := s1.home.mem.setGrans 0x800 (sealed (s1.imageHeader 0 0 small)) }
            dist := { s1.dist with images := [⟨0, 0, small, none, [], none, []⟩] } }
/-- The same with the gang stopped. -/
def gangStopped (b : Bool) : State := let s := saved 0
  { (withActor s fun a => { a with stopped := b }) with dist := { s.dist with gangs := [{ theGang with stopped := b }] } }
/-- The same with the actor gone from its index. -/
def gone : State := (saved 0).upC fun c => c.setActor 0 none
/-- The actor not stopped, with its firing in another context. -/
def busy : State := (saved 0).upC fun c => c.setCtx 1 { Ctx.reset with firing := some (placedFiring 0) }

/-- Operands of the map instructions at their bounds; the core with XB below or at them; a store in the queue. -/
def mapping (xb : BitVec 6) : State := (sup (gs wit [(11, 4), (12, 3), (13, 63), (14, 0x30), (15, 0x4000000000000000), (16, 0x4000000000000001), (17, 0x100000000000000),
  (18, 0x40000000)])).upM fun m => { m with xb := xb }

theorem test_witness_TranslationAndMapResults : (mapping 1).x.trap.pl = true ∧ reads (mapping 1) [1, 7, 11, 12, 13, 14, 15, 16, 17, 18] = true ∧
    4 ≤ (((mapping 1).seen 0 false).gv 11).toNat ∧ (((mapping 1).seen 0 false).gv 12).toNat < 4 ∧ (mapping 1).usesStale 3 (fun _ => true) = false ∧
    2 ^ 56 ≤ (((mapping 1).seen 0 false).gv 17).toNat ∧ (((mapping 1).seen 0 false).gv 18).toNat < 2 ^ 56 ∧
    (match ((mapping 1).translate 0 0 0x40000000).1 with | .error n => n != 3 | .ok _ => false) = true ∧ canReach (mapping 1) 0x2000 false page = true ∧
    page.lvl < 4 ∧ ((mapping 1).translate 0 0 0x2000).2.homeEave 0x2000 < 512 ∧ (match (foreign.translate 0 0 0x2000).1 with | .ok x => x.owner != some 0 | .error _ => false) = true ∧
    64 ≤ (((mapping 1).seen 0 false).gv 7).toNat ∧ (((mapping 1).seen 0 false).gv 13).toNat < 64 ∧ (mapping 1).c.m.xb.toNat < 63 ∧
    theActor.csr.lo.toNat < 63 ∧ ¬ (mapping 63).c.m.xb.toNat < 63 ∧ (mapping 1).c.xbAddr = 0x2000 ∧
    0x30 / 2 ^ 24 = (mapping 1).devNum.toNat ∧ 0x30 / 16 % 2 ^ 20 ≠ 0xFFFFF ∧ 0x4000000000000000 % 8 = 0 ∧ 0x4000000000000000 / 2 ^ 62 ≠ 3 ∧
    0 ∈ ((mapping 1).part 0).cores ∧ 0x4000000000000001 % 8 ≠ 0 := by decide +kernel

/-- Every scope, with no access that may use a stale entry, from a core and from an eave core; an entry of the page and one of another. -/
theorem test_witness_TranslationAndMapResults_scopes : (∀ s ∈ [mapping 1, onEave (mapping 1)], ∀ sc ∈ [0, 1, 2, 3], s.usesStale sc (fun _ => true) = false ∧
      s.usesStale sc (fun va => va.toNat / 2 ^ 30 == 0) = false) ∧ (∀ n, inScope (mapping 1) 2 n) ∧ inScope (mapping 1) 1 15 ∧ ¬ inScope (mapping 1) 1 16 ∧ ¬ inScope (mapping 1) 0 1 ∧
    (∃ e ∈ (mapping 1).c.m.tlb, e.serves 0 0x2000 = true) ∧ (∃ e ∈ (mapping 1).c.m.tlb, e.serves 0 0x40000000 = false) ∧ (mapping 1).remote page.pa = false ∧
    ({ mapping 1 with devNum := 1 }).remote page.pa = true ∧ ((mapping 1).c.actors.any fun e => e.2.isSome) = true := by
  refine ⟨by decide +kernel, fun n => .inr (.inr (by decide)), ?_, ?_, ?_, by decide +kernel⟩ <;> unfold inScope <;> decide +kernel

/-- Slot 5 with a stream. -/
def slot5 (t : Stream) : State := withStream wit 5 t
/-- Slot 5 closed, opened as a stream of some direction, and an index stream in slot 6. -/
def opened (dir : Dir) : State := withStream (withStream wit 5 (strm dir .opened)) 6 { strm .src .opened with d := { (strm .src .opened).d with fmt := Fmt.n32.code } }

theorem test_witness_StreamSetUpResults : reads wit [0, 1] = true ∧ assigned wit 5 ∧ (wit.c.stream 5).ph = .closed ∧ (0x7F1D : Nat) < 2 ^ 15 ∧ (0x7F1D : Nat) / 64 % 4 = 0 ∧
    (0x7F1D : Nat) % 16 < 14 ∧ (∀ d ∈ [Dir.src, .drn, .upd], openAs (opened d) 5 (strm d .opened)) ∧
    openAs (opened .src) 6 { strm .src .opened with d := { (strm .src .opened).d with fmt := Fmt.n32.code } } ∧ reads (opened .src) [1, 2, 4] = true ∧
    (∀ op ∈ [0, 1, 2, 3, 5, 6, 7], opOk .src op .s32 .s32 = true) ∧ opOk .src 4 .s32 .f16 = true ∧ opOk .upd 8 .s32 .s32 = true ∧
    openAs (withStream (opened .upd) 6 (strm .src .opened)) 6 (strm .src .opened) ∧ (strm .upd .opened).d.slv ≠ 5 :=
  ⟨by decide +kernel, ⟨theActor, by decide +kernel, by decide +kernel⟩, lead4 (by decide +kernel) ⟨fun d _ => by cases d <;> exact openAs_of (by decide +kernel) (by decide +kernel), openAs_of (by decide +kernel) (by decide +kernel), lead4 (by decide +kernel) ⟨openAs_of (by decide +kernel) (by decide +kernel), by decide +kernel⟩⟩⟩

/-- No actor resides that the context could act for. -/
def unmanned : State := wit.upC fun c => c.setActor 0 none
/-- The actor owns the slots that the bits name. -/
def owning (bits : BitVec 16) (s : State) : State := withActor s fun a => { a with csr := { a.csr with asgSlots := bits } }

theorem notAssigned_of {s : State} {k : BitVec 4} (h : (s.act.all fun w => !w.csr.asgSlots.getLsbD k.toNat) = true) : ¬ assigned s k := by
  rintro ⟨w, hw, hb⟩
  rw [hw] at h
  simp [hb] at h
theorem assigned_of {s : State} {k : BitVec 4} (h : (s.act.any fun w => w.csr.asgSlots.getLsbD k.toNat) = true) : assigned s k := by
  cases ha : s.act with
  | none => rw [ha] at h; cases h
  | some w => rw [ha] at h; exact ⟨w, ha, h⟩

/-- Slots 5 and 6 opened with streams. -/
def pairOf (t u : Stream) : State := withStream (withStream (gs wit [(11, 0x100000000), (12, 0x8000), (13, 0x40), (14, 0x80), (15, 14), (16, 15), (17, 0)]) 5 t) 6 u
def idxOf (f : Fmt) : Stream := { strm .idx .opened with d := { (strm .idx .opened).d with fmt := f.code } }

theorem test_witness_StreamSetUpResults_traps : (∀ s ∈ [unmanned, owning 0 wit], ¬ assigned s 5) ∧ (∀ s ∈ [unmanned, owning 0 wit, owning 0x20 wit], reads s [0, 1, 2] = true) ∧
    assigned (owning 0x20 wit) 5 ∧ ¬ assigned (owning 0x20 wit) 6 ∧ wit.x.swait = none ∧
    (∀ p ∈ [SlotPhase.running, .halted], openAs (slot5 (strm .src p)) 5 (strm .src p)) ∧ (∀ p ∈ [SlotPhase.running, .halted], reads (slot5 (strm .src p)) [0, 1, 2] = true) ∧
    (let s := pairOf (idxOf .n32) (strm .drn .opened)
     openAs s 5 (idxOf .n32) ∧ reads s [0, 1, 2, 11, 12, 13, 14, 15, 16, 17] = true ∧ (s.seen 0 false).gv 11 = 0x100000000) ∧
    (∀ op ∈ [1, 2, 3, 5, 6, 7], opOk (idxOf .n32).d.dir op (idxOf .n32).d.format (idxOf .n32).d.format = false) ∧ opOk .idx 0 .s32 .s32 = false ∧ opOk .src 4 .s32 .s4 = false ∧
    (∀ u ∈ [Stream.closed, strm .src .running, strm .drn .opened, { strm .src .opened with bound := true }],
      ¬ (u.ph = .opened ∧ u.bound = false ∧ (u.d.dir = .idx ∨ (u.d.dir = .src ∧ u.d.op = 0 ∧ (u.d.format = .n32 ∨ u.d.format = .s64))))) ∧
    ¬ (idxOf .n32).d.fmt = (strm .src .opened).d.fmt ∧ opOk .src 8 .s32 .s32 = false ∧ assigned (pairOf (strm .src .opened) (strm .src .opened)) 6 ∧
    (∀ g ∈ [(0x8000 : Nat), 0x40, 0x80], 2 ^ 15 ≤ g ∨ g / 64 % 4 ≠ 0) ∧ (∀ g ∈ [(14 : Nat), 15], g < 2 ^ 15 ∧ g / 64 % 4 = 0 ∧ 14 ≤ g % 16) ∧
    (∃ w, encode (.sopen .idx 15 5 0) = .w32 w) ∧ (0 : Nat) % 16 ≠ Fmt.n32.code.toNat ∧ (0 : Nat) % 16 ≠ Fmt.s64.code.toNat :=
  ⟨by simp only [List.mem_cons, List.not_mem_nil, or_false, forall_eq_or_imp, forall_eq]; exact ⟨notAssigned_of (by decide +kernel), notAssigned_of (by decide +kernel)⟩,
    by decide +kernel, assigned_of (by decide +kernel), notAssigned_of (by decide +kernel), by decide +kernel,
    fun p h => by cases p <;> first | exact openAs_of (by decide +kernel) (by decide +kernel) | simp at h,
    by decide +kernel, ⟨openAs_of (by decide +kernel) (by decide +kernel), by decide +kernel⟩, by decide +kernel, by decide +kernel, by decide +kernel, by decide +kernel, by decide +kernel,
    by decide +kernel, assigned_of (by decide +kernel), by decide +kernel, by decide +kernel, ⟨_, rfl⟩, by decide +kernel⟩

/-- The stream away from the core. -/
def away (t : Stream) : Stream := { t with loc := 2, locId := 0 }

/-- Slot 5 runs with no other slot when it is the only open one. -/
theorem alone_of {t : Stream} (h : (slot5 t).c.streams = [(5, t)]) : ∀ j, 5 ∈ (slot5 t).c.along j → j = 5 := by
  intro j hj
  by_cases e : j = 5
  · exact e
  · have hs : (slot5 t).c.stream j = .closed := by simp [Core.stream, h, tget, Ne.symm e]
    simp [Core.along, Core.indexAlong, hs, Stream.closed, Descr.zero, Ne.symm e] at hj

theorem test_witness_StreamStartAndCloseResults : (∀ p ∈ [SlotPhase.opened, .running, .halted], openAs (slot5 (strm .src p)) 5 (strm .src p)) ∧
    (slot5 (strm .src .opened)).readyFor 0 false [] = true ∧ (strm .src .opened).d.patternOk = true ∧ (slot5 (strm .src .opened)).c.family 5 = [] ∧
    (slot5 (strm .src .opened)).storesBefore (strm .src .opened) = false ∧ (slot5 (strm .src .opened)).pushBlocked = false ∧
    (∀ t ∈ [strm .src .running, strm .drn .running, strm .upd .running], (slot5 t).c.taker 5 = none ∧ (slot5 t).c.recallable 5 = true ∧ ((slot5 t).c.slot 5).buf = [] ∧
      ((slot5 t).c.slot 5).pushed ≤ ((slot5 t).c.slot 5).f ∧ ((slot5 t).c.slot 5).g ≤ ((slot5 t).c.slot 5).f) ∧
    openAs (slot5 (away (strm .src .running))) 5 (away (strm .src .running)) ∧ (away (strm .src .running)).loc ≠ 0 ∧ (slot5 (away (strm .src .running))).c.recallable 5 = true ∧
    ownIndex (slot5 (away (strm .src .running))) 5 ∧ (∀ j, 5 ∈ (slot5 (away (strm .src .running))).c.along j → j = 5) ∧ 5 ∉ (away (strm .src .running)).boundSlots :=
  ⟨fun p h => by cases p <;> first | exact openAs_of (by decide +kernel) (by decide +kernel) | simp at h, lead4 (by decide +kernel) ⟨by decide +kernel, by decide +kernel, openAs_of (by decide +kernel) (by decide +kernel), by decide +kernel, by decide +kernel, by unfold ownIndex; decide +kernel,
    alone_of (by decide +kernel), by decide +kernel⟩⟩

/-- A stream whose pattern is not valid, one with an index stream in slot 6, an update stream with its second stream there. -/
def skewed : Stream := { strm .src .opened with d := { (strm .src .opened).d with base := 0x2001 } }
def viaSix (ph : SlotPhase) : Stream := { strm .src ph with total := none, d := { (strm .src .opened).d with indir := true, ixs := 6 } }
def withSecond (ph : SlotPhase) : Stream := { strm .upd ph with d := { (strm .upd .opened).d with op := 8, slv := 6 } }

theorem test_witness_StreamStartAndCloseResults_traps : (∀ t ∈ [{ strm .src .opened with bound := true }, idxOf .n32, skewed, viaSix .opened, withSecond .opened], (openAs (slot5 t) 5 t)) ∧
    (∀ t ∈ [{ strm .src .opened with bound := true }, idxOf .n32, skewed, viaSix .opened, withSecond .opened], (slot5 t).readyFor 0 false [] = true) ∧
    (idxOf .n32).d.dir = .idx ∧ skewed.d.patternOk = false ∧ (viaSix .opened).bound = false ∧
    (let s := pairOf (viaSix .opened) { skewed with bound := true }
     s.c.stream 5 = viaSix .opened ∧ 6 ∈ s.c.family 5 ∧ (s.c.stream 6).d.dir = .src ∧ (s.c.stream 6).d.patternOk = false) ∧
    (let s := pairOf (withSecond .opened) { strm .src .opened with bound := true, d := { (strm .src .opened).d with c := [3, 1, 1, 1] } }
     s.c.stream 5 = withSecond .opened ∧ (withSecond .opened).d.patternOk = true ∧ s.c.total (withSecond .opened) = some 4 ∧ s.c.total (s.c.stream 6) = some 3) ∧
    (let s := pairOf (withSecond .opened) { strm .src .opened with bound := true }
     s.c.family 5 = [6] ∧ s.c.total (s.c.stream 6) = some 4 ∧ (∀ j ∈ [5, 6], s.storesBefore (s.c.stream j) = false) ∧ s.pushBlocked = false) ∧
    (∀ t ∈ [strm .drn .opened, strm .upd .opened], t.d.patternOk = true ∧ (slot5 t).storesBefore t = false) := by
  refine ⟨?_, by decide +kernel, by decide +kernel, by decide +kernel, by decide +kernel, by decide +kernel, by decide +kernel, by decide +kernel, by decide +kernel⟩
  simp only [List.mem_cons, List.not_mem_nil, or_false, forall_eq_or_imp, forall_eq]
  exact ⟨openAs_of (by decide +kernel) (by decide +kernel), openAs_of (by decide +kernel) (by decide +kernel), openAs_of (by decide +kernel) (by decide +kernel),
    openAs_of (by decide +kernel) (by decide +kernel), openAs_of (by decide +kernel) (by decide +kernel)⟩

/-- A source with all its four elements at the core. -/
def filled : Stream := { strm .src .running with read := 4, buf := (List.range 4).map fun i => ⟨i, BitVec.ofNat 64 (4 * (i % 2)), 0, 0, BitVec.ofNat 64 (0x2000 + 8 * (i / 2)), false⟩ }

theorem test_witness_StreamPopResults : openAs (slot5 filled) 5 filled ∧ popReady (slot5 filled) filled 5 ∧ popCount filled ((slot5 filled).c.total filled) = 4 ∧
    (slot5 filled).readyFor 0 false [] = true ∧ (slot5 filled).readyFor 0 true [] = true :=
  ⟨openAs_of (by decide +kernel) (by decide +kernel), by unfold popReady; decide +kernel, by decide +kernel⟩

theorem test_witness_StreamPopResults_traps : (¬ assigned unmanned 5 ∧ ¬ assigned (owning 0 wit) 5) ∧ (∀ s ∈ [unmanned, owning 0 wit, wit], s.readyFor 0 true [] = true ∧ s.readyFor 0 false [] = true) ∧
    assigned wit 5 ∧ (wit.c.slot 5).ph = .closed ∧
    (∀ t ∈ [strm .src .opened, strm .drn .running, { strm .src .running with bound := true }, { strm .src .halted with halt := some 0 }, { strm .src .running with f := 4 }],
      (slot5 t).readyFor 0 true [] = true ∧ ((slot5 t).c.slot 5).ph = t.ph ∧ ((slot5 t).c.slot 5).d.dir = t.d.dir ∧ ((slot5 t).c.slot 5).bound = t.bound ∧
      ((slot5 t).c.slot 5).f = t.f ∧ ((slot5 t).c.slot 5).halt = t.halt ∧ (slot5 t).c.taker 5 = none ∧ (slot5 t).act.isSome = true) ∧
    (slot5 { strm .src .running with f := 4 }).c.total { strm .src .running with f := 4 } = some 4 ∧
    (let s := pairOf (viaSix .running) { idxOf .n32 with ph := .running, bound := true }
     let t := s.c.slot 5
     let ix := s.c.indexOf t
     t.ph = .running ∧ t.d.dir = .src ∧ t.bound = false ∧ t.d.indir = true ∧ t.buf = [] ∧ t.addr t.f = none ∧ s.c.total t = none ∧ ix.d.dir = .idx ∧ ix.buf = [] ∧
       ix.skipped (t.ixpos + t.idx.length) = false ∧ s.c.taker 5 = none) :=
  ⟨⟨notAssigned_of (by decide +kernel), notAssigned_of (by decide +kernel)⟩, by decide +kernel, assigned_of (by decide +kernel), by decide +kernel, by decide +kernel, by decide +kernel, by decide +kernel⟩

theorem test_witness_StreamPushAndGrantResults : (∀ d ∈ [Dir.src, .drn, .upd], openAs (slot5 (strm d .running)) 5 (strm d .running)) ∧
    0 < pushCount (strm .drn .running) ((slot5 (strm .drn .running)).c.total (strm .drn .running)) ∧
    0 + pushCount (strm .drn .running) ((slot5 (strm .drn .running)).c.total (strm .drn .running)) ≤ 8 * (1024 / (strm .drn .running).d.regFmt.bits) ∧
    (slot5 (strm .drn .running)).readyFor 0 false [vR (2 : BitVec 5)] = true ∧ ((slot5 (strm .drn .running)).seen 0 false).cleanV 2 (List.range 16) = true ∧
    (slot5 (strm .drn .running)).readyFor 0 true [vR (2 : BitVec 5)] = true ∧ reads (slot5 (strm .upd .running)) [0, 4, 5] = true ∧ (slot5 (strm .src .running)).c.taker 5 = none ∧
    (let t := { strm .upd .running with g := 4 }
     t.frec < min 5 t.g ∧ min 0 t.g ≤ t.frec ∧ t.ph ≠ .halted) :=
  ⟨fun d _ => by cases d <;> exact openAs_of (by decide +kernel) (by decide +kernel), by decide +kernel⟩

theorem test_witness_StreamPushAndGrantResults_traps : (¬ assigned unmanned 5 ∧ ¬ assigned (owning 0 wit) 5) ∧
    (∀ s ∈ [unmanned, owning 0 wit, wit], s.readyFor 0 true [vR (2 : BitVec 5)] = true ∧ s.readyFor 0 false [vR (2 : BitVec 5)] = true) ∧ assigned wit 5 ∧ (wit.c.stream 5).ph = .closed ∧
    (∀ t ∈ [strm .src .running, strm .upd .running, { strm .drn .running with pushed := 4 }, { idxOf .n32 with pushed := 4 }], (slot5 t).c.stream 5 = t ∧ t.ph ≠ .closed ∧
      (slot5 t).act.isSome = true ∧ (slot5 t).readyFor 0 true [vR (2 : BitVec 5)] = true ∧ reads (slot5 t) [4] = true ∧
      (t.d.dir = .drn ∨ t.d.dir = .idx → pushCount t ((slot5 t).c.total t) = 0)) ∧
    (let t := { strm .idx .opened with d := { (idxOf .n32).d with c := [33, 1, 1, 1] } }
     pushCount t ((slot5 t).c.total t) = 32 ∧ t.buf.length + 32 ≤ 8 * (1024 / t.d.regFmt.bits)) ∧
    (strm .upd .halted).ph = .halted ∧ (∀ d ∈ [Dir.src, .drn, .idx, .upd], (slot5 (strm d .running)).c.taker 5 = none) :=
  ⟨⟨notAssigned_of (by decide +kernel), notAssigned_of (by decide +kernel)⟩, by decide +kernel, assigned_of (by decide +kernel), by decide +kernel, by decide +kernel, by decide +kernel, by decide +kernel⟩

theorem test_witness_StreamSaveLoadQueryResults : openAs (slot5 (strm .src .running)) 5 (strm .src .running) ∧ reads (slot5 (strm .src .running)) [6] = true ∧
    (slot5 (strm .src .running)).c.taker 5 = none ∧ (slot5 (strm .src .running)).c.recallable 5 = true ∧ ownIndex (slot5 (strm .src .running)) 5 ∧
    (∀ j, 5 ∈ (slot5 (strm .src .running)).c.along j → j = 5) ∧ 5 ∉ (strm .src .running).boundSlots ∧ (slot5 (strm .src .running)).lmOk 0x7FF80 128 128 = true ∧
    (let s := wit.upM fun m => { m with lm := m.lm.setGrans (0x7FF80 / 8) (sealed (imageWords (strm .src .running))) }
     s.loadOk 0x7FF80 128 128 = true ∧ ∀ n, n < 16 → s.c.m.lm.gran (0x7FF80 / 8 + n) = (imageWords (strm .src .running)).getD n 0 ∧
      s.c.m.lm.sealOf (0x7FF80 / 8 + n) = sealFn ((imageWords (strm .src .running)).getD n 0)) ∧
    (strm .src .running).d.c.length = 4 ∧ (strm .src .running).d.t.length = 4 ∧ opOk .src 0 .s32 .s32 = true ∧ (5 : BitVec 3).toNat < 6 ∧ (wit.c.stream 5).ph = .closed ∧
    (slot5 (strm .src .running)).c.total (strm .src .running) = some 4 :=
  ⟨openAs_of (by decide +kernel) (by decide +kernel), lead2 (by decide +kernel) ⟨by decide +kernel, by unfold ownIndex; decide +kernel, alone_of (by decide +kernel),
    by decide +kernel⟩⟩

/-- LM with the image of a stream at 0x7FF80, slot 5 closed and slot 6 with a stream. -/
def imaged (t u : Stream) : State := (withStream wit 6 u).upM fun m => { m with lm := m.lm.setGrans (0x7FF80 / 8) (sealed (imageWords t)) }

theorem test_witness_StreamSaveLoadQueryResults_traps : (¬ assigned unmanned 5 ∧ ¬ assigned (owning 0 wit) 5) ∧ (∀ s ∈ [unmanned, owning 0 wit, wit], reads s [6] = true) ∧
    (let t := { strm .src .running with bound := true }
     openAs (slot5 t) 5 t ∧ reads (slot5 t) [6] = true) ∧ assigned wit 5 ∧
    (∀ p ∈ [(Stream.closed, Stream.closed), ({ strm .src .opened with d := { (strm .src .opened).d with op := 8 } }, .closed), (viaSix .opened, .closed), (viaSix .opened, strm .drn .opened),
        (viaSix .opened, { idxOf .n32 with bound := true }), (withSecond .opened, .closed), (withSecond .opened, { strm .src .opened with bound := true }), (withSecond .opened, idxOf .n32),
        (viaSix .running, { idxOf .n32 with ph := .running }), (withSecond .opened, strm .src .opened)],
      let s := imaged p.1 p.2
      reads s [6] = true ∧ s.act.isSome = true ∧ (s.c.stream 5).ph = .closed ∧ (s.c.stream 6) = p.2 ∧ s.loadOk 0x7FF80 128 128 = true ∧ p.1.d.fmt.toNat < 14 ∧ p.1.d.op ≠ 4 ∧
        ∀ n, n < 16 → s.c.m.lm.gran (0x7FF80 / 8 + n) = (imageWords p.1).getD n 0 ∧ s.c.m.lm.sealOf (0x7FF80 / 8 + n) = sealFn ((imageWords p.1).getD n 0)) ∧
    (viaSix .opened).d.ixs = 6 ∧ opOk .src 8 .s32 .s32 = false ∧ opOk .upd 8 .s32 .s32 = true ∧ assigned (imaged (viaSix .running) (idxOf .n32)) 6 ∧ wit.readyFor 0 false [] = true :=
  ⟨⟨notAssigned_of (by decide +kernel), notAssigned_of (by decide +kernel)⟩, by decide +kernel, ⟨openAs_of (by decide +kernel) (by decide +kernel), by decide +kernel⟩, assigned_of (by decide +kernel),
    by decide +kernel, by decide +kernel, by decide +kernel, by decide +kernel, assigned_of (by decide +kernel), by decide +kernel⟩

/-- The tables of base map every address below 1 GiB to itself. -/
theorem walk_low (s : State) (va : Nat) (hv : va < 1073741824) (hd : s.devNum = 0) (hp : (s.part 0).ptb.toNat / 64 % 2 ^ 46 * 64 = 0x8000)
    (h4 : (s.homeGran 0x1000).1 = 0x8000000000010000 ∧ s.owner 0x8000 = some 0) (h3 : (s.homeGran 0x2000).1 = 0x8000000000014000 ∧ s.owner 0x10000 = some 0)
    (h2 : (s.homeGran 0x2800).1 = 0xD000000000000000 ∧ s.owner 0x14000 = some 0)
    (hk : s.locked 0x1000 = false ∧ s.locked 0x2000 = false ∧ s.locked 0x2800 = false) : s.walk 0 va = .ok ⟨va, 0xD000000000000000, 2, s.owner va⟩ := by
  have r : ∀ a, a < 17592186044416 → s.remote a = false := fun a ha => by
    simp only [State.remote, devOf, hd]
    rw [Nat.div_eq_of_lt (by omega : a < 2 ^ 44)]; rfl
  have e : va / 2 ^ 53 = 0 ∧ va / 2 ^ 41 = 0 ∧ va / 2 ^ 30 = 0 :=
    ⟨Nat.div_eq_of_lt (by omega), Nat.div_eq_of_lt (by omega), Nat.div_eq_of_lt (by omega)⟩
  have w : va % 2 ^ 30 = va := Nat.mod_eq_of_lt (by omega)
  have k : ((s.remote 0x8000 || s.owner 0x8000 != some 0) = false ∧ (s.remote 0x10000 || s.owner 0x10000 != some 0) = false) ∧
      (s.remote 0x14000 || s.owner 0x14000 != some 0) = false := by
    simp [h4.2, h3.2, h2.2, r]
  have i : 0x8000 / 8 = 0x1000 ∧ 0x10000 / 8 = 0x2000 ∧ 0x14000 / 8 = 0x2800 := by decide
  have t : (0x8000000000010000 : Word).toNat / 64 % 2 ^ 46 * 64 = 0x10000 ∧ (0x8000000000014000 : Word).toNat / 64 % 2 ^ 46 * 64 = 0x14000 := by decide
  simp only [State.walk, hp, walkLevels, State.walkFrom, e.1, e.2.1, e.2.2, Nat.zero_mod, Nat.mul_zero, Nat.add_zero, k.1.1, k.1.2, k.2, i.1, i.2.1, i.2.2, h4.1, h3.1, h2.1,
    t.1, t.2, w, hk.1, hk.2.1, hk.2.2]
  simp [r va (by omega)]

/-- A range of granules that pass their checks. -/
theorem distReads_clean (s : State) : ∀ (n va : Nat), (∀ i, i < n → ∃ g, s.distRead 0 (va + 8 * i) = some g ∧ syn g.1 g.2 = 0) →
    ∃ l, s.distReads 0 va n = some l ∧ l.any (fun g => syn g.1 g.2 != 0) = false
  | 0, _, _ => ⟨[], rfl, rfl⟩
  | n + 1, va, h => by
    obtain ⟨g, hg, hs⟩ := h 0 (by omega)
    obtain ⟨l, hl, hc⟩ := distReads_clean s n (va + 8) fun i hi => by
      have := h (i + 1) (by omega)
      rwa [show va + 8 * (i + 1) = va + 8 + 8 * i by omega] at this
    refine ⟨g :: l, ?_, by rw [List.any_cons, hc, hs]; rfl⟩
    simp only [State.distReads]
    rw [show va = va + 8 * 0 by omega, hg, show va + 8 * 0 + 8 = va + 8 by omega, hl]

/-- An address of a table where nothing is listed. -/
theorem tget_far {α : Type} (d : α) : ∀ (t : Tab α) (k : Nat), t.all (fun e => e.1 != k) = true → tget d t k = d
  | [], _, _ => rfl
  | (j, v) :: r, k, h => by
    simp only [List.all_cons, Bool.and_eq_true, bne_iff_ne] at h
    simp only [tget, if_neg h.1]
    exact tget_far d r k h.2

theorem gone_read (va : Nat) (h1 : 0x4080 ≤ va) (h2 : va < 0x8000) (h8 : va % 8 = 0) : gone.distRead 0 va = some (0, 0) := by
  have hw := walk_low gone va (by omega) (by decide +kernel) (by decide +kernel) (by decide +kernel) (by decide +kernel) (by decide +kernel) (by decide +kernel)
  have hf : ∀ f, f < 4 → 2 ≤ f → tget 0 gone.home.frames f = 0x20 := by decide +kernel
  have ho : gone.owner va = some 0 := by
    have := hf (va / 8192) (by omega) (by omega)
    simp only [State.owner, State.frame, this]; rfl
  have hb : ∀ k, 0x4080 ≤ k → k < 0x8000 → gone.home.mem.byte k = 0 := fun k a b => tget_far _ _ _ (by
    have h : gone.home.mem.bytes.all (fun e => e.1 < 0x4080 || 0x8000 ≤ e.1) = true := by decide +kernel
    rw [List.all_eq_true] at h ⊢
    intro e he
    have := h e he
    simp only [Bool.or_eq_true, decide_eq_true_eq] at this
    simp only [bne_iff_ne]
    omega)
  have hs : gone.home.mem.sealOf (va / 8) = 0 := tget_far _ _ _ (by
    have h : gone.home.mem.seals.all (fun e => e.1 < 0x810 || 0x1000 ≤ e.1) = true := by decide +kernel
    rw [List.all_eq_true] at h ⊢
    intro e he
    have := h e he
    simp only [Bool.or_eq_true, decide_eq_true_eq] at this
    simp only [bne_iff_ne]
    omega)
  have hk : gone.lostAt (va / 8) = false := by
    have : tget 0 gone.home.slots (va / 8 / 1024) = 0 := by
      have : gone.home.slots = [] := by decide +kernel
      rw [this]; rfl
    have hr : gone.remote va = false := by
      have hd : gone.devNum = 0 := by decide +kernel
      simp only [State.remote, devOf, hd]
      rw [Nat.div_eq_of_lt (by omega : va < 2 ^ 44)]; rfl
    have he : gone.power.ready.contains (.eave (gone.homeEave va)) = true := by
      have h : ∀ f, f < 4 → gone.power.ready.contains (.eave (gone.homeEave (8192 * f))) = true := by decide +kernel
      have := h (va / 8192) (by omega)
      have e : 8192 * (va / 8192) % 2 ^ 44 / 8192 = va % 2 ^ 44 / 8192 := by omega
      simp only [State.homeEave, e] at this ⊢
      exact this
    simp only [State.lostAt, State.keyDead, State.served, this, show 8 * (va / 8) = va by omega, hr, he]
    rfl
  have hg : gone.homeGran (va / 8) = (0, 0) := by
    have hfr := hf (8 * (va / 8) / 8192) (by omega) (by omega)
    simp only [State.homeGran, hk, State.frame, hfr, Mem.gran, hs]
    simp (disch := omega) only [hb]
    rfl
  have hd : (gone.part 0).dead = 0 := by decide +kernel
  simp only [State.distRead, State.distXlat, Nat.div_eq_of_lt (show va < 2 ^ 56 by omega), hw, ho]
  simp [State.slotGone, hd, hg]

/-- A range of granules that read zero. -/
theorem distReads_zero (s : State) : ∀ (n va : Nat), (∀ i, i < n → s.distRead 0 (va + 8 * i) = some (0, 0)) → s.distReads 0 va n = some (List.replicate n (0, 0))
  | 0, _, _ => rfl
  | n + 1, va, h => by
    have hl := distReads_zero s n (va + 8) fun i hi => by
      have := h (i + 1) (by omega)
      rwa [show va + 8 * (i + 1) = va + 8 + 8 * i by omega] at this
    simp only [State.distReads]
    rw [show va = va + 8 * 0 by omega, h 0 (by omega), show va + 8 * 0 + 8 = va + 8 by omega, hl]
    rfl
theorem gone_words (o n : Nat) (h1 : 0x80 ≤ o) (h8 : o % 8 = 0) (h2 : o + 8 * n ≤ 0x4000) : gone.imageWords 0 0x4000 o n = List.replicate n 0 := by
  simp only [State.imageWords]
  rw [distReads_zero gone n (0x4000 + o) fun i hi => gone_read _ (by omega) (by omega) (by omega)]
  simp
theorem readImage_ok {s : State} {part va : Nat} {h : ImageHeader} {i : Option Image} {l : List (Word × Byte)} (h0 : va % 8192 = 0) (h1 : s.rangeOk part va 8192 false = true)
    (h2 : (let l := (s.distReads part va 16).getD []
      if l.all (fun g => syn g.1 g.2 == 0) then readHeader (l.map (·.1)) part else none) = some h)
    (h3 : s.rangeOk part va (imageBase (h.flags % 2 == 1) + (h.hi - h.lo) * 8192) false = true) (h4 : s.distReads part va (imageBase (h.flags % 2 == 1) / 8) = some l)
    (h5 : l.any (fun g => syn g.1 g.2 != 0) = false) (h6 : s.dist.images.find? (fun i => i.part == part && i.time == h.time && i.actor.addr == h.addr) = i)
    (h7 : s.areasOk part va h i = true) : s.readImage part va = .ok (h, i) := by
  simp only at h2
  simp only [State.readImage, h2, h4, h6, h7, Option.getD_some, h5]
  simp [h0, h1, h3]

/-- The image at 0x4000 is well formed, and the acting core has room for it. -/
theorem gone_image : ∃ h m, gone.readImage 0 0x4000 = .ok (h, m) ∧ Core.roomFor 0 gone.c 0 h = true ∧ gone.quadRoom 0 h = true ∧ h.flags = 0 := by
  obtain ⟨l, hl, hc⟩ := distReads_clean gone 2048 0x4000 fun i hi => by
    by_cases h : i < 16
    · have : ∀ i, i < 16 → ((gone.distRead 0 (0x4000 + 8 * i)).any fun g => syn g.1 g.2 == 0) = true := by decide +kernel
      have := this i h
      cases hg : gone.distRead 0 (0x4000 + 8 * i) with
      | none => rw [hg] at this; cases this
      | some g => rw [hg] at this; exact ⟨g, rfl, by simpa using this⟩
    · exact ⟨(0, 0), gone_read _ (by omega) (by omega) (by omega), by decide +kernel⟩
  let h : ImageHeader := ⟨0x10, 5, 0, 0, 0, 1, 2, 0, 0, 0, 0, 4, 0⟩
  refine ⟨h, some ⟨0, 0, small, none, [], none, []⟩, readImage_ok (by decide) (by decide +kernel) (by decide +kernel) (by decide +kernel)
    (by rw [show imageBase (h.flags % 2 == 1) / 8 = 2048 by decide +kernel]; exact hl) hc (by decide +kernel) ?_,
    by decide +kernel, by decide +kernel, rfl⟩
  have w : ∀ o n, 0x80 ≤ o → o % 8 = 0 → o + 8 * n ≤ 0x4000 → gone.imageWords 0 0x4000 o n = List.replicate n 0 := gone_words
  simp only [State.areasOk, Bool.and_eq_true, List.all_eq_true, List.mem_range]
  simp +contextual (disch := omega) only [w]
  have zero : ∀ (n : Nat) (x : Word), x ∈ List.replicate n 0 → (x == 0) = true := fun n x hx => by rw [List.eq_of_mem_replicate hx]; rfl
  repeat' apply And.intro
  all_goals first | exact zero _ | decide +kernel

/-- Its LM window can be read. -/
theorem gone_window : ∃ l, gone.distReads 0 0x8000 1024 = some l := by
  have : ∀ (n va : Nat), va % 8 = 0 → 0x8000 ≤ va → va + 8 * n ≤ 0xA000 → ∃ l, gone.distReads 0 va n = some l := fun n => by
    induction n with
    | zero => exact fun _ _ _ _ => ⟨[], rfl⟩
    | succ n ih =>
      intro va h8 h1 h2
      obtain ⟨l, hl⟩ := ih (va + 8) (by omega) (by omega) (by omega)
      have hw := walk_low gone va (by omega) (by decide +kernel) (by decide +kernel) (by decide +kernel) (by decide +kernel) (by decide +kernel) (by decide +kernel)
      have hf : tget 0 gone.home.frames 4 = 0x20 := by decide +kernel
      have ho : gone.owner va = some 0 := by
        simp only [State.owner, State.frame, show va / 8192 = 4 by omega, hf]; rfl
      have hr : ∃ g, gone.distRead 0 va = some g := by
        simp only [State.distRead, State.distXlat, Nat.div_eq_of_lt (show va < 2 ^ 56 by omega), hw, ho]
        exact ⟨_, rfl⟩
      obtain ⟨g, hg⟩ := hr
      exact ⟨g :: l, by simp only [State.distReads]; rw [hg, hl]⟩
  exact this 1024 0x8000 (by decide) (by decide) (by decide)
theorem test_witness_GangAndImageResults : (saved 0).x.trap.pl = true ∧ reads (saved 0) [11, 4, 12, 13, 14, 15] = true ∧ (saved 0).gangOf 1 = none ∧
    (∀ b, (gangStopped b).gangOf 5 = some { theGang with stopped := b }) ∧ (gangStopped false).c.partNo = 0 ∧
    (∀ p ∈ (gangStopped false).residents theGang, ((gangStopped false).haltGang theGang).memberBusy p.1 p.2 = false) ∧
    ((gangStopped true).residents theGang).length = theGang.members.length ∧ (gone.residents theGang).length ≠ theGang.members.length ∧
    coreNumber (saved 0).cur < 1024 ∧ 16 ≤ (((saved 0).seen 0 false).gv 13).toNat ∧ 0x2001 % 8192 ≠ 0 ∧ (gone.c.actor 0) = none ∧ (saved 0).c.actor 0 = some small ∧
    (saved 0).rangeOk 0 0x4000 small.imageLen true = true ∧ (saved 0).rangeOk 0 0xFFFFFFFFFFE000 small.imageLen true = false ∧ (saved 0).c.ctxsOf 0 = [] ∧
    (saved 0).saveReady 0 0 = true ∧ busy.c.ctxsOf 0 ≠ [] ∧
    (∃ h m, gone.readImage 0 0x4000 = .ok (h, m) ∧ Core.roomFor 0 gone.c 0 h = true ∧ gone.quadRoom 0 h = true ∧ h.flags = 0) ∧ gone.loadBusy 0x4000 = false ∧
    gone.loadBusy 0x2000 = false ∧ gone.loadBusy 0xFFFFFFFFFFE000 = false ∧ (saved 0).imageBusy 0 0x4000 = false ∧
    (match gone.readImage 0 0x2000 with | .ok _ => false | .error n => n == 2) = true ∧
    (match gone.readImage 0 0xFFFFFFFFFFE000 with | .ok _ => false | .error n => n == 3) = true := by
  refine lead8 (by decide +kernel) (lead8 (by decide +kernel) ⟨by decide +kernel, by decide +kernel, gone_image, by decide +kernel⟩)

/-- A member that stands while its map entry names a park buffer or the core; the firing halted with its actor, a result pending. -/
def parkedMember (b : Bool) : State :=
  { gangStopped true with dist := { (gangStopped true).dist with parts := [(0, { (gangStopped true).part 0 with amap := [(1, if b then 0x8000000000004000 else 0x4000000000000000)] })] } }
def haltedFiring : State := (gangStopped true).upC fun c => c.setCtx 1 { Ctx.reset with
  firing := some (placedFiring 0), halted := true, pend := [⟨.v 31, 7, 0x5A, 200, none⟩], regs := Regs.zero.setG 31 9 (sealFn 9) }

theorem test_witness_GangAndImageResults_more : (∃ l, gone.distReads 0 0x8000 1024 = some l) ∧
    (∀ e ∈ [true, false], (parkedMember e).gangOf 5 = some { theGang with stopped := true } ∧
      ((parkedMember e).residents theGang).length = theGang.members.length ∧ (∀ m ∈ theGang.members, (amState ((parkedMember e).amap 0 m.2.2) == 2) = e)) ∧
    (haltedFiring.act = (gangStopped true).act ∧ (haltedFiring.c.ctxsOf 0).head? = some 1 ∧ haltedFiring.saveReady 0 0 = true ∧ haltedFiring.imageBusy 0 0x4000 = false ∧
      ((haltedFiring.c.ctx 1).pend.map (·.reg)) = [.v 31] ∧ (haltedFiring.c.actor 0).any (·.stopped) = true) ∧
    (small.gang < 2 ^ 32 ∧ small.part < 16 ∧ small.rank < 2 ^ 16 ∧ (saved 0).c.m.ways < 2 ^ 8 ∧ small.code < 2 ^ 32 ∧ small.codeLen < 2 ^ 32 ∧ (saved 0).time < 2 ^ 64) :=
  ⟨gone_window, by decide +kernel, by decide +kernel, by decide +kernel⟩


/-- n messages outbound. -/
def outbound (n : Nat) (s : State) : State := s.upC fun c => { c with outbound := List.replicate n ⟨0, .plain, 0, 0x10, 0, 0, 0, 0, [], 0, [], none, false, 0, .flying⟩ }
/-- The operands of sends: destinations at the bounds of R195, payload addresses, a tag, and W. -/
def sender (w : Nat) : State :=
  (withActor (gs wit [(11, 0xFFDF00000017), (12, 0xFFE000000017), (13, 0x1000000000000), (14, 0x2001), (15, 15), (16, 0x7FFF0)]) fun a =>
    { a with csr := { a.csr with w := w }, tags := [(15, { Tag.free with used := true, bind := some (.range 0x3000 128) })] }).upM fun m =>
      { m with lm := (m.lm.setGrans 0x400 (sealed [1, 16, 0])) }

theorem test_witness_SendResults : (∀ w ∈ [0, 1, 2], reads (sender w) [0, 1, 11, 12, 13, 14, 15, 16] = true) ∧ (∀ w ∈ [0, 1, 2], (sender w).act.isSome = true ∧
      ((sender w).act.any fun k => k.csr.w == w && k.rank < 2 ^ 16) = true) ∧ goodDest 0xFFDF00000017 ∧ ¬ goodDest 0xFFE000000017 ∧ ¬ goodDest 0x1000000000000 ∧ goodDest 0 ∧
    goodPayload (sender 2) 0x2000 4096 ∧ goodPayload (sender 2) 0x2001 16 ∧ goodPayload (sender 2) 0x7FFF0 16 ∧
    (tileList theActor (payloadOf (sender 2) 0x2000 64)).isSome = true ∧ (tileList theActor (payloadOf (sender 2) 0x3000 64)).isSome = false ∧
    (sender 2).member theActor 0 = some 0x10 ∧ ((sender 2).act.any fun k => (tget .free k.tags 15).bind != none && !(tget .free k.tags 15).out) = true ∧
    (outbound 31 (sender 2)).c.outbound.length < 32 ∧ 32 ≤ (outbound 32 (sender 2)).c.outbound.length ∧ (sender 2).readyFor 0 false [gR (1 : BitVec 5), vR (2 : BitVec 5)] = true := by
  refine ⟨by decide +kernel, by decide +kernel, by unfold goodDest; decide +kernel, by unfold goodDest; decide +kernel, by unfold goodDest; decide +kernel,
    by unfold goodDest; decide +kernel, by unfold goodPayload; decide +kernel, by unfold goodPayload; decide +kernel, by unfold goodPayload; decide +kernel, by decide +kernel⟩

/-- No resident actor, bad operands, a payload whose second granule is beyond the last address of LM or whose first is below the window, tags that cannot be used, and members. -/
theorem test_witness_SendResults_statuses : unmanned.act = none ∧ reads unmanned [0, 1, 4] = true ∧ unmanned.readyFor 0 false [gR (1 : BitVec 5), vR (2 : BitVec 5)] = true ∧
    ¬ goodDest 0x800000008 ∧ (0x2008 : Word).getLsbD 3 = true ∧ 6 ≤ (0x2006 : Word).toNat % 8 ∧ (sender 2).c.storesLm (sender 2).curCtx = false ∧
    ((0x7FFF0 + 8 : Word).toNat + 8 = 0x80000 ∧ (∀ i, i < 2 → (sender 2).lmOk (0x7FFF0 + BitVec.ofNat 64 (8 * i)) 8 8 = true) ∧ (sender 2).c.xbAddr ≤ (0x7FFF0 + 16 : Word).toNat ∧
      (sender 2).lmInside (0x7FFF0 + 16 : Word).toNat 8 = false) ∧ (payloadAt 0x1FF0).toNat < (sender 2).c.xbAddr ∧
    ((sender 2).act.any fun k => (tget .free k.tags 15).out == false && (tget .free k.tags 14).bind == none) = true ∧
    (withActor (sender 2) fun a => { a with tags := [(15, { Tag.free with used := true, bind := some (.range 0x3000 128), out := true })] }).act.any (fun k => (tget .free k.tags 15).out) = true ∧ 0x1000000 / 2 ^ 24 % 256 ≠ 0 ∧ (sender 2).member theActor 1 = none := by
  refine ⟨by decide +kernel, by decide +kernel, by decide +kernel, by unfold goodDest; decide +kernel, by decide +kernel⟩

/-- Operands of REPLY and JADD at their bounds. -/
def replier : State := gs wit [(11, 0xF00000010), (12, 0x1000000000), (13, 0x40001), (14, 0x50001)]
/-- A firing of mailbox 0's message in slot 0, forwarded or of a join. -/
def firing (join fwd : Bool) : State := wit.upX fun x => { x with firing := some { placedFiring 0 with slots := [0], join := join, forwarded := fwd, header := 64 * 2 ^ 64 } }

theorem test_witness_ReplyForwardAndContributionResults : replier.act.isSome = true ∧ reads replier [1, 4, 11, 12, 13, 14] = true ∧ 2 ^ 36 ≤ 0x1000000000 ∧ 0xF00000010 < 2 ^ 36 ∧
    (0xF00000010 : Word).getLsbD 3 = false ∧ goodPayload replier 0x2000 4096 ∧ 0x40001 / 2 ^ 16 ≤ 4 ∧ 4 < 0x50001 / 2 ^ 16 ∧ goodDest 1 ∧ ¬ goodDest 0x1000000000000 ∧
    (∀ j f, reads (firing j f) [1, 4] = true ∧ (firing j f).x.firing ≠ none ∧ (firing j f).c.outbound.length < 32 ∧ ((firing j f).c.actor 0).isSome = true) ∧
    bare.x.firing = none ∧ reads bare [4] = true := by
  refine lead4 (by decide +kernel) ⟨by decide +kernel, by unfold goodPayload; decide +kernel, by decide +kernel,
    by decide +kernel, by unfold goodDest; decide +kernel, by unfold goodDest; decide +kernel, by decide +kernel⟩

theorem test_witness_ReplyForwardAndContributionResults_statuses : unmanned.act = none ∧ reads unmanned [0, 1, 4] = true ∧ (outbound 32 (firing false false)).x.firing.any (fun f => !f.join && !f.forwarded) = true ∧
    32 ≤ (outbound 32 (firing false false)).c.outbound.length ∧ reads (outbound 32 (firing false false)) [4] = true ∧ (outbound 32 replier).c.outbound.length = 32 := by decide +kernel

/-- Words for mailbox 3, for mailbox 0 in use, and bindings; all tags or none bound; reservations free. -/
def boxes (used : Nat) (out : Bool) (len : Option Nat) : State :=
  (withActor (gs wit [(11, 0x20014603), (12, 0x3000), (13, 0x8000000000002000), (14, 16), (15, 17), (16, 0x8000000000000007), (17, 8), (18, 0x4000), (19, 0)]) fun a =>
    { a with tags := ((List.range used).map fun i => (i, { Tag.free with used := true })) ++ [(15, { Tag.free with used := true, bind := some (.range 0x3000 128), out := out, landed := len })] })

theorem test_witness_MailboxAndTagResults : (boxes 0 true none).act.isSome = true ∧ reads (boxes 0 true none) [0, 1, 4, 7, 9, 11, 12, 13, 14, 15, 16, 17, 18, 19] = true ∧
    theActor.mbBusy 0 = true ∧ theActor.mbBusy 3 = false ∧ cfgOk wit.c theActor 0x1CA4203 0x3000 = true ∧ cfgOk wit.c theActor 0x1CA4203 0x3001 = false ∧
    (theActor.mb 0).kind = 0 ∧ (theActor.mb 1).kind = 1 ∧ (theActor.mb 1).heldSlots ≠ [] ∧ (8 : Nat) ≤ 8 ∧ bindingOf wit.c theActor 0x8000000000002000 = none ∧
    bindingOf wit.c theActor 0x8000000000000007 = some (.mailbox 7) ∧ bindingOf wit.c theActor 0x1000007000 = some (.range 0x7000 16) ∧ 16 < 17 ∧
    theActor.freeTag = some 0 ∧ (tget .free theActor.tags 0).early = none ∧ theActor.claimed 7 < (theActor.mb 7).rsv ∧
    (tagsUsed 16).act.any (fun k => k.freeTag == none) = true ∧ wit.x.firing.any (fun f => !f.join) = true ∧
    (∀ p ∈ [(true, none), (false, some 16)], (boxes 0 p.1 p.2).act.any (fun k => (tget .free k.tags 15).bind == some (.range 0x3000 128)) = true) ∧
    (tget .free theActor.tags 3).bind = none := by decide +kernel

theorem test_witness_MailboxAndTagResults_statuses : unmanned.act = none ∧ reads unmanned [1, 4] = true ∧ (wit.upX fun x => { x with firing := none }).x.firing = none ∧
    reads (wit.upX fun x => { x with firing := none }) [1, 4] = true ∧ (boxes 0 false none).act.any (fun k => !(tget .free k.tags 15).out && (tget .free k.tags 15).landed == none) = true ∧
    (tget .free theActor.tags 16).bind = none := by decide +kernel

/-- A queue of eight with its control block at 0x2000 and slots at 0x2400: RESERVE as given, HEAD 0, FREE 0; a record at 0x2800. -/
def queued (reserve : Nat) (committed : List Nat) : State :=
  let s := gs wit [(11, 0x2800), (12, 0x2801), (13, 16), (14, 0x150), (15, 0x1150), (16, 0x20142), (17, 0x7F0)]
  { s with home := { s.home with mem := (s.home.mem.setGrans 0x400 (sealed [0x2400, 8, BitVec.ofNat 64 reserve, 0, 0])) }
           dist := { s.dist with queues := [(0, ⟨0x2000, true, committed, []⟩)] } }

theorem test_witness_ActorInstructionResults : (queued 7 []).act.isSome = true ∧ reads (queued 7 []) [0, 1, 4, 9, 11, 12, 13, 14] = true ∧ (queued 7 []).relWaits .dv true = false ∧
    (theActor.mb 2).kind = 2 ∧ (theActor.mb 2).ord = false ∧ (theActor.mb 2).join = none ∧ 0x102 < 2 ^ 19 ∧ 0x102 % 8 = 2 ∧ 0x112 / 16 % 16 = 1 ∧
    wit.c.windowAt theActor 0x2000 (theActor.mb 2).z = true ∧
    (queued 7 []).vaBusy 0 0x2800 8 = false ∧ (queued 7 []).queueBusy 0 0 ((queued 7 []).qReserve 0 0) = false ∧
    ((queued 7 []).queue 0 0).enabled = true ∧ ((queued 7 []).distReads 0 0x2800 8).isSome = true ∧ (queued 8 []).qReserve 0 0 - (queued 8 []).qFree 0 0 = (queued 8 []).qCount 0 0 ∧
    (((queued 7 []).distReads 0 0x2800 8).any fun r => ((queued 7 []).qAppend 0 0 r).isSome) = true ∧
    (queued 7 []).gangOf 5 = some theGang ∧ theGang.members[0]? = some (0, 0, 0x10) ∧ theGang.members.length ≤ 1 ∧
    ((queued 7 []).dist.stages.find? fun t => decide (t.key = 3)).isSome = true := by decide +kernel

theorem test_witness_ActorInstructionResults_statuses : unmanned.act = none ∧ reads unmanned [1, 4] = true ∧ unmanned.relWaits .dv true = false ∧
    (∀ w ∈ [0, 1], ((withActor wit fun a => { a with csr := { a.csr with w := w } }).act.any fun k => k.csr.w == w) = true) ∧ (withActor wit fun a => { a with csr := { a.csr with w := 0 } }).relWaits .dv true = false ∧
    (let u := ((queued 7 []).issued 0).released .dv
     let v := u.2.upAct fun k => { k with pub := some (u.1, .dv) }
     (v.queue 0 0).enabled = true ∧ (v.distReads 0 0x2800 8).any (fun r => (v.qAppend 0 0 r).isSome) = true ∧ (v.queue 0 1).enabled = false ∧ 0x2801 % 64 ≠ 0 ∧
       v.distReads 0 0x40000000 8 = none) ∧
    (let u := ((queued 8 []).issued 0).released .dv
     let v := u.2.upAct fun k => { k with pub := some (u.1, .dv) }
     v.qReserve 0 0 - v.qFree 0 0 = v.qCount 0 0) := by decide +kernel

/-- A store of the context in its queue; a load outstanding. -/
def storing : State := wit.upM fun m => { m with stores := [⟨0, 0, 0, 0x10, 0, 0x2000, [⟨0x400, 0xFF, 0, 0⟩], false, false⟩] }

theorem test_witness_FenceReleaseAcquireResults : wit.c.storesLm wit.curCtx = false ∧ wit.readyFor 0 false [] = true ∧ wit.c.streamsBusy wit.actIdx = false ∧ (∀ k, wit.relWaits k true = false) ∧ storing.relWaits .cl true = true ∧
    (∃ e ∈ storing.c.m.stores, e.ctx = storing.curCtx) ∧ wit.loadsOut = false ∧ (∀ k, wit.acqBlocked k = false) ∧ reads wit [1, 4] = true ∧ reaches wit 0x2000 true page ∧
    wit.locked 0x400 = false ∧ (wit.translate 0 0 0x2000).2.denied 0 0x2000 = false ∧ (wit.translate 0 0 0x2000).2.lostAt 0x400 = false ∧
    wit.c.pendingAt wit.curCtx false [0x400] = false ∧ (wit.translate 0 0 0x2000).2.pointHome .cl page = false ∧ (wit.translate 0 0 0x2000).2.pointHome .dv page = true := by
  have sc : ∀ P : Scope → Bool, (P .cl && P .dv && P .sy) = true → ∀ k, P k = true := fun P h k => by
    simp only [Bool.and_eq_true] at h; cases k <;> simp [h]
  exact lead2 (by decide +kernel) ⟨by decide +kernel, fun k => by have := sc (fun k => !wit.relWaits k true) (by decide +kernel) k; simpa using this, lead2 (by decide +kernel) ⟨by decide +kernel, fun k => by have := sc (fun k => !wit.acqBlocked k) (by decide +kernel) k; simpa using this, by decide +kernel, reaches_of (by decide +kernel), by decide +kernel⟩⟩

/-- Dirty granules of line 0x20 in both caches, named by P.DV; RS names them too, and so does the line's signature at home and in the cluster. -/
def coherent : State :=
  let s := (flushing.upM fun m => { m with pcl := ⟨false, [0x410]⟩, pdv := ⟨false, [0x403]⟩ }).upX fun x => { x with rs := ⟨false, [0x403]⟩ }
  let q := s.upCluster 0 fun k => { k with sigs := [(0x20, some ⟨false, [0x403]⟩)] }
  { q with home := { q.home with sigs := [(0x20, some ⟨false, [0x403]⟩)] } }

theorem test_witness_FenceReleaseAcquireResults_dirty : (∀ s ∈ [coherent, onEave coherent], ∀ k ∈ [Scope.cl, .dv, .sy], s.relWaits k true = false ∧ s.acqBlocked k = false ∧ s.loadsOut = false ∧
      s.readyFor 0 false [] = true ∧ (s.c.m.cache.map (·.1)).Nodup) ∧
    (∃ e ∈ coherent.c.m.cache, e.2.dirty = true ∧ coherent.c.m.pdv.hits 32 e.1 = true ∧ coherent.x.rs.hits 4 e.1 = true ∧ coherent.denied e.2.part (8 * e.1) = false ∧ coherent.lostAt e.1 = false) ∧
    ((coherent.cluster 0).cache.map (·.1)).Nodup ∧ (∃ e ∈ (coherent.cluster 0).cache, e.2.dirty = true ∧ coherent.c.m.pdv.hits 32 e.1 = true ∧ inCache coherent.c.m.cache e.1 = false) ∧
    coherent.x.bp = false ∧ (coherent.upX fun x => { x with bp := true }).x.bp = true ∧ isEave coherent.cur = false ∧ isEave (onEave coherent).cur = true ∧
    (∀ w ∈ [true, false], coherent.lineSig w 0 0x400 = some ⟨false, [0x403]⟩ ∧ wit.lineSig w 0 0x400 = none) ∧ reads coherent [1, 4] = true ∧ canReach coherent 0x2000 true page = true ∧
    (∀ h ∈ [true, false], coherent.linkHeld h page.pa = false) ∧ coherent.noRoom (clusterOf coherent.cur) (0x400 :: coherent.c.dirtyGrans) = false ∧ coherent.locked 0x400 = false ∧
    coherent.c.pendingAt coherent.curCtx false [0x400] = false ∧ (coherent.translate 0 0 0x2000).2.pointHome .cl page = false ∧ 0x2000 % 8 = 0 := by decide +kernel

/-- An atomic at home, without and with its reply; 31 posted atomics. -/
def atomicAt (fn w : Nat) (p : Bool) (reply : Option (List (Word × Byte))) : Far :=
  ⟨1, 0, 0, 0x10, 0, .atomic fn w p (some (.g 3)) 1 0 .dv, 0x2000, 0x2000, w / 8, false, false, false, [], [], [], reply, 0, none, true, none⟩
def withFar (s : State) (l : List Far) : State := s.upM fun m => { m with far := l }

theorem test_witness_AtomicResults : atomics.length = 12 ∧ reads wit [1, 4, 9] = true ∧ reaches wit 0x2000 true page ∧ wit.locked 0x400 = false ∧ wit.c.ordered wit.curCtx false 0x400 = false ∧
    (withFar wit (List.replicate 31 (atomicAt 0 32 true none))).c.posted wit.curCtx < 32 ∧ (withFar wit (List.replicate 15 (atomicAt 0 32 false none))).c.misses < 16 ∧
    (∀ q ∈ atomics.map (·.2), ((withFar wit [atomicAt q.1 q.2 false none]).core 0).farOf 1 = some (atomicAt q.1 q.2 false none) ∧
      ((withFar wit [atomicAt q.1 q.2 false none]).core 0).onLink (atomicAt q.1 q.2 false none) = false ∧ (atomicAt q.1 q.2 false none).atHome = true ∧ 0x2000 % (q.2 / 8) = 0 ∧
      ∀ g ∈ ((withFar wit [atomicAt q.1 q.2 false none]).core 0).m.far, ¬ g.id < 1) ∧ (∀ g ∈ wit.c.m.far, g.id ≠ wit.dist.next) ∧
    (withFar wit [atomicAt 0 32 false none]).denied 0 0x2000 = false ∧ (withFar wit [atomicAt 0 32 false none]).lostAt 0x400 = false ∧
    syn ((withFar wit [atomicAt 0 32 false none]).homeGran 0x400).1 ((withFar wit [atomicAt 0 32 false none]).homeGran 0x400).2 = 0 ∧
    ((withFar wit [atomicAt 0 32 false (some [(5, sealFn 5)])]).core 0).farOf 1 = some (atomicAt 0 32 false (some [(5, sealFn 5)])) :=
  ⟨by decide +kernel, by decide +kernel, reaches_of (by decide +kernel), by decide +kernel⟩

/-- An atomic of cluster scope, the granule in the cluster cache or not, with a seal. -/
def clusterAtomic (held : Bool) (sl : Byte) : State :=
  let s := withFar wit [{ atomicAt 0 32 false none with kind := .atomic 0 32 false (some (.g 3)) 1 0 .cl, atHome := false }]
  let q := s.upCluster 0 fun k => { k with cache := if held then [(0x400, ⟨5, sl, false, 0, 0⟩)] else [] }
  { q with home := { q.home with mem := q.home.mem.setGran 0x400 5 sl } }

theorem test_witness_AtomicResults_points : (∀ h ∈ [true, false], ∀ sl ∈ [sealFn 5, sealFn 5 ^^^ 1], let s := clusterAtomic h sl
      ((s.core 0).farOf 1).any (fun f => !f.atHome && f.reply.isNone && f.pa == 0x2000) = true ∧ s.noRoom 0 [0x400] = false ∧ s.locked 0x400 = false ∧ s.denied 0 0x2000 = false ∧
      s.lostAt 0x400 = false ∧ ((s.core 0).m.far.all fun g => decide (1 ≤ g.id)) = true ∧ ((s.core 0).farOf 1).all (fun f => !(s.core 0).onLink f) = true ∧
      (cacheAt (s.cluster 0).cache 0x400).isSome = h ∧ (syn 5 sl == 0) = (sl == sealFn 5) ∧ s.homeGran 0x400 = (5, sl)) ∧
    wit.cleanHeld wit.cur (· == 0x400) = false ∧ flushing.cleanHeld flushing.cur (· == 0x403) = false ∧ canReach flushing 0x2018 true { page with pa := 0x2018 } = true ∧
    (cacheAt flushing.c.m.cache 0x403).any (·.dirty) = true ∧ (flushing.c.m.cache.map (·.1)).Nodup ∧ flushing.pointHome .dv page = true ∧ flushing.pointHome .cl page = false ∧
    (∀ r ∈ [none, some (RegId.g 3)], ∀ g ∈ [none, some (⟨false, [0x400]⟩ : Sig)],
      ((withFar wit [{ atomicAt 7 32 false (some [(5, sealFn 5)]) with kind := .atomic 7 32 false r 1 0 .dv, flags := 4, sig := g }]).core 0).farOf 1 =
        some { atomicAt 7 32 false (some [(5, sealFn 5)]) with kind := .atomic 7 32 false r 1 0 .dv, flags := 4, sig := g }) ∧
    ((wit.upX fun x => { x with varp := [⟨1, .g 3, none, false⟩] }).x.varp.find? (·.id == 1)) = some ⟨1, .g 3, none, false⟩ := by decide +kernel

/-- A generation complete, its release due now. -/
def due : State := { wit with dist := { wit.dist with gangs := [{ theGang with tags := [⟨0, 0, 0, none, []⟩, ⟨1, 1, 0, some 0, []⟩, ⟨2, 0, 0, none, []⟩] }] } }

theorem test_witness_BarrierResults : wit.readyFor 0 false [] = true ∧ (wit.act.any fun k => k.ridge == [.idle, .arrived, .released]) = true ∧ theActor.ridge[7]? = none ∧
    (wit.gangOf theActor.gang).isSome = true ∧ (wit.upX fun x => { x with barvSent := some (0x100 * 8 + 2) }).x.barvSent = some ((wit.x.pc.toNat) * 8 + 2) ∧
    (due.gangOf 5).any (fun g => g.tags[1]? == some ⟨1, 1, 0, some 0, []⟩) = true ∧ 0 ≤ due.time ∧ theActor.ridge[1]? = some .arrived := by decide +kernel

/-- A watch entry of the context on the granule; all entries in use by another context; a granule lost. -/
def watching (hit lost : Bool) : State := wit.upM fun m => { m with watch := [(15, ⟨0, 0x400, 0x2000, hit, lost⟩)] }
def crowded : State := wit.upM fun m => { m with watch := (List.range 16).map fun i => (i, ⟨1, 0x400, 0x2000, false, false⟩) }

theorem test_witness_WatchResults : reads wit [1, 4] = true ∧ reaches wit 0x2000 false page ∧ wit.watchOf 0x2000 = none ∧ wit.freeWatch = some 0 ∧
    (∀ h l, (watching h l).watchOf 0x2000 = some (15, ⟨0, 0x400, 0x2000, h, l⟩)) ∧ crowded.watchOf 0x2000 = none ∧ crowded.freeWatch = none ∧
    (wit.upX fun x => { x with lost := [0x2000] }).x.lost.contains 0x2000 = true ∧ wit.x.lost.contains 0x2000 = false ∧
    ((watching false false).upX fun x => { x with waitw := some 0 }).x.waitw = some 0 ∧ (watching false false).x.waitw ≠ some 0 ∧ reaches crowded 0x2000 false page ∧
    reaches (watching true false) 0x2000 false page :=
  ⟨by decide +kernel, reaches_of (by decide +kernel), lead8 (by decide +kernel) ⟨by decide +kernel, reaches_of (by decide +kernel), reaches_of (by decide +kernel)⟩⟩

/-- The home cache holds the watched line, or has room for it. -/
theorem test_witness_WatchResults_cached : wit.home.cached.contains (0x400 / 32) = false ∧ (wit.heldBy (wit.homeEave (8 * 0x400))).length < 4096 ∧
    ({ wit with home := { wit.home with cached := [0x20] } } : State).home.cached.contains (0x400 / 32) = true := by decide +kernel

/-- The array of the acting actor is idle. -/
def idleArray (s : State) (k : Actor) : Bool :=
  !isEave s.cur && s.act == some k && k.csr.asgArr && s.c.arr.ops.isEmpty && s.c.arr.quadOps.isEmpty && s.c.arr.qm == .off

theorem idle_of {s : State} {k : Actor} (h : idleArray s k = true) : arrayIdle s k := by
  simp only [idleArray, Bool.and_eq_true, Bool.not_eq_true', beq_iff_eq, List.isEmpty_iff] at h
  obtain ⟨⟨⟨⟨⟨h1, h2⟩, h3⟩, h4⟩, h5⟩, h6⟩ := h
  exact ⟨h1, ⟨h2, h3⟩, ⟨h4, h5⟩, h6⟩

/-- A property of every member of a list, decided member by member. -/
theorem all_of {α : Type} {l : List α} {p : α → Prop} [DecidablePred p] (h : (l.all fun q => decide (p q)) = true) : ∀ q ∈ l, p q :=
  fun q hq => by simpa using List.all_eq_true.mp h q hq

/-- Data LM from 0x2000 on can be read where nothing lands and no MSTZ is on its way. -/
theorem readable_of {s : State} {k : Actor} (hx : s.c.xbAddr = 0x2000) (hk : s.act = some k) (hw : k.csr.lo = 1 ∧ k.csr.hi = 64) (ho : s.c.arr.ops = [] ∧ s.dist.copies = [])
    (hl : (s.c.actors.all fun e => match e.2 with | some w => w.mbs.all fun m => m.2.slots.all fun x => x.2.st != .landing | none => true) = true)
    (a n : Nat) (h8 : a % 8 = 0) (lo : 0x2000 ≤ a) (hi : a + 8 * n ≤ 0x80000) : readableLm s (BitVec.ofNat 64 a) n := by
  intro j hj
  have t : (BitVec.ofNat 64 a + BitVec.ofNat 64 (8 * j)).toNat = a + 8 * j := by
    rw [BitVec.toNat_add, BitVec.toNat_ofNat, BitVec.toNat_ofNat, Nat.mod_eq_of_lt (by omega : a < 2 ^ 64), Nat.mod_eq_of_lt (by omega : 8 * j < 2 ^ 64),
      Nat.mod_eq_of_lt (by omega)]
  have la : s.c.landingAt (a + 8 * j) 8 = false := by
    rw [Core.landingAt, List.any_eq_false]
    intro e he
    have := List.all_eq_true.mp hl e he
    cases hc : e.2 with
    | none => simp
    | some w =>
      rw [hc] at this
      simp only [List.any_eq_true, not_exists, not_and, Bool.and_eq_true]
      intro m hm x hx
      have := List.all_eq_true.mp (List.all_eq_true.mp this m hm) x hx
      simp only [bne_iff_ne] at this
      simp [this]
  have un : s.c.storesLm s.curCtx = false := by simp [Core.storesLm, ho.1]
  have il : s.lmInside (a + 8 * j) 8 = true := by
    simp only [State.lmInside, Core.inLm, hx, hk, Actor.inWindow, hw.1, hw.2]
    have h1 : 0x2000 ≤ a + 8 * j := by omega
    have h2 : a + 8 * j + 8 ≤ 0x80000 := by omega
    simp [h1, h2]
  simp only [State.loadOk, State.lmOk, State.landingAt, ho.2, t, la, un, il, hx]
  have h1 : 0x2000 ≤ a + 8 * j := by omega
  have h2 : (a + 8 * j) % 8 = 0 := by omega
  simp [h1, h2]

/-- The array with both banks ready and a dense S8 tile in the active one; Q4BAD met by the other. -/
def readyBank (sp : BitVec 2) : Bank := { Bank.empty with ld := .ready, fmt := .s8, sp := sp }
def arrayed (sp : BitVec 2) (kind : BitVec 2) : State := wit.upC fun c => { c with arr := { Cim.reset with
  b0 := readyBank sp, b1 := { readyBank 0 with q4b := true }, z0 := { Tile.empty with kind := kind } } }
theorem arrayed_readable (sp kind : BitVec 2) (h : sp = 0 ∨ sp = 1 ∨ sp = 2) (h' : kind = 0 ∨ kind = 1) (a n : Nat) (h8 : a % 8 = 0) (lo : 0x2000 ≤ a)
    (hi : a + 8 * n ≤ 0x80000) : readableLm (arrayed sp kind) (BitVec.ofNat 64 a) n := by
  rcases h with rfl | rfl | rfl <;> rcases h' with rfl | rfl <;>
    exact readable_of (k := theActor) (by decide +kernel) (by decide +kernel) (by decide +kernel) (by decide +kernel) (by decide +kernel) a n h8 lo hi

/-- An operation of one row of a dense S8 tile. -/
def theOp (fn next : Nat) (quad : Bool) : ArrOp :=
  { id := 1, fn := fn, bank := false, tile := false, fmt := .s8, sp := 0, sc := false, kind := 1, row0 := 0, count := 1, next := next, k := 256, slot := none
    data := List.replicate 32 (0, 0), extra := [], scales := none, addr := 0, len := 0, pc := 0, owner := none, quad := quad, rows := [], listBad := none, errs := 0, flags := 0
    told := [], ref := 0 }
def withOp (o : ArrOp) : State := (arrayed 0 1).upC fun c => { c with arr := { c.arr with ops := [o] } }
/-- MQUAD that waits and has met, and three cores that wait at it. -/
def quadMet : State := (arrayed 0 0).upC fun c => { c with arr := { c.arr with quadWant := some (false, true) } }
def quadReady : State := [1, 2, 3].foldl (fun s n => s.upCore n fun c => { c with arr := { c.arr with quadWant := some (false, false) } }) (arrayed 0 0)

theorem test_witness_MatrixLoadResults : arrayIdle (arrayed 0 0) theActor ∧ reads (arrayed 0 0) [0, 1, 9] = true ∧ 0x2000 % 128 = 0 ∧
    (∀ f sp, sp < 3 → readableLm (arrayed 0 0) 0x2000 (tileBytes f sp / 8)) ∧ readableLm (arrayed 0 0) 0x2000 48 ∧
    (∀ q ∈ lmGrans (arrayed 0 0) 0x2000 48, syn q.1 q.2 = 0) ∧ ((withOp (theOp 0 0 false)).core 0).arr.ops = [theOp 0 0 false] ∧ (theOp 0 0 false).fn = 0 ∧
    ((arrayed 0 0).c.arr.bank true).ld = .ready ∧ ((arrayed 0 0).c.arr.bank true).q4b = true ∧ ((arrayed 0 0).c.arr.bank false).ld = .ready ∧
    quadMet.c.arr.quadWant = some (false, true) ∧ arrayIdle quadMet theActor ∧ arrayIdle quadReady theActor ∧ quadReady.c.arr.quadWant ≠ some (false, true) ∧
    (∀ n ∈ [1, 2, 3], (quadReady.core n).arr.quadWant = some (false, false)) ∧ ((quadReady.core 0).arr.ops.any (·.quad)) = false ∧ 2 ≤ ((arrayed 0 0).seen 0 false |>.gv 9).toNat :=
  ⟨idle_of (by decide +kernel), by decide +kernel, by decide +kernel,
    fun f sp h => arrayed_readable 0 0 (.inl rfl) (.inl rfl) 0x2000 _ (by decide) (by decide) (by
      have : ∀ sp, sp < 3 → tileBytes f sp ≤ 0x7E000 := by cases f <;> decide +kernel
      have := this sp h; omega),
    arrayed_readable 0 0 (.inl rfl) (.inl rfl) 0x2000 48 (by decide) (by decide) (by decide), all_of (by decide +kernel), lead4 (by decide +kernel) ⟨by decide +kernel, by decide +kernel, idle_of (by decide +kernel), idle_of (by decide +kernel), by decide +kernel⟩⟩

theorem owns_of {s : State} {k : Actor} (h : (!isEave s.cur && s.act == some k && k.csr.asgArr) = true) : owns s k := by
  simp only [Bool.and_eq_true, Bool.not_eq_true', beq_iff_eq] at h
  exact ⟨h.1.1, h.1.2, h.2⟩

/-- Cores 0 to 3 with arrays that actors of one gang with quads own, the other three waiting at MQUAD for v; an MMA of the quad under way or not. -/
def quadActor : Actor := { theActor with quads := true }
def quadCores (v : Option (Bool × Bool)) (busy : Bool) : State :=
  let s := [0, 1, 2, 3].foldl (fun s n => s.upCore n fun c => { c.setActor 0 (some quadActor) with arr := { c.arr with quadWant := if n = 0 then none else v } }) (arrayed 0 0)
  if busy then s.upC fun c => { c with arr := { c.arr with ops := [theOp 3 0 true] } } else s

theorem test_witness_MatrixLoadResults_quads : (∀ v ∈ [none, some (true, false), some (false, false)], ∀ b ∈ [true, false], owns (quadCores v b) quadActor) ∧
    owns (arrayed 0 0) theActor ∧ theActor.quads = false ∧ (∀ v ∈ [none, some (true, false), some (false, false)], ∀ b ∈ [true, false], let s := quadCores v b
      reads s [0, 4] = true ∧ (s.seen 0 false).gv 4 = 1 ∧ (s.seen 0 false).gv 0 = 0 ∧ s.c.arr.quadWant = none ∧
      (∀ n ∈ [0, 1, 2, 3], (s.core n).arrayOwner = some quadActor) ∧ (∀ n ∈ [1, 2, 3], (s.core n).arr.quadWant = v) ∧ (s.core 0).arr.ops.any (·.quad) = b) ∧
    (let s := (quadCores none false).upC fun c => { c with arr := { c.arr with quadWant := some (true, true) } }
     owns s quadActor ∧ reads s [4] = true ∧ s.c.arr.quadWant = some (true, true)) ∧
    (isEave (onEave (arrayed 0 0)).cur = true ∧ (∃ w, encode (.mquad 1 0) = .w32 w) ∧ (∀ s ∈ [unmanned, withActor wit fun a => { a with csr := { a.csr with asgArr := false } }],
      isEave s.cur = false ∧ reads s [0, 1, 2, 3] = true ∧ s.act.all (fun k => !k.csr.asgArr) = true)) ∧
    (∀ s ∈ [arrayed 0 0, wit], isEave s.cur = false ∧ reads s [0, 1, 3] = true ∧ 0x2001 % 128 ≠ 0 ∧ (∀ o ∈ s.c.arr.ops, o.fn ≠ 6) ∧ (0x1F80 : Word).toNat % 8 = 0 ∧ (0x1F80 : Word).toNat < s.c.xbAddr ∧
      (∀ m, m < 16 → s.loadOk (0x7FF80 + BitVec.ofNat 64 (8 * m)) 8 8 = true) ∧ s.c.xbAddr ≤ (0x80000 : Word).toNat ∧ s.lmInside (0x80000 : Word).toNat 8 = false) ∧
    (wit.c.arr.bank (!wit.c.arr.act)).ld = .empty ∧ owns wit theActor ∧ arrayIdle wit theActor ∧
    ((wit.upC fun c => { c with arr := { c.arr with b1 := { Bank.empty with ld := .failed } } }).c.arr.bank true).ld = .failed :=
  ⟨fun v hv b hb => owns_of (by revert v b; decide +kernel), owns_of (by decide +kernel), by decide +kernel, by decide +kernel, ⟨owns_of (by decide +kernel), by decide +kernel⟩,
    ⟨by decide +kernel, ⟨_, rfl⟩, by decide +kernel⟩, by decide +kernel, by decide +kernel, owns_of (by decide +kernel), idle_of (by decide +kernel), by decide +kernel⟩

/-- A load of a tile of format f and sparsity sp whose granules are all g. -/
def loadOp (f : Fmt) (sp : BitVec 2) (g : Word) (scales : Option (List (Word × Byte))) : ArrOp :=
  { theOp 0 0 false with fmt := f, sp := sp, data := List.replicate 9216 (g, sealFn g), scales := scales }

theorem loadOp_map (f : Fmt) (sp : BitVec 2) (g : Word) (sc : Option (List (Word × Byte))) (n e : Nat) (h : n + e / 8 < 9216) :
    granElem ((loadOp f sp g sc).data.drop n) 8 e = g.toNat / 2 ^ (8 * (e % 8)) % 2 ^ 8 := by
  have a : e * 8 / 64 = e / 8 := by omega
  have b : e * 8 % 64 = 8 * (e % 8) := by omega
  have c : e / 8 < 9216 - n := by omega
  simp only [granElem, loadOp, List.drop_replicate, a, b, List.getD_eq_getElem?_getD, List.getElem?_replicate, if_pos c, Option.getD_some]

theorem mapsGood_of (f : Fmt) (sp : BitVec 2) (g : Word) (sc : Option (List (Word × Byte))) (hs : sp.toNat ≤ 2)
    (h : ∀ i, i < 8 → ((List.range 8).filter (g.toNat / 2 ^ (8 * i) % 2 ^ 8).testBit).length = if sp = 1 then 4 else 2) : mapsGood (loadOp f sp g sc) := by
  refine .inr fun e he => ?_
  have k : kRows f sp.toNat / 8 * 96 ≤ 24576 := by
    have : ∀ sp, sp < 3 → kRows f sp / 8 * 96 ≤ 24576 := by cases f <;> decide +kernel
    exact this _ (by omega)
  have k' : e < 24576 := Nat.lt_of_lt_of_le he k
  rw [loadOp_map f sp g sc _ e (by split <;> omega)]
  exact h (e % 8) (Nat.mod_lt _ (by decide))

theorem mapsBad_of (f : Fmt) (sp : BitVec 2) (sc : Option (List (Word × Byte))) (h : 0 < kRows f sp.toNat / 8 * 96) (h0 : sp ≠ 0) : ¬ mapsGood (loadOp f sp 0 sc) := by
  rintro (hs | hs)
  · exact h0 hs
  · have := hs 0 h
    rw [loadOp_map _ _ _ _ _ 0 (by split <;> omega)] at this
    have z : ((List.range 8).filter ((0 : Word).toNat / 2 ^ (8 * (0 % 8)) % 2 ^ 8).testBit).length = 0 := by decide
    have := z.symm.trans this
    split at this <;> cases this

theorem withOp_ops (o : ArrOp) : ((withOp o).core 0).arr.ops = [o] ∧ ((withOp o).core 0).arr.quadOps = [] := by
  have h : (arrayed 0 1).cur = 0 ∧ ((arrayed 0 1).core 0).arr.quadOps = [] := by decide +kernel
  unfold withOp
  generalize arrayed 0 1 = s at h
  simp [State.upC, h.1, h.2]

/-- Loads of every format: dense; sparse with good maps; sparse with maps that have no bit. -/
theorem test_witness_MatrixLoadResults_loads : (∀ f sc, mapsGood (loadOp f 0 5 sc) ∧ mapsGood (loadOp f 1 0x0F0F0F0F0F0F0F0F sc) ∧ mapsGood (loadOp f 2 0x0303030303030303 sc) ∧
      ¬ mapsGood (loadOp f 1 0 sc) ∧ ¬ mapsGood (loadOp f 2 0 sc)) ∧ (∀ f ∈ [Fmt.s4, .s8, .s16, .f16, .b16, .e4, .e5, .q4x], f.bFmt = true) ∧
    (∀ f sp g sc, ((withOp (loadOp f sp g sc)).core 0).arr.ops = [loadOp f sp g sc] ∧ ((withOp (loadOp f sp g sc)).core 0).arr.quadOps = [] ∧ (loadOp f sp g sc).fn = 0) := by
  refine ⟨fun f sc => ⟨.inl rfl, mapsGood_of _ _ _ _ (by decide) (by decide), mapsGood_of _ _ _ _ (by decide) (by decide), ?_, ?_⟩, by decide, fun f sp g sc => ⟨(withOp_ops _).1, (withOp_ops _).2, rfl⟩⟩
  · exact mapsBad_of f 1 sc (by cases f <;> decide) (by decide)
  · exact mapsBad_of f 2 sc (by cases f <;> decide) (by decide)

theorem test_witness_MatrixOutputResults : arrayIdle (arrayed 0 1) theActor ∧ ((arrayed 0 1).c.arr.bank (arrayed 0 1).c.arr.act).ld = .ready ∧ (arrayed 0 1).bankNews (arrayed 0 1).cur false = false ∧
    (let s := gs (arrayed 0 1) [(11, 0x2FF), (12, 0x100), (13, 0xFF0001), (14, 0x10)]
     arrayIdle s theActor ∧ reads s [1, 11, 12, 13, 14] = true ∧ 0x2FF < 2 ^ 10 ∧ 0x2FF / 256 ≠ 3 ∧ unpoisoned (s.c.arr.tile false) 0xFF 1 ∧ (∀ e ∈ s.x.varp, e.id ≠ s.dist.next) ∧
      rowsOperand 0x100 0 256 ∧ rowsOperand 0xFF0001 255 1 ∧ unpoisoned (s.c.arr.tile false) 0 256 ∧
      (∀ j, j < 12 → s.lmOk (0x2000 + BitVec.ofNat 64 (8 * j)) 8 8 = true) ∧ s.drainDest theActor 0x10 = some 0x10 ∧ 96 ≤ 8191 ∧ (outbound 31 s).c.outbound.length < 32 ∧
      s.c.outbound.length < 32 ∧ ∀ m ∈ s.c.outbound, m.id ≠ s.dist.next) := by
  have np : ∀ r c, unpoisoned ((gs (arrayed 0 1) [(11, 0x2FF), (12, 0x100), (13, 0xFF0001), (14, 0x10)]).c.arr.tile false) r c := by
    intro r c i j _ _
    have : ((gs (arrayed 0 1) [(11, 0x2FF), (12, 0x100), (13, 0xFF0001), (14, 0x10)]).c.arr.tile false).pb = [] := by decide +kernel
    rw [this]; rfl
  exact ⟨idle_of (by decide +kernel), by decide +kernel, by decide +kernel, idle_of (by decide +kernel), lead2 (by decide +kernel) ⟨by decide +kernel, np _ _, by decide +kernel,
    by unfold rowsOperand; decide +kernel, by unfold rowsOperand; decide +kernel, np _ _, by decide +kernel⟩⟩

/-- Words that MRDZ, MSTZ and MDRAIN refuse; the active bank not ready. -/
theorem test_witness_MatrixOutputResults_traps : (∀ s ∈ [arrayed 0 1, wit], isEave s.cur = false ∧ s.act = some theActor ∧ theActor.csr.asgArr = true ∧ reads s [0, 1, 2] = true ∧
      (∀ o ∈ s.c.arr.ops, o.fn ≠ 6) ∧ s.drainDest theActor 0x10 = some 0x10 ∧ s.drainDest theActor 0xFFE000000000 = none ∧ s.drainDest theActor 0x2000000000000 = none) ∧ (wit.c.arr.bank wit.c.arr.act).ld ≠ .ready ∧
    (2 ^ 10 ≤ (0x400 : Nat) ∧ 0x300 / 256 = 3 ∧ 0x2FF < 2 ^ 10 ∧ 0x2FF / 256 ≠ 3) ∧ (∀ w ∈ [(0 : Word), 0x101, 0x10100, 0x1000001, 0xFF0002], ¬ ∃ r q, rowsOperand w r q) ∧
    rowsOperand 0x100 0 256 ∧ 8191 < 256 * 96 * 8 / 8 ∧ 85 * 96 * 8 / 8 ≤ 8191 ∧ 8191 < 86 * 96 * 8 / 8 ∧ (0x1FF8 : Word).toNat < wit.c.xbAddr ∧ wit.loadOk 0x7FFF8 8 8 = true ∧
    wit.lmInside (0x80000 : Word).toNat 8 = false := by
  refine ⟨by decide +kernel, by decide +kernel, by decide +kernel, ?_, by unfold rowsOperand; decide +kernel, by decide +kernel⟩
  intro w hw ⟨r, q, h⟩
  obtain ⟨h1, h2, h3, h4, h5, h6, h7⟩ := h
  simp only [List.mem_cons, List.not_mem_nil, or_false] at hw
  rcases hw with rfl | rfl | rfl | rfl | rfl <;> simp at h1 h2 h3 h4 <;> omega

/-- Core 1 a member of the quad that has received the lead's multiplication. -/
def quadState (ready : Bool) : State := (withOp (theOp 3 1 true)).upCore 1 fun c =>
  { c with arr := { Cim.reset with b0 := if ready then readyBank 0 else .empty, z0 := { Tile.empty with kind := 1 }, qm := .member, quadOps := [⟨1, false, 0, none, 0, false, 0, []⟩] } }
/-- Rows operands with a list of entries for MOUTL, and an S8 source with a row's elements. -/
def multiplier (sp : BitVec 2) : State :=
  gs (withStream (arrayed sp 0) 5 { strm .src .running with d := { (strm .src .running).d with fmt := Fmt.s8.code, c := [1024, 1, 1, 1], t := [1, 0, 0, 0] } })
    [(11, 1), (12, 0x200000000001), (13, 0x20200000000001), (14, 0xFF0001)]

theorem test_witness_MultiplyAndQuadResults : (∀ sp ∈ [(0 : BitVec 2), 1, 2], arrayIdle (multiplier sp) theActor ∧ reads (multiplier sp) [1, 11, 12, 13, 14] = true ∧
      ((multiplier sp).c.arr.bank (multiplier sp).c.arr.act).ld = .ready ∧ ((multiplier sp).c.arr.bank (multiplier sp).c.arr.act).sp = sp ∧
      ((multiplier sp).c.arr.tile false).kind = 0 ∧ readableLm (multiplier sp) 0x2000 (1 * (kRows .s8 sp.toNat * 8 / 8) / 8)) ∧
    rowsOperand 1 0 1 ∧ rowsOperand 0xFF0001 255 1 ∧ (∃ t, openAs (multiplier 0) 5 t ∧ t.ph ≠ .opened ∧ t.d.dir = .src ∧ t.bound = false ∧ t.d.regFmt = .s8 ∧
      (multiplier 0).c.total t = some 1024 ∧ t.f + 1 * kRows .s8 0 ≤ 1024) ∧
    (0x20200000000001 / 2 ^ 32 % 2 ^ 20 = 0x2000 ∧ 0x20200000000001 / 2 ^ 52 % 2 ^ 11 = 2 ∧ 0x200000000001 / 2 ^ 52 % 2 ^ 11 = 0 ∧ readableLm (multiplier 0) 0x2000 1 ∧
      ∀ g ∈ lmGrans (multiplier 0) 0x2000 1, syn g.1 g.2 = 0 ∧ g.1.toNat % 512 < 256) ∧
    (((withOp (theOp 3 0 false)).core 0).arr.ops = [theOp 3 0 false] ∧ ((withOp (theOp 3 0 false)).core 0).arr.quadOps = [] ∧ ((withOp (theOp 3 0 false)).core 0).arr.bank false = readyBank 0 ∧
      (withOp (theOp 3 0 false)).c.arrayOwner.all (fun k => !k.stopped) = true ∧ ∀ g ∈ (theOp 3 0 false).data, syn g.1 g.2 = 0) ∧
    ∀ r, 1 % 4 ≠ 0 ∧ ((quadState r).core 1).arr.ops = [] ∧ ((quadState r).core 1).arr.quadOps = [⟨1, false, 0, none, 0, false, 0, []⟩] ∧ ((quadState r).core 0).arr.ops = [theOp 3 1 true] ∧
      ((quadState r).core 0).arr.quadOps = [] ∧ (((quadState r).core 1).arr.bank ((quadState r).core 1).arr.act).ld = (if r = true then .ready else .empty) ∧
      (((quadState r).core 1).arr.tile false).kind = (theOp 3 1 true).kind := by
  have rd : ∀ sp ∈ [(0 : BitVec 2), 1, 2], ∀ n, n < 512 → readableLm (multiplier sp) 0x2000 n := fun sp h n hn =>
    readable_of (k := theActor) (by revert sp; decide +kernel) (by revert sp; decide +kernel) (by decide +kernel) (by revert sp; decide +kernel) (by revert sp; decide +kernel) 0x2000 n
      (by decide) (by decide) (by omega)
  exact ⟨fun sp h => ⟨idle_of (by revert sp; decide +kernel), by revert sp; decide +kernel, by revert sp; decide +kernel, by revert sp; decide +kernel, by revert sp; decide +kernel,
      rd sp h _ (by revert sp; decide +kernel)⟩, by unfold rowsOperand; decide +kernel, by unfold rowsOperand; decide +kernel,
    ⟨_, openAs_of (t := { strm .src .running with d := { (strm .src .running).d with fmt := Fmt.s8.code, c := [1024, 1, 1, 1], t := [1, 0, 0, 0] } }) (by decide +kernel)
      (by decide +kernel), by decide +kernel⟩,
    lead2 (by decide +kernel) ⟨by decide +kernel, rd 0 (by decide) 1 (by decide), all_of (by decide +kernel)⟩,
    lead4 (by decide +kernel) (all_of (by decide +kernel)), by decide +kernel⟩

/-- An operation by context 0's firing on a bank of a format: a floating MMA, an S8 MMA on a floating bank, and a MOUTL of two entries. -/
def completing (o : ArrOp) (f : Fmt) : State :=
  ((withOp o).upC fun c => { c with arr := { c.arr with b0 := { readyBank 0 with fmt := f } } }).upX fun x => { x with firing := some { placedFiring 0 with entry := 1 } }
theorem completing_arr (o : ArrOp) (f : Fmt) : ((completing o f).core 0).arr.ops = [o] ∧ ((completing o f).core 0).arr.quadOps = [] ∧
    ((completing o f).core 0).arr.bank false = { readyBank 0 with fmt := f } := by
  have h : (arrayed 0 1).cur = 0 ∧ ((arrayed 0 1).core 0).arr.quadOps = [] := by decide +kernel
  unfold completing withOp
  generalize arrayed 0 1 = s at h
  simp [State.upC, State.upX, Core.setCtx, Cim.bank, h.1, h.2]

theorem test_witness_MultiplyAndQuadResults_complete : (∀ n g, g ∈ (theOp n 0 false).data → syn g.1 g.2 = 0) ∧ ∀ p ∈ [({ theOp 3 0 false with fmt := .f16, owner := some (0, some 1) }, Fmt.f16), ({ theOp 3 0 false with owner := some (0, some 1) }, .f16),
      ({ theOp 4 0 false with extra := [(0x0001000000010000, 0)], len := 2, owner := some (0, some 1) }, .s8)],
    let s := completing p.1 p.2
    (s.core 0).arr.ops = [p.1] ∧ (s.core 0).arr.quadOps = [] ∧ (s.core 0).arr.bank false = { readyBank 0 with fmt := p.2 } ∧ (readyBank 0).pm = 0 ∧ p.1.bank = false ∧ p.1.slot = none ∧
      p.1.quad = false ∧ p.1.next = 0 ∧ 0 < p.1.count ∧ p.1.listBad = none ∧ p.1.errs = 0 ∧ (p.1.fn = 4 ∨ p.1.fmt.isFloat = true ∨ p.2.isFloat = true) ∧
      (s.core 0).arrayOwner.all (fun k => !k.stopped) = true ∧ ((s.core 0).ctx 0).firing.map (·.entry) = some 1 := by
  refine ⟨fun _ => all_of (l := List.replicate 32 (0, 0)) (by decide +kernel), fun p hp => ⟨(completing_arr _ _).1, (completing_arr _ _).2.1, (completing_arr _ _).2.2, ?_⟩⟩
  revert p
  decide +kernel

/-- The multiplier with another stream in slot 5, another active bank, another tile, or a quad member's array. -/
def source (t : Stream) : State := withStream (multiplier 0) 5 t
def withArr (f : Cim → Cim) (s : State) : State := s.upC fun c => { c with arr := f c.arr }
def s8Stream (n : BitVec 32) (ph : SlotPhase) : Stream := { strm .src ph with d := { (strm .src ph).d with fmt := Fmt.s8.code, c := [n, 1, 1, 1], t := [1, 0, 0, 0] } }

theorem test_witness_MultiplyAndQuadResults_traps : ¬ assigned (owning 0 (multiplier 0)) 5 ∧ assigned (multiplier 0) 4 ∧ ((multiplier 0).c.stream 4).ph = .closed ∧
    (∀ t ∈ [s8Stream 4 .opened, s8Stream 4 .running, { s8Stream 4 .running with bound := true }, strm .drn .running], owns (source t) theActor) ∧
    (∀ t ∈ [s8Stream 4 .opened, s8Stream 4 .running, { s8Stream 4 .running with bound := true }, strm .drn .running],
      reads (source t) [1, 11] = true ∧ (source t).act.any (fun w => w.csr.asgSlots.getLsbD 5) = true ∧ (source t).c.stream 5 = t ∧ (source t).c.arr.ops = []) ∧
    (source (s8Stream 4 .running)).c.total (s8Stream 4 .running) = some 4 ∧ 4 < 0 + 1 * kRows .s8 0 ∧ (s8Stream 4 .running).d.regFmt = .s8 ∧ Fmt.s8 ≠ .s16 ∧
    (∀ s ∈ [withArr (fun c => { c with qm := .member }) (multiplier 0), withArr (fun c => { c with b0 := .empty }) (multiplier 0), withArr (fun c => { c with z0 := { Tile.empty with kind := 2 } }) (multiplier 0),
        withArr (fun c => { c with z0 := { Tile.empty with kind := 1 }, b0 := { readyBank 0 with fmt := .f16 } }) (multiplier 0), multiplier 0, multiplier 1],
      owns s theActor ∧ reads s [0, 1, 11, 12, 13] = true ∧ (∀ o ∈ s.c.arr.ops, o.fn ≠ 6)) ∧ ((multiplier 0).c.arr.bank (multiplier 0).c.arr.act).sp = 0 ∧
    ((multiplier 1).c.arr.bank (multiplier 1).c.arr.act).sp ≠ 0 ∧ (0x1FF8 : Word).toNat < (multiplier 0).c.xbAddr ∧ (multiplier 0).lmInside (0x80000 : Word).toNat 8 = false ∧
    (multiplier 0).loadOk 0x7FFF8 8 8 = true ∧
    (∀ w ∈ [(0x8000200000000001 : Word), 0x200001000001, 0x200200000001, 0x200000000000], ¬ (rowsOperand (BitVec.ofNat 64 (w.toNat % 2 ^ 24)) 0 1 ∧ w.toNat < 2 ^ 63 ∧ w.toNat / 2 ^ 24 % 256 = 0 ∧
      w.toNat / 2 ^ 32 % 2 ^ 20 % 4 = 0)) ∧ (∀ e ∈ [(0x00000100 : Nat), 0x0000C000], kRows .s8 0 ≤ e % 512 ∨ 96 ≤ e / 512 % 128) ∧
    (let s := (multiplier 0).upM fun m => { m with lm := m.lm.setGran 0x400 0xC000 (sealFn 0xC000) }
     syn (s.c.m.lm.gran 0x400) (s.c.m.lm.sealOf 0x400) = 0 ∧ 96 ≤ (s.c.m.lm.gran 0x400).toNat % 2 ^ 32 / 512 % 128) ∧
    (∀ r, ((quadState r).upCore 1 fun c => { c.setActor 0 (some theActor) with arr := c.arr }).core 1 |>.arrayOwner.isSome) := by
  refine ⟨notAssigned_of (by decide +kernel), assigned_of (by decide +kernel), by decide +kernel, ?_, by decide +kernel, by decide +kernel, by decide +kernel, by decide +kernel, by decide +kernel, ?_,
    by decide +kernel, by decide +kernel, by decide +kernel, by decide +kernel, by decide +kernel, ?_, by decide +kernel, by decide +kernel, by decide +kernel⟩
  · simp only [List.mem_cons, List.not_mem_nil, or_false, forall_eq_or_imp, forall_eq]
    exact ⟨owns_of (by decide +kernel), owns_of (by decide +kernel), owns_of (by decide +kernel), owns_of (by decide +kernel)⟩
  · simp only [List.mem_cons, List.not_mem_nil, or_false, forall_eq_or_imp, forall_eq]
    exact ⟨⟨owns_of (by decide +kernel), by decide +kernel⟩, ⟨owns_of (by decide +kernel), by decide +kernel⟩, ⟨owns_of (by decide +kernel), by decide +kernel⟩,
      ⟨owns_of (by decide +kernel), by decide +kernel⟩, ⟨owns_of (by decide +kernel), by decide +kernel⟩, owns_of (by decide +kernel), by decide +kernel⟩
  · intro w hw h
    obtain ⟨⟨-, -, h1, -⟩, h2, h3, h4⟩ := h
    simp only [List.mem_cons, List.not_mem_nil, or_false] at hw
    rcases hw with rfl | rfl | rfl | rfl <;> simp at h1 h2 h3 h4

/-- Parameter blocks: global to global, LM to global, global to LM without and with a follow-on load. -/
def blockOf (n : Nat) : BitVec 512 := BitVec.ofNat 512 (7 * 2 ^ 240 + 0x10 * 2 ^ 192 + match n with
  | 0 => 16 + 16 * 2 ^ 64
  | 1 => 16 * 2 ^ 64 + 2 ^ 256 + 0x1000 * 2 ^ 160
  | 2 => 16 + 0x10 * 2 ^ 128 + 0x1000 * 2 ^ 160 + 2 * 2 ^ 256
  | _ => 16 + 0x10 * 2 ^ 128 + 0x1000 * 2 ^ 160 + 2 * 2 ^ 256 + 0x508F * 2 ^ 288 + 0x3000 * 2 ^ 320)
/-- LM with the record at 0x2000 and a block at 0x2100. -/
def copying (n : Nat) : State := (gs wit [(11, 0x2100), (12, 16), (13, 17)]).upM fun m =>
  let words := (List.range 8).map fun i => (blockOf n).extractLsb' (64 * i) 64
  { m with lm := (m.lm.setGrans 0x400 (sealed (pairs theRec))).setGrans 0x420 (sealed words) }
/-- The first n entries of the table in use. -/
def tables (n : Nat) : State := withActor (copying 0) fun a => { a with tlr := (List.range n).map fun i => (i, ⟨theRec, 1, true⟩) }
/-- The copy that a block starts, with parts. -/
def theCopy (n : Nat) (requested : Bool) (parts : List CopyPart) : Copy :=
  { id := 9, core := 0, actor := 0, addr := 0x10, part := 0, block := blockOf n, srcRec := (if n = 1 then 0 else theRec), dstRec := (if n < 2 then theRec else 0),
    image := (if n = 1 then [(5, sealFn 5)] else []), requested := requested, parts := parts, cancelled := false, bytes := 0, grs := [], landed := false, tile := none, rank := 0, tlb := [], land := none }
def withCopies (s : State) (l : List Copy) : State := { s with dist := { s.dist with copies := l } }

theorem soundLm_of {s : State} {a : Word} {n : Nat} (h : ((List.range n).all fun j => s.lmOk (a + BitVec.ofNat 64 (8 * j)) 8 8) = true)
    (h2 : (lmGrans s a n).all (fun q => syn q.1 q.2 == 0) = true) : soundLm s a n :=
  ⟨fun j hj => List.all_eq_true.mp h j (List.mem_range.mpr hj), fun q hq => by have := List.all_eq_true.mp h2 q hq; simpa using this⟩

theorem test_witness_TensorInstructionResults : (∀ n, n < 4 → reads (copying n) [0, 1, 11, 12, 13] = true ∧ (copying n).act = some theActor) ∧ soundLm (copying 0) 0x2000 16 ∧
    0x2000 % 128 = 0 ∧ recValid ((copying 0).lmVec 0x400).1 = true ∧ recValid ((copying 0).lmVec 0x600).1 = false ∧ soundLm (copying 0) 0x3000 16 ∧
    ((tables 16).act.any fun k => (List.range 16).all fun e => (tget .free k.tlr e).used) = true ∧
    ((tables 15).act.any fun k => !(tget .free k.tlr 15).used && (List.range 15).all fun e => (tget .free k.tlr e).used) = true ∧
    theActor.tlrOf 17 = none ∧ (theActor.tlrOf 16).isSome = true ∧ (copying 0).handleBusy theActor 16 = false ∧ (withCopies (copying 0) [theCopy 0 false []]).handleBusy theActor 16 = true ∧
    soundLm (copying 0) 0x2100 8 ∧ 0x2100 % 64 = 0 ∧ (∀ n, n < 3 → ((copying n).copyOf theActor (blockOf n) false).isSome = true) ∧
    ((copying 3).copyOf theActor (blockOf 3) true).isSome = true ∧ (copying 0).copyOf theActor 0 false = none ∧ (0 : BitVec 512).getLsbD 256 = false ∧ soundLm (copying 0) 0x4000 8 ∧
    (∀ n, n < 4 → BitVec.ofNat 512 (packWords (lmGrans (copying n) 0x2100 8)) = blockOf n) ∧ (copying 1).lmOk (BitVec.ofNat 64 (0x2000 + 0x1000)) 8 8 = true ∧
    16 ≤ (withCopies (copying 0) (List.replicate 16 (theCopy 0 false []))).copyEntries 0 ∧ (withCopies (copying 0) (List.replicate 15 (theCopy 0 false []))).copyEntries 0 < 16 :=
  ⟨by decide +kernel, soundLm_of (by decide +kernel) (by decide +kernel), lead2 (by decide +kernel) ⟨by decide +kernel, soundLm_of (by decide +kernel) (by decide +kernel),
    lead4 (by decide +kernel) ⟨by decide +kernel, by decide +kernel, soundLm_of (by decide +kernel) (by decide +kernel), lead4 (by decide +kernel) ⟨by decide +kernel, soundLm_of (by decide +kernel) (by decide +kernel), by decide +kernel⟩⟩⟩⟩

/-- A part of both elements in some phase. -/
def thePart (ph : PartPhase) : CopyPart := ⟨0, 2, 77, ph, [], none⟩
/-- A copy with a part that waits and another to do; operands of CPATCH: retry, skip, patch from 0x2000, and ill-formed. -/
def patching (kind : Nat) : State := gs (withCopies wit [theCopy 0 true [thePart (.waiting kind), ⟨2, 0, 78, .todo, [], none⟩]])
  [(11, 77), (12, 0x100000000), (13, 78), (14, 0), (15, 1), (16, 0x200000000002), (17, 3), (18, 7), (19, 79)]

theorem test_witness_CopyControlResults : (patching 1).act = some theActor ∧ reads (patching 1) [11, 12, 13, 14, 15, 16, 17, 18, 19] = true ∧ 2 ^ 32 ≤ 0x100000000 ∧
    (patching 1).waitingPart theActor 78 = none ∧ (patching 1).dist.spent.contains (79, 0, 0x10) = false ∧
    ({ patching 1 with dist := { (patching 1).dist with spent := [(79, 0, 0x10)] } }).dist.spent.contains (79, 0, 0x10) = true ∧
    (∀ k ∈ [1, 6], (patching k).waitingPart theActor 77 = some (theCopy 0 true [thePart (.waiting k), ⟨2, 0, 78, .todo, [], none⟩], 0, thePart (.waiting k), k)) ∧
    (∀ e ∈ (patching 1).dist.copies, e.id = 9 → e = theCopy 0 true [thePart (.waiting 1), ⟨2, 0, 78, .todo, [], none⟩]) ∧
    0x200000000002 % 4 = 2 ∧ 0x200000000002 / 2 ^ 32 % 2 ^ 19 = 0x2000 ∧ 0x200000000002 / 4 % 2 ^ 30 = 0 ∧ 0x200000000002 / 2 ^ 51 = 0 ∧
    (patching 1).c.windowAt theActor 0x2000 8 = true ∧ (patching 1).copyById theActor 7 = some (theCopy 0 true [thePart (.waiting 1), ⟨2, 0, 78, .todo, [], none⟩]) ∧
    (patching 1).copyById theActor 8 = none ∧ (∃ q ∈ [thePart (.waiting 1), ⟨2, 0, 78, .todo, [], none⟩], q.pending = true ∧ q.token ≠ 77) ∧
    (theCopy 0 true [thePart .todo]).landed = false ∧ (∀ p ∈ (theCopy 0 true [thePart .todo]).parts, p.ph = .todo ∧ wit.sharesLock (theCopy 0 true [thePart .todo]) p = false) ∧ (0 : Word).toNat % 4 = 0 ∧ (3 : Word).toNat % 4 = 3 := by decide +kernel

/-- No actor; destination lines in the midst of no access. -/
theorem test_witness_TensorAndCopyResults_bare : (let s := (copying 0).upC fun c => c.setActor 0 none
     s.act = none ∧ reads s [3, 11, 12, 13] = true) ∧
    (∀ l ∈ wit.dstLines (theCopy 0 true [thePart .todo]) (thePart .todo), tget 0 wit.home.locks l = 0 ∧ wit.midAccess l = false) :=
  ⟨by decide +kernel, by decide +kernel⟩

theorem test_witness_CopyEventResults : (∀ n, n < 4 → (withCopies wit [theCopy n false []]).copyAt 9 = some (theCopy n false [])) ∧
    (∀ n, n < 3 → (withCopies wit [theCopy n true [thePart .todo]]).partCheck (theCopy n true [thePart .todo]) (thePart .todo) none = none) ∧
    (∀ b, ((withCopies wit [theCopy 0 true [thePart .todo]]).partCheck (theCopy 0 true [thePart .todo]) (thePart .todo) (some b)).isSome = true) ∧
    (∀ n, n < 3 → ∀ q, q < 2 → (withCopies wit [theCopy n false []]).xlatWaits (theCopy n false []) ((theCopy n false []).srcAt q) = false ∧
      (withCopies wit [theCopy n false []]).xlatWaits (theCopy n false []) ((theCopy n false []).dstAt q) = false) ∧
    (∀ n, n < 3 → (withCopies wit [theCopy n true [thePart .todo]]).partWaits (theCopy n true [thePart .todo]) (thePart .todo) = false) ∧ wit.lostAt 0x400 = false ∧
    (((wit.srcLines (theCopy 0 true [thePart .todo]) (thePart .todo) ++ wit.dstLines (theCopy 0 true [thePart .todo]) (thePart .todo)).any (wit.lockedFor 9)) = false) ∧
    (theCopy 2 true []).dstLm = true ∧ (theCopy 0 true []).dstLm = false ∧ (∀ i, i < 2 → ∀ j, j < 2 → goesTo wit (theCopy 0 true []) (thePart .todo) i ≠ none ∧
      (goesTo wit (theCopy 0 true []) (thePart .todo) i = goesTo wit (theCopy 0 true []) (thePart .todo) j → i = j)) ∧
    (∀ i, i < 2 → ∀ g ∈ goesTo wit (theCopy 0 true []) (thePart .todo) i, g.2 % (theCopy 0 true []).w = 0) ∧
    (theCopy 2 true []).elems = 2 ∧ (theCopy 2 true []).srcLm = false ∧ recValid theRec = true ∧ (theCopy 2 true []).xf = 0 ∧ recSwz theRec = 0 ∧
    amState (wit.amap 0 (theCopy 2 true []).dact) = 1 ∧ wit.actorAt 0 (theCopy 2 true []).dact = some (0, 0) ∧ (wit.core 0).actor 0 = some theActor ∧ theActor.stopped = false ∧
    (wit.core 0).windowAt theActor 0x3000 (imageBytes theRec) = true ∧ Machine.bytesAt (blockOf 2) 20 4 = 0x1000 ∧ (0x2000 + 0x1000) % 128 = 0 ∧
    followOf (theCopy 3 true []).fw = some (.load 0 .s8) ∧ Machine.bytesAt (blockOf 3) 48 8 = 0 ∧ Machine.bytesAt (blockOf 3) 40 8 = 0x3000 ∧
    readableLm (wit.followCtx 0 0) 0x3000 (tileBytes .s8 0 / 8) := by
  refine lead8 (by decide +kernel) (lead8 (by decide +kernel) (lead8 (by decide +kernel) ⟨by decide +kernel, by decide +kernel, ?_⟩))
  exact readable_of (k := theActor) (by decide +kernel) (by decide +kernel) (by decide +kernel) (by decide +kernel) (by decide +kernel) 0x3000 _ (by decide) (by decide) (by decide +kernel)

/-- A message of 16 bytes in some state. -/
def note (kind : MsgKind) (dst : BitVec 32) (st : MsgState) : Msg :=
  ⟨3, kind, 0, 0x17, 0, dst, 0, 16 * 2 ^ 64 + 15 * 2 ^ 80, [(5, sealFn 5), (6, sealFn 6)], 7, [], none, false, 0, st⟩
/-- The receiving actor: mailbox 0 with slots as given, its fence up or down, tag 15 awaited for a range. -/
def receiving (fence : Bool) (slots : Tab Slot) (m : Msg) : State :=
  let s := withActor wit fun a =>
    { a with mbs := [box 0 0 0x4000 slots, box 7 0 0x7000 slots], fence := fence, tags := [(15, { Tag.free with used := true, out := true, bind := some (.range 0x3000 128) })] }
  { (s.upC fun c => { c with outbound := [m] }) with dist := { s.dist with hw := [m] } }

theorem arrives_of {s : State} {k : Msg} {core idx : Nat} {a : Actor} (h : (s.localTo k && decide (amState (s.amap k.part k.dst) = 1) &&
    decide (s.placeOf k.part k.dst (s.amap k.part k.dst) = some (core, idx)) && decide ((s.core core).actor idx = some a) && !a.parking) = true) : arrives s k core idx a := by
  simp only [Bool.and_eq_true, decide_eq_true_eq, Bool.not_eq_true'] at h
  exact ⟨h.1.1.1.1, h.1.1.1.2, h.1.1.2, h.1.2, h.2⟩
/-- The receiving actor itself. -/
def receiver (fence : Bool) (slots : Tab Slot) : Actor := ((receiving fence slots (note .plain 0x10 .flying)).act).getD theActor
/-- Three fillings of the slots: none, one of two, both. -/
def fillings : List (Tab Slot) := [[], [(0, readySlot)], [(0, readySlot), (1, readySlot)]]
/-- A message flies to the receiving actor and can be taken up. -/
def comes (kind : MsgKind) (dst : BitVec 32) (fence : Bool) (slots : Tab Slot) : Bool :=
  let s := receiving fence slots (note kind dst .flying)
  let k := note kind dst .flying
  decide (s.msgOf (.out 0 3) = some k) && !s.heldBack k && s.localTo k && decide (amState (s.amap k.part k.dst) = 1) &&
    decide (s.placeOf k.part k.dst (s.amap k.part k.dst) = some (0, 0)) && decide ((s.core 0).actor 0 = some (receiver fence slots)) && !(receiver fence slots).parking

/-- The map entry of actor id 1: a park buffer of 8 KiB at 0x4000. -/
def parkedEntry : Word := 0x8000000000004000
/-- The receiving actor with its map entry parked; at 0x4000 the ring with a record of the message, or nothing. -/
def parkedAt (fence full : Bool) (m : Msg) : State :=
  let s := receiving fence [] m
  let ring := [64, if full then 112 else 64, 0, 0, 0, 0, 0, 0, 48, 7, 0, 0xF0010, 5, 6]
  { s with dist := { s.dist with parts := [(0, { s.part 0 with amap := [(1, parkedEntry)] })] }
           home := { s.home with mem := s.home.mem.setGrans 0x800 (sealed ring) } }

theorem test_witness_MessageEvents : (∀ f l, l ∈ fillings → comes .plain 0x10 f l = true ∧ comes .plain 0x13 f l = true ∧ comes .reply 0x10 f l = true ∧ comes .fault 0x17 f l = true) ∧
    (receiver false []).fence = false ∧ (receiver false []).fitOf ((receiving false [] (note .plain 0x10 .flying)).core 0) (note .plain 0x10 .flying) = .place 0 1 ∧
    ((receiver false []).mb 0).kind ≠ 2 ∧ (receiver true []).fence = true ∧ (receiver false []).stopped = false ∧
    (receiver false [(0, readySlot)]).fitOf ((receiving false [(0, readySlot)] (note .plain 0x10 .flying)).core 0) (note .plain 0x10 .flying) = .refuse ∧
    (receiver false []).fitOf ((receiving false [] (note .plain 0x13 .flying)).core 0) (note .plain 0x13 .flying) = .reject 3 ∧
    plainMsg (note .plain 0x10 .flying) ∧ (note .reply 0x10 .flying).rank % 16 = 15 ∧ (tget .free (receiver false []).tags 15).bind = some (.range 0x3000 128) ∧
    (receiver false [(0, readySlot)]).faultFit = .place 1 1 ∧ (note .fault 0x17 .flying).len ≤ ((receiver false []).mb 7).z ∧ (receiver false [(0, readySlot), (1, readySlot)]).faultFit = .refuse ∧
    (receiving false [] (note .fault 0x17 .flying)).msgOf (.hw 3) = some (note .fault 0x17 .flying) ∧
    ((receiving false [(0, readySlot), (1, readySlot)] (note .fault 0x17 .flying)).core 0).overflow = [] ∧
    (let s := wit.upC fun c => { c with overflow := [⟨0, 2, 0xFFF1, true⟩, ⟨0, 3, 0xFFF0, false⟩] }
     (s.core 0).overflow.find? (fun o => !o.taken) = some ⟨0, 3, 0xFFF0, false⟩ ∧ (s.core 0).freeCtx = some 1 ∧ ((s.core 0).ctx 1).trap.tact = false) ∧
    (∀ st ∈ [MsgState.flying, .listed, .backoff 0], (receiving false [] (note .plain 0x10 st)).msgOf (.out 0 3) = some (note .plain 0x10 st)) ∧
    (receiving false [] (note .plain 0x10 .listed)).actorAt 0 0x10 = some (0, 0) ∧ 0 ∉ ((receiver false []).mb 0).waiting ∧ (0 : Nat) ≤ (receiving false [] (note .plain 0x10 (.backoff 0))).time ∧
    (let s := parkedAt false false (note .plain 0x10 .flying)
     s.localTo (note .plain 0x10 .flying) = true ∧ s.heldBack (note .plain 0x10 .flying) = false ∧ s.actorAt 0 0x10 = none ∧ amState (s.amap 0 0x10) = 2 ∧
     s.parkLocked (s.amap 0 0x10) (s.parkTail (s.amap 0 0x10)) (note .plain 0x10 .flying).recordLen = false ∧
     (s.parkAppend (s.amap 0 0x10) (note .plain 0x10 .flying)).isSome = true) ∧
    (let s := wit.upAct fun a => { a with mbs := [(0, { (a.mb 0) with holds := [(1, 0, 0)] })] }
     (((s.core 0).actor 0).any fun a => (a.mb 0).holds.find? (fun h => h.2.1 = 0 && h.2.2 ≤ s.time) == some (1, 0, 0) && (a.mb 0).waiting.isEmpty) = true) ∧
    (let s := parkedAt true true (note .plain 0x10 .flying)
     (((s.core 0).actor 0).any fun a => a.fence && !s.parkLocked (s.amap a.part a.addr) (s.parkHead (s.amap a.part a.addr)) 4096 && (s.parkFirst (s.amap a.part a.addr) a).any fun m => m.kind == .plain && a.fitOf (s.core 0) { m with core := 2 ^ 16 } == .place 0 1 &&
      (a.mb m.mb).kind != 2 && decide (m.xf = 0 ∧ m.tiles = [] ∧ m.multi = false ∧ 8 * m.payload.length ≤ m.len)) = true) := by
  refine lead8 (by decide +kernel) ⟨by unfold plainMsg; decide +kernel, by decide +kernel⟩

/-- Core 0 with no firing, its time at 5. -/
def idleAt5 : State := { wit.upX fun x => { x with firing := none } with time := 5 }
/-- The candidate that it picks. -/
def chosen : Cand := ((idleAt5.core 0).pick 5).getD ⟨0, 0, 0, 0, none⟩

theorem test_witness_FiringAndContextEvents : (idleAt5.core 0).freeCtx = some 0 ∧ (idleAt5.core 0).pick idleAt5.time = some chosen ∧ chosen.slot = some 0 ∧ (idleAt5.core 0).actor chosen.idx = some theActor ∧
    (let s := withActor idleAt5 fun a => { a with csr := { a.csr with age := 1 } }
     (s.c.actor 0).any (fun a => (a.mb 0).oldest == some (0, readySlot) && a.csr.age == 1) = true ∧ readySlot.raised = false ∧ 1 < s.time - readySlot.accepted) ∧
    (let s := { (wit.upC fun c => { c with actors := [(0, some { theActor with csr := { theActor.csr with hbudget := 4 } })] }) with time := 5 }
     let x := (s.core 0).ctx 0
     x.firing = some (placedFiring 0) ∧ ((s.core 0).actor 0).any (fun a => a.csr.hbudget == 4) = true ∧ x.trap.pl = false ∧ x.trap.tact = false ∧ x.halted = false ∧ x.dead = false ∧
     4 < s.time - (placedFiring 0).entry - (placedFiring 0).away) ∧
    (let s := wit.upX fun x => { x with varp := [⟨4, .g 3, some (5, 0), false⟩], waitw := some 2 }
     ((s.core 0).ctx 0).varp.find? (·.id == 4) = some ⟨4, .g 3, some (5, 0), false⟩ ∧ ((s.core 0).ctx 0).waitw = some 2 ∧ 2 ≤ s.time + 2) ∧
    (⟨3, [7]⟩ : DecodeError).vals = [7] ∧ wit.x.trap.tact = false := by
  refine ⟨by decide +kernel, by decide +kernel, by decide +kernel⟩

/-- A store of the context at 0x2000: whole, of one byte, or to its home. -/
def aStore (mask : Byte) (direct : Bool) : StoreEntry := ⟨7, 0, 0, 0x10, 0, 0x2000, [⟨0x400, mask, 0, 0⟩], direct, false⟩
/-- With the first lines of page 1 in the core cache, the line of 0x403 dirty. -/
def cachedStore (mask : Byte) (direct : Bool) : State := cached.upM fun m => { m with stores := [aStore mask direct] }
/-- An access of the context to the granule at 0x2000, not yet at home or with its reply, for g3. -/
def anAccess (kind : FarKind) (direct remote : Bool) (reply : Option (List (Word × Byte))) : Far :=
  ⟨9, 0, 0, 0x10, 0, kind, 0x2000, 0x2000, 8, direct, remote, false, [⟨0x400, 0xFF, 5, sealFn 5⟩], [], [], reply, 0, none, true, none⟩
/-- The access on its way, for an entry of the acting context. -/
def accessing (f : Far) : State := (withFar cached [f]).upX fun x => { x with varp := [⟨9, .g 3, none, false⟩] }
/-- The kinds of access that complete at home. -/
def kinds : List FarKind := [.load (.g 3), .write, .prefetch true, .freq 2]
/-- The same core data as an eave core, the miss assigned to way 2. -/
def atEave : State := { wit with cores := tset .reset wit.cores 1024 { (Core.reset) with part := some 0, m := { CoreMem.reset with
  far := [{ anAccess (.load (.g 3)) false false none with ways := [(0x100, 2)] }] } } }
/-- The granules of page 1's first line in the cluster cache. -/
def inCluster : State := (accessing (anAccess (.load (.g 3)) false false none)).upM (fun m => { m with cache := [] }) |>.upCluster 0 fun k =>
  { k with cache := (List.range 4).map fun i => (0x400 + i, ⟨7, sealFn 7, true, 0, 0⟩) }
/-- A device with the capacity tier whose frame 2^26 + 1 was touched more often than the threshold; and with swaps of it under way. -/
def tiered (l : List Swap) : State := { wit with hasCap := true, power := { wit.power with record := some ⟨0, 2, [], 0, [], [], [], 0, []⟩, ready := wit.power.ready ++ [.eave 64] }
                                                 home := { wit.home with hits := [(2 ^ 26 + 1, 3)], swaps := l } }

/-- Some granule is the next that a request reads. -/
theorem nextRead_of {s : State} {f : Far} (h : f.rest ≠ []) : ∃ g, nextRead s f g := by
  have : Config.victim s.draws % f.rest.length < f.rest.length := Nat.mod_lt _ (List.length_pos_iff.mpr h)
  exact ⟨_, List.getElem?_eq_getElem this⟩
/-- No line of the core cache stands where the first line of page 1 goes. -/
theorem apart (way : Nat) : ∀ g ∈ cached.c.m.cache, inPlace cached.c.m.cache way 0x400 g.1 = false := by
  have h : ∀ g ∈ cached.c.m.cache, (setOf g.1 == setOf 0x400 && g.1 / 4 != 0x400 / 4) = false := by decide +kernel
  intro g hg
  have := h g hg
  simp only [inPlace, this, Bool.false_and]

/-- So nothing of it is written back first, whatever the way. -/
theorem room_apart (way : Nat) : (cachedStore 1 false).roomBlocked 0 way 0x400 = false := by
  have hc : ((cachedStore 1 false).core 0).m.cache = cached.c.m.cache := by decide +kernel
  have hf : (cached.c.m.cache.filter fun e => e.2.dirty && inPlace cached.c.m.cache way 0x400 e.1) = [] :=
    List.filter_eq_nil_iff.mpr fun e he => by simp [apart way e he]
  simp only [State.roomBlocked, State.cleanHeld, hc, hf, show isEave 0 = false by decide]
  rfl

theorem test_witness_MemoryEvents : (∀ m ∈ [(0xFF : Byte), 1], ∀ d ∈ [true, false], let s := cachedStore m d
     (s.core 0).m.stores.find? (fun e => e.id = 7) = some (aStore m d) ∧ (s.core 0).canDrain (aStore m d) = true ∧ s.locked 0x400 = false ∧ inCache (s.core 0).m.cache 0x400 = true) ∧
    (∀ n, n % (aStore 1 false).writes.length = 0) ∧ (aStore 1 false).writes = [⟨0x400, 1, 0, 0⟩] ∧ (1 : Byte) ≠ 0xFF ∧
    (∀ way, (cachedStore 1 false).roomBlocked 0 way 0x400 = false ∧ ∀ g ∈ cached.c.m.cache, inPlace cached.c.m.cache way 0x400 g.1 = false) ∧
    (wit.locked 0x400 = false ∧ wit.lostAt 0x400 = false ∧ (accessing (anAccess (.load (.g 3)) false false none)).wants (16 * 0 + 0) 0x400 = true ∧
      (accessing (anAccess (.load (.g 3)) false false none)).fillBehind 0 0x400 = false ∧ wit.noRoom 0 [0x400] = false ∧ wit.denied 0 (8 * 0x400) = false ∧
      roomInBank wit 0 0x400 ∧ isEave 1024 = true ∧ atEave.wants 1024 0x400 = true ∧ atEave.fillBehind 1024 0x400 = false ∧ (atEave.core 1024).wantWay atEave.draws 0x400 = some 2 ∧ atEave.roomBlocked 1024 2 0x400 = false ∧
      atEave.denied (atEave.core 1024).partNo (8 * 0x400) = false ∧ atEave.locked 0x400 = false ∧ atEave.lostAt 0x400 = false) ∧
    (cacheAt (cached.core 0).m.cache 0x403 = some ⟨0, 0, true, 0, 0⟩ ∧ 0x403 / 4 = 0x100 ∧ ((cached.core 0).m.cache.map (·.1)).Nodup ∧ isEave 0 = false ∧ cached.cleanHeld 0 (fun g => g / 4 == 0x100) = false ∧
      (onEave cached).cleanHeld 1024 (fun g => g / 4 == 0x100) = false ∧ (onEave cached).denied 0 (8 * 0x403) = false ∧ (onEave cached).lostAt 0x403 = false ∧
      cacheAt ((onEave cached).core 1024).m.cache 0x403 = some ⟨0, 0, true, 0, 0⟩ ∧ roomInBank cached (clusterOf 0) 0x403) ∧
    (let s := cached.upCluster 0 fun k => { k with cache := [(0x403, ⟨5, sealFn 5, true, 0, 0⟩)] }
     cacheAt (s.cluster 0).cache 0x403 = some ⟨5, sealFn 5, true, 0, 0⟩ ∧ 0x403 / 32 = 0x20 ∧ ((s.cluster 0).cache.map (·.1)).Nodup ∧
      s.dirtyLocked (s.cluster 0).cache (fun g => g / 32 == 0x20) = false ∧ s.denied 0 (8 * 0x403) = false ∧ s.lostAt 0x403 = false) ∧
    (∀ k ∈ kinds, ∀ d ∈ [true, false], ∀ r ∈ [true, false], ∀ p ∈ [none, some [((5 : Word), sealFn 5)]], let f := anAccess k d r p
     let s := accessing f
     (s.core 0).farOf 9 = some f ∧ (s.core 0).behind f = false ∧ (s.core 0).onLink f = false ∧ ((s.core 0).ctx 0).varp.find? (·.id == 9) = some ⟨9, .g 3, none, false⟩ ∧
       (∀ g ∈ granulesOf f.pa f.size, s.locked g = false ∧ s.denied f.part (8 * g) = false ∧ ∀ h ∈ lineOf g, inCache (s.core 0).m.cache h = true) ∧
       (k.plain = true ↔ k = .load (.g 3) ∨ k = .write) ∧ f.rest = [0x400] ∧ f.writes ≠ []) ∧
    (let f := anAccess (.load (.g 3)) false false none
     (inCluster.core 0).farOf 9 = some f ∧ (inCluster.core 0).behind f = false ∧ (∀ h ∈ lineOf 0x400, (cacheAt (inCluster.cluster 0).cache h).isSome = true) ∧ (inCluster.core 0).m.cache = []) ∧
    ((tiered []).power.record = some ⟨0, 2, [], 0, [], [], [], 0, []⟩ ∧ (tiered []).hasCap = true ∧ 2 ^ 26 + 1 < 5 * 2 ^ 26 ∧ (tiered []).slotOfFrame (2 ^ 26 + 1) ≠ 0 ∧
      2 < tget 0 (tiered []).home.hits ((tiered []).ownFrame (2 ^ 26 + 1)) ∧ 1 % 2 ^ 26 = (2 ^ 26 + 1) % 2 ^ 26 ∧ (tiered []).slotOfFrame 1 = 0 ∧
      ∀ f ∈ [2 ^ 26 + 1, 1], tget 0 (tiered []).home.locks (32 * (tiered []).ownFrame f) = 0 ∧ (tiered []).served (1024 * (tiered []).ownFrame f) = true ∧
        (tiered []).midAccess (32 * (tiered []).ownFrame f) = false ∧ (tiered []).home.swaps = []) ∧
    (∀ n ∈ [1, 31, 32], let w : Swap := ⟨2 ^ 26 + 1, 1, n⟩
     (tiered [w]).home.swaps.find? (fun w => w.far = 2 ^ 26 + 1) = some w ∧ w.far ≠ w.near ∧ ∀ f ∈ [w.far, w.near], tget 0 (tiered [w]).home.locks (32 * (tiered [w]).ownFrame f + w.next) = 0 ∧
       (tiered [w]).midAccess (32 * (tiered [w]).ownFrame f + w.next) = false) ∧
    ∀ f, f < 5 * 2 ^ 26 → f % 2 ^ 26 = (2 ^ 26 + 1) % 2 ^ 26 → (tiered []).slotOfFrame f = 0 → f = 1 := by
  refine ⟨by decide +kernel, fun n => Nat.mod_one n, by decide +kernel, by decide +kernel, fun way => ⟨room_apart way, apart way⟩, by unfold roomInBank; decide +kernel, by unfold roomInBank; decide +kernel,
    lead2 (by decide +kernel) (lead2 (by decide +kernel) ⟨by decide +kernel, fun f h1 h2 h3 => ?_⟩)⟩
  have e : (tiered []).home.remap = [] := by decide +kernel
  have h4 : f / 2 ^ 26 = 0 := by simpa [State.slotOfFrame, e, tget] using h3
  omega

theorem performs_of {s : State} {core k : Nat} {t : Stream} (h : (decide ((s.core core).stream k = t) && decide (t.ph = .running) && !t.d.indir &&
    ((s.core core).slotOwner k).isSome && decide ((s.core core).binder k = none)) = true) : performs s core k t := by
  simp only [Bool.and_eq_true, decide_eq_true_eq, Bool.not_eq_true'] at h
  exact ⟨h.1.1.1.1, h.1.1.1.2, h.1.1.2, h.1.2, h.2⟩
/-- The translation that a walk of the tables finds. -/
def bigPage : Xlat := ⟨0x2000, 0xD000000000000000, 2, some 0⟩
/-- The state after the translation of slot 5's next element, at 0x2000. -/
def after (t : Stream) (wr : Bool) : State := match (slot5 t).place 0 5 0x2000 wr with
  | some (_, u) => u
  | none => slot5 t
/-- Whether element 0 of a stream at 0x2000 can be reached. -/
def near (t : Stream) (wr : Bool) : Bool := t.d.addr t.d.base 0 == (0x2000, 0) && (match (slot5 t).place 0 5 0x2000 wr with
    | some (.ok x, _) => x == bigPage
    | _ => false) && (slot5 t).placed t bigPage && !(slot5 t).locked (bigPage.pa / 8) && !(after t wr).lostAt (bigPage.pa / 8)
theorem reachable_of {t : Stream} {wr : Bool} (h : near t wr = true) : reachable (slot5 t) 0 5 t (t.d.addr t.d.base 0) wr bigPage (after t wr) := by
  simp only [near, Bool.and_eq_true, Bool.not_eq_true', beq_iff_eq] at h
  obtain ⟨⟨⟨⟨h0, h1⟩, h2⟩, h3⟩, h4⟩ := h
  refine ⟨?_, h2, h3⟩
  rw [h0]
  show (slot5 t).place 0 5 0x2000 wr = _
  unfold after
  revert h1
  cases (slot5 t).place 0 5 0x2000 wr with
  | none => intro h1; cases h1
  | some p =>
    obtain ⟨e, u⟩ := p
    cases e with
    | error n => intro h1; cases h1
    | ok y => intro h1; rw [beq_iff_eq.mp h1]
/-- A drain that holds element 0, or one whole granule of two. -/
def held (n : Nat) : Stream := { strm .drn .running with buf := (List.range n).map fun i => ⟨i, BitVec.ofNat 64 (5 + i), 0x600000005, sealFn 0x600000005, 0, false⟩ }
/-- An ADD update with four elements granted, at the core or in the NBU of the eave core that is home. -/
def adding (loc : BitVec 2) : Stream := { strm .upd .running with d := { (strm .upd .running).d with op := 1 }, g := 4, loc := loc, locId := if 2 ≤ loc then wit.homeEave 0x2000 else 0 }
/-- The same between its read and its write. -/
def halved : Stream := { adding 0 with half := some ⟨5, 0, 0x400, 0x2000, 0, none⟩ }
/-- A source that starts where nothing is mapped. -/
def astray : Stream := { strm .src .running with d := { (strm .src .running).d with base := 0x100000000000000 } }
/-- An ADD2 update between its reads and its write, the second stream in slot 6 at an address, with its element read or not. -/
def summing (base : Word) (y : Option (Nat × Byte)) : State :=
  withStream (slot5 { halved with d := { halved.d with op := 8, slv := 6 }, half := some ⟨5, 0, 0x400, 0x2000, 0, y⟩ }) 6
    { strm .src .running with bound := true, d := { (strm .src .running).d with base := base } }
/-- An indirect source whose next index, of a format, stands in slot 6. -/
def looking (f : Fmt) (v : Word) : State :=
  withStream (slot5 { strm .src .running with d := { (strm .src .running).d with indir := true, ixs := 6, ts := 8 } }) 6
    { strm .idx .running with bound := true, pushed := 1, buf := [⟨0, v, v, sealFn v, 0, false⟩], d := { (strm .idx .running).d with fmt := f.code, t := [BitVec.ofNat 64 (f.bits / 8), 0, 0, 0] } }
/-- A source on a page of another partition; an update where the tables map no page writable. -/
def barred (d : Dir) : Bool :=
  let s := slot5 (strm d .running)
  let h := if d = .src then { s.home with frames := tset 0 s.home.frames 1 0x21 } else { s.home with mem := s.home.mem.setGran 0x2800 0xC000000000000000 (sealFn 0xC000000000000000) }
  match ({ s with home := h } : State).place 0 5 0x2000 (decide (d = .upd)) with
    | some (.error n, _) => n.1 == 2
    | _ => false
/-- A store of the context routed to slot 5. -/
def patch (ws : List GWrite) : Patch := ⟨7, ⟨7, 0, 0, 0x10, 0, 0x2000, ws, false, false⟩, [(5, 0)], false⟩

theorem test_witness_StreamEventResults : (∀ t ∈ [strm .src .running, held 1, held 2, adding 0, adding 1, adding 2, adding 3, astray], performs (slot5 t) 0 5 t) ∧
    (strm .src .running).d.dir = .src ∧ ((slot5 (strm .src .running)).core 0).total (strm .src .running) = some 4 ∧ (strm .src .running).read < 4 ∧
    ((slot5 (strm .src .running)).core 0).m.patches = [] ∧ reachable (slot5 (strm .src .running)) 0 5 (strm .src .running) ((strm .src .running).d.addr (strm .src .running).d.base 0) false bigPage
      (after (strm .src .running) false) ∧
    ((slot5 astray).core 0).total astray = some 4 ∧ (match (slot5 astray).place 0 5 (astray.d.addr astray.d.base astray.read).1 false with | some (.error n, _) => n.1 == 1 | _ => false) = true ∧
    (∀ n ∈ [1, 2], (held n).d.dir = .drn ∧ (held n).skipLeft (held n).f = 0 ∧ ((held n).buf.find? (·.e == (held n).f)).isSome = true) ∧ (held 1).moveRun = 0 ∧ (held 2).moveRun ≠ 0 ∧
    reachable (slot5 (held 1)) 0 5 (held 1) ((held 1).d.addr (held 1).d.base 0) true bigPage (after (held 1) true) ∧
    reachable (slot5 (held 2)) 0 5 (held 2) ((held 2).d.addr (held 2).d.base 0) true bigPage (after (held 2) true) ∧
    (∀ l ∈ [(0 : BitVec 2), 3], (adding l).d.dir = .upd ∧ (adding l).d.op ≠ 7 ∧ (adding l).d.op ≠ 8 ∧ (adding l).f < (adding l).g ∧ (adding l).skipLeft (adding l).f = 0 ∧
      ((slot5 (adding l)).core 0).patchAhead 5 (adding l).f = false ∧ near (adding l) true = true) ∧
    reachable (slot5 (adding 3)) 0 5 (adding 3) ((adding 3).d.addr (adding 3).d.base 0) true bigPage (after (adding 3) true) ∧ (slot5 (adding 3)).nbuOk 0 5 (adding 3).locId = true ∧ (adding 3).half = none ∧
    (adding 0).bound = false ∧ pinAllows (adding 0).pin 1 = true ∧ pinAllows (adding 0).pin 2 = true ∧ pinAllows (adding 0).pin 3 = true ∧ pinAllows (adding 0).pin 0 = true ∧
    (∀ l ∈ [(0 : BitVec 2), 1, 2, 3], near { adding l with loc := 1, locId := 0 } true = true ∧ near { adding l with loc := 2, locId := wit.homeEave 0x2000 } true = true) ∧
    ((slot5 (adding 2)).core 0).root 5 = 5 ∧ ((slot5 (adding 2)).core 0).recallable 5 = true ∧ (slot5 (adding 2)).nbuOk 0 5 (wit.homeEave 0x2000) = true ∧ (adding 2).loc = 2 ∧
    (adding 2).locId = wit.homeEave 0x2000 ∧ coreNumber 0 = 0 ∧
    (∀ ws ∈ [[⟨0x400, 0xFF, 5, sealFn 5⟩], [⟨0x400, 0xF, 5, sealFn 5⟩], [⟨0x400, 0xFF, 5, sealFn 5⟩, (⟨0x401, 0xFF, 5, sealFn 5⟩ : GWrite)]],
      let s := (slot5 (adding 0)).upM fun m => { m with patches := [patch ws] }
      (s.core 0).m.patches.find? (·.id == 7) = some (patch ws) ∧ (s.core 0).patchBehind (patch ws) = false ∧ ws ≠ [] ∧
        ∀ w ∈ ws, s.locked w.gr = false ∧ s.lostAt w.gr = false ∧ s.denied (patch ws).st.part (8 * w.gr) = false) ∧
    ((∀ y ∈ [none, some (7, (0 : Byte))], (summing 0x3000 y).c.stream 5 = { halved with d := { halved.d with op := 8, slv := 6 }, half := some ⟨5, 0, 0x400, 0x2000, 0, y⟩ } ∧
        ((summing 0x3000 y).c.stream 6).ph = .running ∧ ((summing 0x3000 y).c.stream 6).d.indir = false ∧ (summing 0x3000 y).c.m.patches = [] ∧
        (match (summing 0x3000 y).place 0 6 0x3000 false with | some (.ok x, _) => !(summing 0x3000 y).locked (x.pa / 8) | _ => false) = true ∧ (summing 0x3000 y).locked 0x400 = false ∧
        (summing 0x3000 y).lostAt 0x400 = false ∧ (summing 0x3000 y).secondPlaced 0 ((summing 0x3000 y).c.stream 5) = true) ∧
      (match (summing 0x100000000000000 none).place 0 6 0x100000000000000 false with | some (.error n, _) => n.1 == 1 | _ => false) = true ∧
      ((summing 0x100000000000000 none).core 0).binder 6 = some 5) ∧
    (∀ p ∈ [(Fmt.n32, (3 : Word)), (.n32, 0xFFFFFFFF), (.s64, 0xFFFFFFFF)], let s := looking p.1 p.2
      (s.c.stream 5).ph = .running ∧ (s.c.slotOwner 5).isSome = true ∧ (s.core 0).binder 5 = none ∧ 0 < (s.c.stream 5).d.per ∧ (s.c.stream 5).idx = [] ∧
        (s.c.stream 5).ixpos < (s.c.stream 6).d.per ∧ (s.c.stream 6).skips = [] ∧ ((s.c.stream 6).buf.find? (·.e == 0)).isSome = true) ∧
    barred .src = true ∧ barred .upd = true ∧
    ((slot5 { adding 1 with f := 2, frec := 1 }).core 0).stream 5 = { adding 1 with f := 2, frec := 1 } ∧
    (performs (slot5 halved) 0 5 halved ∧ halved.half = some ⟨5, 0, 0x400, 0x2000, 0, none⟩ ∧ (slot5 halved).locked 0x400 = false ∧ (slot5 halved).lostAt 0x400 = false) := by
  refine ⟨fun t h => performs_of ?_, lead4 (by decide +kernel) ⟨reachable_of (by decide +kernel), lead4 (by decide +kernel) ⟨by decide +kernel, reachable_of (by decide +kernel), reachable_of (by decide +kernel), by decide +kernel, reachable_of (by decide +kernel),
    lead8 (by decide +kernel) (lead4 (by decide +kernel) ⟨by decide +kernel, by decide +kernel, by decide +kernel, by decide +kernel, by decide +kernel, by decide +kernel, by decide +kernel, by decide +kernel, performs_of (by decide +kernel), by decide +kernel⟩)⟩⟩⟩
  simp only [List.mem_cons, List.not_mem_nil, or_false] at h
  rcases h with h | h | h | h | h | h | h | h <;> rw [h] <;> decide +kernel

/-- The stage records: one gang whose entry is at 0x2800, or at 0x2820. -/
def stageRec (n : Nat) : BitVec 512 := BitVec.ofNat 512 ((0x2800 + 32 * n) * 2 ^ 64 + 2 ^ 128)
/-- What the host wrote: a queue of eight at 0x2000 with slots from 0x2400 on, of which one is reserved; the gang entries, of one member and a
window of two units each, the second with an actor record that is none; the actor record at 0x3000, of 16 bytes of code and mailbox 7. -/
def launched (committed : List Nat) (stages : List Stage) : State :=
  let actorRec := [1 + 16 * 2 ^ 32, 2 ^ 32, 0x1000, 0, 0x600, 0x600, 0x600, 0x600, 0x600, 0x600, 0x600, 7 + 2 ^ 14 + 2 ^ 17 + 2 ^ 25 + 2 ^ 48, 0, 0, 0, 0x8000000000]
  let entry := fun (a : Nat) => [a, 1 + 2 * 2 ^ 32, 0x2900, 0]
  let words := fun (l : List Nat) => sealed (l.map (BitVec.ofNat 64))
  let p := base.part 0
  let mem := ((((base.home.mem.setGrans 0x400 (words [0x2400, 8, 1, 0, 0])).setGrans 0x480 (words [0, 0x2800, 1])).setGrans 0x500 (words (entry 0x3000))).setGrans 0x504 (words (entry 0x3100)))
  { (base.upC fun c => { c with actors := [], ctxs := [] }) with
    time := 5
    home := { base.home with mem := mem.setGrans 0x600 (words actorRec) }
    power := { base.power with ready := base.power.ready ++ [.core 0] }
    dist := { base.dist with parts := [(0, { p with park := [0x6000], amap := [] })], gangs := [], stages := stages, queues := [(0, ⟨0x2000, true, committed, []⟩)] } }
/-- A stage of a record, with weight that came back and a raise. -/
def aStage (n sum raised : Nat) : Stage := ⟨3, 0, 0, 0, stageRec n, 0, sum, raised, 0⟩
/-- One place, on core 0. -/
def aPlace : Place := ⟨0, 0, 2, 0x4000, 3⟩

/-- Key slots of partition 0 discarded. -/
def discarded (d : BitVec 4) : State := { base with dist := { base.dist with parts := [(0, { base.part 0 with dead := d })] } }

theorem test_witness_DistributorAndHostEvents :
    (let s := launched [] []
     s.qTake 0 1 = none ∧ (s.queue 0 0).enabled = true ∧ s.qReserve 0 0 - s.qFree 0 0 ≠ s.qCount 0 0 ∧ (s.distXlat 0 ((s.queue 0 0).cb.toNat + 16) true).any (fun x => x.pa == 0x2010 && !s.slotGone 0 x) = true ∧ s.served (0x2010 / 8) = true ∧ s.vaBusy 0 (s.queue 0 0).cb.toNat 6 = false ∧ s.vaBusy 0 0x2000 8 = false ∧
      s.qHead 0 0 ≤ (0 : Word).toNat ∧ (0 : Word).toNat < s.qReserve 0 0 ∧ (0 : Word).toNat ∉ (s.queue 0 0).committed ∧ ¬ (1 : Word).toNat < s.qReserve 0 0 ∧
      (s.part 0).st = .active ∧ (0x2000 : Word).toNat % 64 = 0 ∧ 2 ^ 3 = 8 ∧ (s.distPa 0 0x2000 true).isSome = true) ∧
    (let s := launched [0] []
     (s.queue 0 0).enabled = true ∧ s.qHead 0 0 ∈ (s.queue 0 0).committed ∧ s.record 0 (s.qSlot 0 0 (s.qHead 0 0)) 8 512 = some (stageRec 0) ∧ s.queueBusy 0 0 (s.qHead 0 0) = false ∧ s.stageLocked 0 (stageRec 0) = false ∧ s.stageBad 0 (stageRec 0) = false) ∧
    (∀ n ∈ [0, 1], let s := launched [] [aStage n 0 0]
     s.dist.stages.find? (fun t => t.key = 3) = some (aStage n 0 0) ∧ (aStage n 0 0).waits = true ∧ s.mayPlace (aStage n 0 0) = true ∧ (aStage n 0 0).raised = 0 ∧
      (s.part 0).aging < s.time - (aStage n 0 0).taken ∧ (s.gangEntry 0 (stageRec n) 0).any (fun e => s.placeable 0 e true == decide (n = 0)) = true ∧ s.stageBusy 3 = false ∧ (∀ v ∈ s.dist.stages, s.headLocked v = false) ∧ (∀ a ∈ (s.part 0).park.take 1, s.locked (a / 8) = false) ∧
      (n = 0 → (s.gangEntry 0 (stageRec 0) 0).any (fun e => gangPlacesOk e [aPlace] && s.tagsOk e [aPlace] [] && (s.actorRec 0 (bytesAt e 0 8)).any fun r => s.placesOk (aStage 0 0 0) e r [aPlace]) = true ∧
        s.gangOf 5 = none)) ∧
    (∀ w ∈ [0, 2 ^ 63 - 7], let s := { launched [] [aStage 0 w 0] with dist := { (launched [] [aStage 0 w 0]).dist with returns := [(9, 3, 7)] } }
     s.dist.returns.find? (fun r => r.1 = 9) = some (9, 3, 7) ∧ s.dist.stages.find? (fun t => t.key = 3) = some (aStage 0 w 0) ∧ (w + 7 = 2 ^ 63 ↔ w ≠ 0) ∧ s.stageBusy 3 = false) ∧
    (∀ w ∈ [true, false], base.hostXlats 0 (0x100000000000000 : Word).toNat 8 w = none ∧
      ∀ d ∈ [(0 : BitVec 4), 1], (discarded d).hostXlats 0 (0x2000 : Word).toNat 8 w = some [bigPage] ∧ (discarded d).slotGone 0 bigPage = (d == 1)) ∧
    (0x2000 : Word).toNat % 8 = 0 ∧ base.served 0x400 = true ∧
    base.denied 0 0x2000 = false ∧ base.vaBusy 0 (0x2000 / 8 * 8) ((0x2000 % 8 + 8 + 7) / 8) = false ∧ (List.replicate 8 (5 : Byte)).length = 8 := by
  refine ⟨?_, ?_, ?_, ?_, ?_, ?_, ?_, ?_, ?_, ?_⟩ <;> decide +kernel

/-- A device with a record, some functions ready. -/
def device (held : Bool) (ready : List Fn) : State := { base with power := { base.power with record := some ⟨0, 2, [7], 0, [], [], [], 0, []⟩, held := held, ready := ready, retries := [(0, Config.linkRetryLimit + 1)] } }
/-- Partition 1 in some state, on core 5, with key slot 1 or none; frame 3 is its own. -/
def parted (st : PartState) (keys : BitVec 4) : State :=
  { base with dist := { base.dist with parts := [(1, { Partition.free with st := st, keys := keys, cores := [5] })], stages := [] }, home := { base.home with frames := [(3, 0x21)] } }
/-- What it is given. -/
def setup : PartSetup := ⟨[6, 1100], [4, 5], 0x10000, [0xA000], 0, 0, 0, false, 0, 0⟩
/-- An actor of it. -/
def inhabited (st : PartState) : State := (parted st 1).upCore 5 fun c => c.setActor 0 (some { theActor with part := 1 })

theorem test_witness_DeviceEvents : base.power.record = none ∧ base.power.bootFailed = false ∧ (device false []).power.record.isSome = true ∧ (device false []).power.held = false ∧
    (∀ f ∈ [Fn.core 1023, .eave 63, .eave 271, .link 7], fnExists f = true ∧ f ∉ (device false []).power.ready ∧ (∀ n ∈ fnCores f, ((device false []).core n).failed = false) ∧
      f ∈ (device false [f]).power.ready ∧ ∀ g ∈ (device false [f]).dist.gangs, (device false [f]).gangOn (fnCores f) g = false ∧ (device false [f]).memoryOn g.part f = false) ∧
    .link 0 ∈ (device false [.link 0]).power.ready ∧ Config.linkRetryLimit < tget 0 (device false [.link 0]).power.retries 0 ∧
    (∀ f ∈ [Fn.core 3, .eave 271], monitored f ≠ [] ∧ fnExists f = true ∧ monitorName f ∉ base.power.shut) ∧ base.time % 24000 = 0 ∧ (114 : Int) < 115 ∧ 256 * 2400 ≤ 256 * 2400 ∧
    (tget (0, 0) ({ base with time := 2400 }).power.ramp 3).2 + 2400 ≤ ({ base with time := 2400 }).time ∧
    ((parted .free 0).part 1).st = .free ∧ (∀ st, ((parted st 1).part 1).st = st ∧ ((parted st 1).part 1).keys = 1 ∧ ((parted st 1).part 1).dead = 0 ∧ ((parted st 1).part 1).cores = [5]) ∧
    (let s := parted .keyed 1
     setup.cores.Nodup ∧ (∀ g ∈ setup.frames, s.frameFree 1 g = true) ∧ (∀ c ∈ setup.cores, (c < 1024 ∨ (1024 ≤ c ∧ c < 1296)) ∧ (s.core c).part = none) ∧
      setup.ptb.toNat % 64 = 0 ∧ setup.ptb.toNat < 2 ^ 52 ∧ setup.park.Nodup ∧ ∀ a ∈ setup.park, a % 8192 = 0 ∧ a / 8192 ∈ setup.frames) ∧
    (∀ st ∈ [PartState.active, .stopping], (parted st 1).partStages 1 = [] ∧ (parted st 1).hasActors 1 = false ∧ (inhabited st).hasActors 1 = true ∧ ((inhabited st).part 1).st = st) ∧
    (tget 0 (parted .stopping 1).home.frames 3).getLsbD 5 = true ∧ (tget 0 (parted .stopping 1).home.frames 3).toNat % 16 = 1 ∧
    (1 : BitVec 4).getLsbD 3 = false ∧ (1 : BitVec 4).getLsbD 0 = true ∧ (parted .active 1).frameFree 1 3 = true ∧ 3 ∈ (parted .active 1).framesOf 1 ∧ (∀ g ∈ (parted .active 1).framesOf 1, (parted .active 1).frameBusy g = false) ∧
    (∀ f ∈ [Fn.core 1023, .eave 63, .link 7], f ∉ base.power.ready) ∧ (8191 : Nat) < 8192 ∧
    (device true []).power.record = some ⟨0, 2, [7], 0, [], [], [], 0, []⟩ := by
  refine lead4 (by decide +kernel) ⟨by decide +kernel, by decide +kernel, ?_, lead4 (by decide +kernel) ⟨by decide +kernel, by decide +kernel, fun st => ?_, by decide +kernel⟩⟩
  · show Config.linkRetryLimit < Config.linkRetryLimit + 1; omega
  · cases st <;> decide +kernel


theorem mayRun_of {s : State} (h : (s.x.firing.isSome && !s.x.halted && !s.x.dead && decide ((s.cur, s.curCtx) ∉ s.stalled) && s.x.trap.pl) = true) : mayRun s := by
  simp only [Bool.and_eq_true, Bool.not_eq_true', decide_eq_true_eq, Option.isSome_iff_exists] at h
  exact ⟨.inl h.1.1.1.1, ⟨h.1.1.1.2, h.1.1.2⟩, h.1.2, .inl h.2⟩
theorem runs_of {s : State} (h : (s.x.firing.isSome && !s.x.halted && !s.x.dead && decide ((s.cur, s.curCtx) ∉ s.stalled) && s.x.trap.pl) = true) (h2 : s.followDue = false) : runs s :=
  ⟨mayRun_of h, .inr h2⟩

/-- A supervisor context with a word at the PC, 0x100, or the PC at XB. -/
def ready (w : Nat) (moves : List Move) : State :=
  { (sup base).upM fun m => { m with lm := m.lm.setGran 0x20 (BitVec.ofNat 64 w) 0 } with feed := moves }
def outside : State := (ready 0 []).upX fun x => { x with pc := 0x2000 }

theorem test_witness_StepRunsDecodedInstruction : (ready 0 []).feed = [] ∧ runs ((ready 0x02E6AB07 []).later 1) ∧ fetches ((ready 0x02E6AB07 []).later 1) ∧
    decodeBytes (bytesHere ((ready 0x02E6AB07 []).later 1)) = .instr (.add 0x17 6 0x15 3) 4 ∧ WellFormed (.add 0x17 6 0x15 3) ∧
    (∃ e w h, decodeBytes (bytesHere ((ready 0 []).later 1)) = .bad e w h) ∧ runs ((ready 0 []).later 1) ∧ fetches ((ready 0 []).later 1) ∧
    (outside.later 1).c.xbAddr ≤ (outside.later 1).x.pc.toNat ∧ runs (outside.later 1) ∧
    (let s := ready 0x02E6AB07 [.run 0 0 5]
     s.feed = [.run 0 0 5] ∧ runs (({ s with feed := [] }.later 5).focus 0 0) ∧ fetches (({ s with feed := [] }.later 5).focus 0 0)) ∧
    (let s := withCopies (ready 0x02E6AB07 []) [{ theCopy 3 true [] with landed := true }]
     s.feed = [] ∧ mayRun (s.later 1) ∧ (s.later 1).x.firing ≠ none ∧ (s.later 1).followDue = true) ∧
    Machine.Instr.happens (.lqtailWrite 0 0 0) = true ∧ ∃ t, exec (.lqtailWrite 0 0 0) ({ ready 0 [] with feed := [] }.later 1) = .next t :=
  ⟨by decide +kernel, runs_of (by decide +kernel) (by decide +kernel), by unfold fetches; decide +kernel, by decide +kernel, by decide +kernel, ⟨_, _, _, rfl⟩, runs_of (by decide +kernel) (by decide +kernel),
    by unfold fetches; decide +kernel, by decide +kernel, runs_of (by decide +kernel) (by decide +kernel), ⟨by decide +kernel, runs_of (by decide +kernel) (by decide +kernel), by unfold fetches; decide +kernel⟩,
    ⟨by decide +kernel, mayRun_of (by decide +kernel), by decide +kernel, by decide +kernel⟩, by decide +kernel,
    goes_next (by decide +kernel)⟩

theorem test_witness_StepsKeepMemoryCanonical : State.reset.memoryOk ∧ ∃ t, step State.reset = .next t := ⟨⟨rfl, fun _ => rfl⟩, goes_next (by decide +kernel)⟩

theorem test_witness_DecodeOfEncode : WellFormed (.add 31 31 31 7) ∧ encode (.add 31 31 31 7) ≠ .none ∧ WellFormed .cNop ∧ encode .cNop ≠ .none := by decide

end Sys2Proof.Tests
end

section
/-!
Every step keeps every memory in canonical form (O59, O58).

`State.memoryOk` is the invariant.  The model is written in the monad `M`, so the proof is a logic for it: `Keeps m` says that the operation m
leaves canonical memory whichever way it ends, one rule stands for each construct of `M`, and each function of the model has one lemma, in the
order of the model:
- `State.memoryOk_f` where the function f leaves memory as it is, as an equivalence;
- `State.memoryOk.f` where f writes memory through `Mem.setByte`, `setSeal`, `setGran`, `setGrans` or `zero`, whose laws `Memory.wf_…` the model
  already has, or where it answers a state only sometimes;
- `keeps_f` for an operation of `M`, `nextOk_f` for a function that gives an outcome.
`nextOk_exec` then holds for every instruction and event, and the step adds only time, focus and traps.
-/

namespace Sys2Proof.Machine

set_option Elab.async false

/-! ## States -/

/-- Only home memory and the LM of the cores decide whether memory is canonical. -/
theorem State.memoryOk_congr {s t : State} (hm : t.home.mem = s.home.mem) (hc : ∀ n, (t.core n).m.lm = (s.core n).m.lm) :
    t.memoryOk ↔ s.memoryOk := by
  simp only [State.memoryOk, hm, hc]
/-- Settles O58: at reset every memory is the empty one. -/
theorem memoryCanonicalAtReset : Obligations.MemoryCanonicalAtReset := ⟨State.reset_home_wf, State.reset_lm_wf⟩

theorem State.memoryOk.setCore {s : State} (h : s.memoryOk) (n : Nat) {c : Core} (hc : Memory.wf c.m.lm = true) : (s.setCore n c).memoryOk := by
  refine ⟨h.1, fun m => ?_⟩
  rw [State.core_setCore]
  split
  · exact hc
  · exact h.2 m
theorem State.memoryOk.upCore {s : State} (h : s.memoryOk) (n : Nat) {f : Core → Core}
    (hf : Memory.wf (s.core n).m.lm = true → Memory.wf (f (s.core n)).m.lm = true) : (s.upCore n f).memoryOk :=
  h.setCore n (hf (h.2 n))
theorem State.memoryOk.upM {s : State} (h : s.memoryOk) {f : CoreMem → CoreMem} (hf : Memory.wf s.c.m.lm = true → Memory.wf (f s.c.m).lm = true) :
    (s.upM f).memoryOk := h.upCore _ hf

/-- A change of a core that leaves its LM. -/
@[simp] theorem State.memoryOk_upCore {s : State} {n : Nat} {f : Core → Core} (hf : (f (s.core n)).m.lm = (s.core n).m.lm) :
    (s.upCore n f).memoryOk ↔ s.memoryOk :=
  State.memoryOk_congr rfl fun m => by
    rw [State.core_upCore]
    split
    · next e => rw [e, hf]
    · rfl
@[simp] theorem State.memoryOk_upC {s : State} {f : Core → Core} (hf : (f s.c).m.lm = s.c.m.lm) : (s.upC f).memoryOk ↔ s.memoryOk :=
  State.memoryOk_upCore hf
@[simp] theorem State.memoryOk_upM {s : State} {f : CoreMem → CoreMem} (hf : (f s.c.m).lm = s.c.m.lm) : (s.upM f).memoryOk ↔ s.memoryOk :=
  State.memoryOk_upC hf
@[simp] theorem State.memoryOk_upX {s : State} {f : Ctx → Ctx} : (s.upX f).memoryOk ↔ s.memoryOk := State.memoryOk_upC rfl

/-- A state that differs outside the cores and home memory. -/
theorem memoryOk_mk {s : State} {a : Bool} {b : BitVec 8} {c : Nat} {d : Tab Cluster} {e : Dist} {f : Power} {g : List HostItem}
    {i : List Move} {j : List (Nat × Nat)} {k l m : Nat} : (State.mk a b c s.cores d s.home e f g i j k l m).memoryOk ↔ s.memoryOk := Iff.rfl
/-- A state that differs outside the cores and the bytes and seals of home memory. -/
theorem memoryOk_mk_home {s : State} {a : Bool} {b : BitVec 8} {c : Nat} {d : Tab Cluster} {e : Dist} {f : Power} {g : List HostItem}
    {i : List Move} {j : List (Nat × Nat)} {k l m : Nat} {h1 : Tab (Option Sig)} {h2 : Tab Nat} {h3 : Tab Byte} {h4 h5 h6 : Tab Nat} {h7 : List Nat}
    {h8 : List Swap} :
    (State.mk a b c s.cores d ⟨s.home.mem, h1, h2, h3, h4, h5, h6, h7, h8⟩ e f g i j k l m).memoryOk ↔ s.memoryOk := Iff.rfl

@[simp] theorem memoryOk_ite {c : Prop} [Decidable c] {s t : State} : (if c then s else t).memoryOk ↔ (c → s.memoryOk) ∧ (¬ c → t.memoryOk) := by
  split <;> simp [*]
@[simp] theorem memoryOk_foldl {β : Type} {f : State → β → State} (hf : ∀ s b, (f s b).memoryOk ↔ s.memoryOk) {l : List β} {s : State} :
    (l.foldl f s).memoryOk ↔ s.memoryOk := by
  induction l generalizing s with
  | nil => rfl
  | cons b r ih => exact ih.trans (hf s b)
theorem State.memoryOk.foldl {β : Type} {f : State → β → State} (hf : ∀ s b, s.memoryOk → (f s b).memoryOk) {l : List β} {s : State}
    (h : s.memoryOk) : (l.foldl f s).memoryOk := by
  induction l generalizing s with
  | nil => exact h
  | cons b r ih => exact ih (hf s b h)

/-! ## The LM of a core -/

@[simp] theorem Core.dropFar_lm (c : Core) (id : Nat) : (c.dropFar id).m.lm = c.m.lm := rfl
@[simp] theorem Core.upFar_lm (c : Core) (id : Nat) (g : Far → Far) : (c.upFar id g).m.lm = c.m.lm := rfl
@[simp] theorem Core.storeDone_lm (c : Core) (id i : Nat) : (c.storeDone id i).m.lm = c.m.lm := rfl
@[simp] theorem Core.patchDone_lm (c : Core) (id i : Nat) : (c.patchDone id i).m.lm = c.m.lm := rfl
theorem Core.lm_foldl {β : Type} {f : Core → β → Core} (hf : ∀ c b, (f c b).m.lm = c.m.lm) (l : List β) (c : Core) :
    (l.foldl f c).m.lm = c.m.lm := by
  induction l generalizing c with
  | nil => rfl
  | cons b r ih => exact (ih _).trans (hf c b)
@[simp] theorem Core.vacated_lm (c : Core) (idx : Nat) (a : Actor) : (c.vacated idx a).m.lm = c.m.lm := by
  have h1 := Core.lm_foldl (f := fun c k => c.setCtx k (c.ctx k).emptied) (fun _ _ => rfl) (c.ctxsOf idx) c
  have h2 := Core.lm_foldl (f := fun c k => c.setStream k (c.stream k).shut) (fun _ _ => rfl) a.ownSlots
    ((c.ctxsOf idx).foldl (fun c k => c.setCtx k (c.ctx k).emptied) c)
  unfold Core.vacated
  dsimp only [Core.setActor]
  split <;> exact h2.trans h1
@[simp] theorem Core.loseEntries_lm (c : Core) (idx : Nat) : (c.loseEntries idx).m.lm = c.m.lm := by
  unfold Core.loseEntries
  exact Core.lm_foldl (by intros; rfl) _ _

/-- A change of every listed core that leaves its key and its LM leaves the LM of every core. -/
theorem lm_tget_map {f : Nat × Core → Nat × Core} (hk : ∀ e, (f e).1 = e.1) (hf : ∀ e, (f e).2.m.lm = e.2.m.lm) (cs : Tab Core) (n : Nat) :
    (tget .reset (cs.map f) n).m.lm = (tget .reset cs n).m.lm := by
  induction cs with
  | nil => rfl
  | cons e r ih =>
    simp only [List.map_cons, tget, hk]
    split
    · exact hf e
    · exact ih
theorem lm_triggerWatch (gr : Nat) (cs : Tab Core) (n : Nat) : (tget .reset (triggerWatch gr cs) n).m.lm = (tget .reset cs n).m.lm :=
  lm_tget_map (fun ⟨_, _⟩ => by dsimp only; split <;> rfl) (fun ⟨_, _⟩ => by dsimp only; split <;> rfl) cs n
theorem lm_loseWatch (lines : List Nat) (cs : Tab Core) (n : Nat) : (tget .reset (loseWatch lines cs) n).m.lm = (tget .reset cs n).m.lm := by
  unfold loseWatch
  split
  · rfl
  · exact lm_tget_map (fun ⟨_, _⟩ => rfl) (fun ⟨_, _⟩ => rfl) cs n

/-! ## Operations on one memory -/

theorem Memory.wf_foldl {β : Type} {f : Mem → β → Mem} (hf : ∀ m b, Memory.wf m = true → Memory.wf (f m b) = true) (l : List β) {m : Mem}
    (h : Memory.wf m = true) : Memory.wf (l.foldl f m) = true := by
  induction l generalizing m with
  | nil => exact h
  | cons b r ih => exact ih (hf m b h)
theorem Memory.wf_reseal (old : Mem) {m : Mem} (l : List Nat) (h : Memory.wf m = true) : Memory.wf (old.reseal m l) = true :=
  Memory.wf_foldl (fun m _ hm => Memory.wf_setSeal m _ _ hm) l h
theorem Memory.wf_addField {m : Mem} (a lo w c : Nat) (h : Memory.wf m = true) : Memory.wf (m.addField a lo w c) = true :=
  Memory.wf_reseal m _ (Memory.wf_foldl (fun m _ hm => Memory.wf_setByte m _ _ hm) _ h)
theorem Memory.wf_relocate {m : Mem} (c win : Nat) (l : List Word) (h : Memory.wf m = true) : Memory.wf (m.relocate c win l) = true := by
  induction l generalizing m with
  | nil => exact h
  | cons x r ih =>
    refine ih ?_
    split
    · exact Memory.wf_addField _ _ _ _ h
    · exact Memory.wf_addField _ _ _ _ h
    · exact Memory.wf_addField _ _ _ _ h
theorem Memory.wf_copyIn {m : Mem} (a n : Nat) (l : List (Word × Byte)) (h : Memory.wf m = true) : Memory.wf (m.copyIn a n l) = true := by
  have h1 := Memory.wf_setGrans (l.take (n / 8)) m (a / 8) h
  unfold Mem.copyIn
  dsimp only
  split
  · exact h1
  · exact Memory.wf_setGran _ _ _ _ h1

/-! ## The rules of the monad -/

/-- The state that an operation leaves, where it leaves one, has canonical memory. -/
def LeftOk {α : Type} : Except Stop (α × State) → Prop
  | .ok (_, t) => t.memoryOk
  | .error (.wait (some t)) => t.memoryOk
  | .error _ => True

/-- An operation keeps memory canonical. -/
def Keeps {α : Type} (m : M α) : Prop := ∀ s, s.memoryOk → LeftOk (m s)

section
variable {α β : Type}

@[simp] theorem leftOk_ok (a : α) (t : State) : LeftOk (.ok (a, t)) ↔ t.memoryOk := Iff.rfl
@[simp] theorem leftOk_trapM (c : Nat) (i j : Word) (s : State) : LeftOk (trapM c i j s : Except Stop (α × State)) := trivial
@[simp] theorem leftOk_waitM (s : State) : LeftOk (waitM s : Except Stop (α × State)) := trivial
@[simp] theorem leftOk_ite {c : Prop} [Decidable c] {x y : Except Stop (α × State)} :
    LeftOk (if c then x else y) ↔ (c → LeftOk x) ∧ (¬ c → LeftOk y) := by
  split <;> simp [*]

@[simp] theorem keeps_pure (a : α) : Keeps (pure a) := fun _ h => h
@[simp] theorem keeps_set {t : State} : Keeps (set t) ↔ t.memoryOk := ⟨fun h => h _ memoryCanonicalAtReset, fun h _ _ => h⟩
@[simp] theorem keeps_modify {f : State → State} : Keeps (modify f) ↔ ∀ s, s.memoryOk → (f s).memoryOk := Iff.rfl
@[simp] theorem keeps_trapM (c : Nat) (i j : Word) : Keeps (trapM c i j : M α) := fun _ _ => trivial
@[simp] theorem keeps_waitM : Keeps (waitM : M α) := fun _ _ => trivial
@[simp] theorem keeps_waitWith {t : State} : Keeps (waitWith t : M α) ↔ t.memoryOk := ⟨fun h => h _ memoryCanonicalAtReset, fun h _ _ => h⟩
@[simp] theorem keeps_ite {c : Prop} [Decidable c] {m n : M α} : Keeps (if c then m else n) ↔ (c → Keeps m) ∧ (¬ c → Keeps n) := by
  split <;> simp [*]
theorem Keeps.bind {m : M α} {f : α → M β} (hm : Keeps m) (hf : ∀ a, Keeps (f a)) : Keeps (m >>= f) := by
  intro s hs
  have hl := hm s hs
  cases e : m s with
  | ok p =>
    rw [bind_ok e]
    rw [e] at hl
    exact hf p.1 p.2 hl
  | error x =>
    rw [bind_error e]
    rw [e] at hl
    match x, hl with
    | .wait (some _), hl => exact hl
    | .wait none, _ => trivial
    | .trap .., _ => trivial
    | .refuse _, _ => trivial
/-- What follows a read of the state may use that the memory of that state is canonical. -/
theorem Keeps.get_bind {f : State → M β} (hf : ∀ s, s.memoryOk → Keeps (f s)) : Keeps (get >>= f) := fun s hs => hf s hs s hs
/-- What follows a value that an option holds may use that it does. -/
theorem Keeps.needSome_bind {o : Option α} {f : α → M β} (hf : ∀ a, o = some a → Keeps (f a)) : Keeps (needSome o >>= f) := by
  cases o with
  | none => exact fun _ _ => trivial
  | some a => exact hf a rfl
theorem Keeps.ok_of_eq {m : M α} (hm : Keeps m) {s t : State} {a : α} (hs : s.memoryOk) (e : m s = .ok (a, t)) : t.memoryOk := by
  have hl := hm s hs
  rwa [e] at hl

@[simp] theorem keeps_waitUntil (b : Bool) : Keeps (waitUntil b) := by simp [waitUntil]
@[simp] theorem keeps_need (b : Bool) : Keeps (need b) := by
  cases b with
  | false => exact fun _ _ => trivial
  | true => exact fun _ h => h
@[simp] theorem keeps_orTrap (b : Bool) (c : Nat) (i j : Word) : Keeps (orTrap b c i j) := by simp [orTrap]

/-- The rules of the monad applied along a do block, the lemma of each operation in it at its leaf: `exact .steps` closes `Keeps` of a block whose
parts all have lemmas.  A lemma in place of a tactic.  `-implicitDefEqProofs` has simp keep the proofs by rfl that close the side condition of
`State.memoryOk_upCore`. -/
theorem Keeps.steps {m : M α} (h : Keeps m := by
    repeat' first
      | with_reducible refine Keeps.get_bind fun _ _ => ?_
      | with_reducible refine Keeps.needSome_bind fun _ _ => ?_
      | with_reducible refine Keeps.bind ?_ fun _ => ?_
      | with_reducible refine keeps_modify.2 fun _ _ => ?_
      | with_reducible refine keeps_ite.2 ⟨fun _ => ?_, fun _ => ?_⟩
      | (simp -implicitDefEqProofs [↓keeps_set, ↓keeps_waitWith, ↓memoryOk_mk, ↓memoryOk_mk_home, *]; done)
      | dsimp only
      | split) : Keeps m := h

end

/-! ## Outcomes -/

/-- The next state of a step, where it gives one, has canonical memory. -/
def NextOk : Host.Outcome State Fault Refusal → Prop
  | .next t => t.memoryOk
  | _ => True

@[simp] theorem nextOk_next {t : State} : NextOk (.next t) ↔ t.memoryOk := Iff.rfl
@[simp] theorem nextOk_ite {c : Prop} [Decidable c] {x y : Host.Outcome State Fault Refusal} :
    NextOk (if c then x else y) ↔ (c → NextOk x) ∧ (¬ c → NextOk y) := by
  split <;> simp [*]

/-! ## Operations of the acting context -/

@[simp] theorem State.memoryOk_upCluster {s : State} (n : Nat) (f : Cluster → Cluster) : (s.upCluster n f).memoryOk ↔ s.memoryOk := Iff.rfl
@[simp] theorem State.memoryOk_upPart {s : State} (n : Nat) (f : Partition → Partition) : (s.upPart n f).memoryOk ↔ s.memoryOk := Iff.rfl
@[simp] theorem State.memoryOk_setAct {s : State} (a : Actor) : (s.setAct a).memoryOk ↔ s.memoryOk := by simp -implicitDefEqProofs [State.setAct]
@[simp] theorem State.memoryOk_upAct {s : State} (f : Actor → Actor) : (s.upAct f).memoryOk ↔ s.memoryOk := by
  unfold State.upAct
  split <;> simp
@[simp] theorem keeps_freshId : Keeps freshId := fun _ h => h
@[simp] theorem nextOk_runEvent {s : State} {m : M Unit} (h : s.memoryOk) (hm : Keeps m) : NextOk (runEvent s m) := by
  have hl := hm s h
  unfold runEvent
  split
  · next t e => rw [e] at hl; exact hl
  · trivial
@[simp] theorem keeps_drawM : Keeps drawM := fun _ h => h
@[simp] theorem State.memoryOk_sequel {s : State} (p q : Word) : (s.sequel p q).memoryOk ↔ s.memoryOk := by simp [State.sequel]
@[simp] theorem State.memoryOk_retired {s : State} (len : Nat) : (s.retired len).memoryOk ↔ s.memoryOk := by simp [State.retired]
@[simp] theorem State.memoryOk_jumped {s : State} (target : Word) : (s.jumped target).memoryOk ↔ s.memoryOk := by simp [State.jumped]
@[simp] theorem State.memoryOk_called {s : State} (target : Word) : (s.called target).memoryOk ↔ s.memoryOk := by simp [State.called]
@[simp] theorem keeps_retire (len : Nat) : Keeps (retire len) := by simp [retire]
@[simp] theorem State.memoryOk_endFiring {s : State} : s.endFiring.memoryOk ↔ s.memoryOk := by
  unfold State.endFiring
  split
  · simp -implicitDefEqProofs [CoreMem.ended]
  · next f _ =>
    refine (State.memoryOk_upC ?_).trans (by simp -implicitDefEqProofs [CoreMem.ended])
    split <;> rfl
@[simp] theorem memoryOk_takeTrap {s : State} (code : Nat) (i0 i1 tpc : Word) : (takeTrap s code i0 i1 tpc).memoryOk ↔ s.memoryOk := by
  unfold takeTrap
  split <;> simp [↓memoryOk_mk]
@[simp] theorem State.memoryOk_resumed {s : State} : (s.resumed).memoryOk ↔ s.memoryOk := by simp [State.resumed]
@[simp] theorem nextOk_finish {s : State} {m : M Unit} (h : s.memoryOk) (hm : Keeps m) : NextOk (finish s m) := by
  have hl := hm s h
  unfold finish
  split
  · next t e => rw [e] at hl; exact hl
  · simp [h]
  · next t e =>
    rw [e] at hl
    cases t with
    | none => exact h
    | some t => exact hl
  · trivial
@[simp] theorem keeps_lmFaults (a : Word) (n align : Nat) (i : Acc) : Keeps (lmFaults a n align i) := by
  intro s h
  unfold lmFaults
  repeat' split
  all_goals simp [h]
@[simp] theorem keeps_landedFirst (a n : Nat) : Keeps (landedFirst a n) := by
  intro s h
  unfold landedFirst
  repeat' split
  all_goals simp [h]
@[simp] theorem State.memoryOk.setLm {s : State} (h : s.memoryOk) (gr : Nat) (w : Word) (sl : Byte) : (s.setLm gr w sl).memoryOk :=
  h.upM (Memory.wf_setGran _ gr w sl)
@[simp] theorem State.memoryOk.setLms {s : State} (h : s.memoryOk) (gr : Nat) (l : List (Word × Byte)) : (s.setLms gr l).memoryOk :=
  h.upM (Memory.wf_setGrans l _ gr)
@[simp] theorem keeps_check (w : Word) (sl : Byte) (src pr a : Nat) : Keeps (check w sl src pr a) := by
  intro s h
  unfold check
  simp [h]
@[simp] theorem keeps_checkLm (gr : Nat) : Keeps (checkLm gr) := fun s h => keeps_check _ _ _ _ _ s h
@[simp] theorem keeps_issue (l : Nat) (compact : Bool) (rd : List RegId) : Keeps (issue l compact rd) := by
  intro s h
  simp only [issue]
  split
  · simp
  · split <;> simp [h]
@[simp] theorem keeps_issueLanes (l : Nat) (compact : Bool) (k : Nat) (rd : (Nat → Bool) → List RegId) : Keeps (issueLanes l compact k rd) :=
  fun s h => keeps_issue _ _ _ s h
@[simp] theorem keeps_readG {n : Nat} (r : Regs) (i : BitVec n) : Keeps (readG r i) := by
  unfold readG
  exact .steps
@[simp] theorem keeps_checkPairs (w : Vec) (sl : VSeals) (n : Nat) (l : List Nat) : Keeps (checkPairs w sl n l) := by
  induction l generalizing w sl n with
  | nil => simp [checkPairs]
  | cons e r ih =>
    unfold checkPairs
    exact .steps
@[simp] theorem keeps_readV {n : Nat} (r : Regs) (i : BitVec n) (ps : List Nat) : Keeps (readV r i ps) := by
  unfold readV
  exact .steps
@[simp] theorem keeps_writeGs {n : Nat} (lat : Nat) (d : BitVec n) (w : Word) (sl : Byte) : Keeps (writeGs lat d w sl) := by simp [writeGs]
@[simp] theorem keeps_writeG {n : Nat} (lat : Nat) (d : BitVec n) (w : Word) : Keeps (writeG lat d w) := by simp [writeG]
@[simp] theorem keeps_writeVarGs {n : Nat} (d : BitVec n) (w : Word) (sl : Byte) : Keeps (writeVarGs d w sl) := by simp [writeVarGs]
@[simp] theorem keeps_writeVarG {n : Nat} (d : BitVec n) (w : Word) : Keeps (writeVarG d w) := by simp [writeVarG]
@[simp] theorem keeps_writeLate (i : RegId) (w : Vec) (sl : VSeals) : Keeps (writeLate i w sl) := by
  unfold writeLate
  exact .steps
@[simp] theorem keeps_writeV {n : Nat} (lat : Nat) (d : BitVec n) (w : Vec) (sl : VSeals) : Keeps (writeV lat d w sl) := by simp [writeV]
@[simp] theorem keeps_writeVarV {n : Nat} (d : BitVec n) (w : Vec) (sl : VSeals) : Keeps (writeVarV d w sl) := by simp [writeVarV]
@[simp] theorem keeps_writeK {n : Nat} (lat : Nat) (d : BitVec n) (w : Mask) : Keeps (writeK lat d w) := by simp [writeK]
@[simp] theorem keeps_raise (f : BitVec 6) : Keeps (raise f) := by simp [raise]

/-! ## Home memory and the caches -/

@[simp] theorem State.memoryOk_noteSlot {s : State} (part : Nat) (x : Xlat) : (s.noteSlot part x).memoryOk ↔ s.memoryOk := Iff.rfl
theorem State.memoryOk_walkers {s : State} (n part va : Nat) : (s.walkers n part va).2.memoryOk ↔ s.memoryOk := by
  unfold State.walkers
  split
  · rfl
  · split
    · rfl
    · dsimp only
      split <;> rfl
@[simp] theorem State.memoryOk_translate {s : State} (n part va : Nat) : (s.translate n part va).2.memoryOk ↔ s.memoryOk := by
  unfold State.translate
  split
  · simp
  · have hw := (s.upCore n (·.count 7 1)).memoryOk_walkers n part va
    rw [State.memoryOk_upCore rfl] at hw
    split
    · next e => rw [e] at hw; exact hw
    · next t u e =>
      rw [e] at hw
      exact (State.memoryOk_upCore (s := u) (n := n) (f := fun c => { c with m := { c.m with tlb := fillTlb 32 u.draws t c.m.tlb } }) rfl).trans hw
theorem State.memoryOk.translate {s t : State} (h : s.memoryOk) {n part va : Nat} {r : Except Nat Xlat} (e : s.translate n part va = (r, t)) :
    t.memoryOk := by
  have ht := (s.memoryOk_translate n part va).2 h
  rwa [e] at ht
@[simp] theorem keeps_xlate (va : Word) (write : Bool) (i : Acc) : Keeps (xlate va write i) := by
  intro s h
  have ht := (s.memoryOk_translate s.cur s.c.partNo va.toNat).2 h
  unfold xlate
  split
  · simp
  · split
    · simp
    · simp
    · next e =>
      rw [e] at ht
      split
      · simp
      · exact ht
@[simp] theorem State.memoryOk.homePut {s : State} (h : s.memoryOk) (gr : Nat) (w : Word) (sl : Byte) : (s.homePut gr w sl).memoryOk := by
  unfold State.homePut
  split
  · exact h
  · refine ⟨?_, fun n => (congrArg _ (lm_triggerWatch gr s.cores n)).trans (h.2 n)⟩
    refine Memory.wf_setGran _ gr w sl ?_
    split
    · exact Memory.wf_zero _ _ _ h.1
    · exact h.1
@[simp] theorem State.memoryOk_evictHome {s : State} (lines : List Nat) : (s.evictHome lines).memoryOk ↔ s.memoryOk :=
  State.memoryOk_congr rfl (lm_loseWatch _ s.cores)
@[simp] theorem State.memoryOk_bring {s : State} (gr : Nat) : (s.bring gr).memoryOk ↔ s.memoryOk := by
  unfold State.bring
  dsimp only
  repeat' split
  all_goals simp -implicitDefEqProofs [↓memoryOk_mk, ↓memoryOk_mk_home]
@[simp] theorem State.memoryOk_visit {s : State} (gr : Nat) :
    (s.visit gr).memoryOk ↔ s.memoryOk := by simp -implicitDefEqProofs [State.visit, ↓memoryOk_mk_home]
@[simp] theorem State.memoryOk_sendHw {s : State} (kind : MsgKind) (part : Nat) (dst : BitVec 32) (type flags tc : Nat)
    (payload : List (Word × Byte)) (weight : Nat) :
    (s.sendHw kind part dst type flags tc payload weight).memoryOk ↔ s.memoryOk := Iff.rfl
@[simp] theorem State.memoryOk_sealFault {s : State} (part : Nat) (addr : BitVec 32) (unit core : Nat) (y : Byte) (va : Word) (recv : Nat) :
    (s.sealFault part addr unit core y va recv).memoryOk ↔ s.memoryOk := Iff.rfl
@[simp] theorem State.memoryOk.homeMerge {s : State} (h : s.memoryOk) (w : GWrite) (part : Nat) (addr : BitVec 32) (va : Word) :
    (s.homeMerge w part addr va).memoryOk := by simp [State.homeMerge, h]
@[simp] theorem State.memoryOk.homeLine {s : State} (h : s.memoryOk) (g : Nat) (l : Line) : (s.homeLine g l).memoryOk := by simp [State.homeLine, h]
@[simp] theorem State.memoryOk.homeLines {s : State} (h : s.memoryOk) (l : List (Nat × Line)) : (s.homeLines l).memoryOk := by
  induction l generalizing s with
  | nil => exact h
  | cons e r ih => simp [State.homeLines, ih, h]
@[simp] theorem State.memoryOk.cleanCluster {s : State} (h : s.memoryOk) (k : Nat) (p : Nat → Bool) :
    (s.cleanCluster k p).memoryOk := by simp [State.cleanCluster, h]
@[simp] theorem State.memoryOk_dropCluster {s : State} (k : Nat) (p : Nat → Bool) : (s.dropCluster k p).memoryOk ↔ s.memoryOk := Iff.rfl
@[simp] theorem State.memoryOk.roomCluster {s : State} (h : s.memoryOk) (k gr : Nat) :
    (s.roomCluster k gr).memoryOk := by simp [State.roomCluster, h, ↓memoryOk_mk]
@[simp] theorem State.memoryOk.clusterPut {s : State} (h : s.memoryOk) (k gr : Nat) (l : Line) :
    (s.clusterPut k gr l).memoryOk := by simp [State.clusterPut, h]
@[simp] theorem State.memoryOk.fillCluster {s : State} (h : s.memoryOk) (k part : Nat) (l : List Nat) : (s.fillCluster k part l).memoryOk := by
  induction l generalizing s k part with
  | nil => exact h
  | cons e r ih => simp [State.fillCluster, ih, h]
@[simp] theorem State.memoryOk.dropCopies {s : State} (h : s.memoryOk) (n : Nat) (grs : List Nat) :
    (s.dropCopies n grs).memoryOk := by simp [State.dropCopies, h]
@[simp] theorem State.memoryOk.writeBackTo {s : State} (h : s.memoryOk) (n : Nat) (l : List (Nat × Line)) : (s.writeBackTo n l).memoryOk := by
  induction l generalizing s n with
  | nil => exact h
  | cons e r ih => simp [State.writeBackTo, ih, h]
@[simp] theorem State.memoryOk.cleanCore {s : State} (h : s.memoryOk) (n : Nat) (p : Nat → Bool) :
    (s.cleanCore n p).memoryOk := by simp [State.cleanCore, h]
@[simp] theorem State.memoryOk_dropCore {s : State} (n : Nat) (p : Nat → Bool) : (s.dropCore n p).memoryOk ↔ s.memoryOk := by simp [State.dropCore]
@[simp] theorem State.memoryOk.roomCore {s : State} (h : s.memoryOk) (n way gr : Nat) : (s.roomCore n way gr).memoryOk := by simp [State.roomCore, h]
@[simp] theorem State.memoryOk.applyCore {s : State} (h : s.memoryOk) (n : Nat) (t : Sig) : (s.applyCore n t).memoryOk := by simp [State.applyCore, h]
@[simp] theorem State.memoryOk.applyCluster {s : State} (h : s.memoryOk) (k : Nat) (t : Sig) :
    (s.applyCluster k t).memoryOk := by simp [State.applyCluster, h]
@[simp] theorem State.memoryOk_noteWrites {s : State} (n : Nat) (grs : List Nat) :
    (s.noteWrites n grs).memoryOk ↔ s.memoryOk := by simp [State.noteWrites]
@[simp] theorem State.memoryOk_mergeSig {s : State} (atHome : Bool) (k gr : Nat) (g : Sig) : (s.mergeSig atHome k gr g).memoryOk ↔ s.memoryOk := by
  unfold State.mergeSig
  repeat' split
  all_goals simp -implicitDefEqProofs [↓memoryOk_mk_home]
@[simp] theorem State.memoryOk_faultEach {s : State} (part : Nat) (addr : BitVec 32) (u core gr : Nat) (recv : BitVec 32) (l : List Byte) :
    (s.faultEach part addr u core gr recv l).memoryOk ↔ s.memoryOk := by
  induction l generalizing s part addr u core gr recv with
  | nil => rfl
  | cons e r ih => simp [State.faultEach, ih]

/-! ## Landing messages -/

@[simp] theorem State.memoryOk_upActor {s : State} (n i : Nat) (f : Actor → Actor) : (s.upActor n i f).memoryOk ↔ s.memoryOk := by
  refine State.memoryOk_upCore ?_
  split <;> rfl
@[simp] theorem State.memoryOk_upMb {s : State} (n i m : Nat) (f : Mailbox → Mailbox) : (s.upMb n i m f).memoryOk ↔ s.memoryOk := by simp [State.upMb]
@[simp] theorem State.memoryOk.landLm {s : State} (h : s.memoryOk) (n gr : Nat) (l : List (Word × Byte)) : (s.landLm n gr l).memoryOk :=
  h.upCore n (Memory.wf_setGrans l _ gr)
@[simp] theorem State.memoryOk.putHeaders {s : State} (h : s.memoryOk) (core : Nat) (b : Mailbox) (hd : BitVec 128) (i n : Nat) :
    (s.putHeaders core b hd i n).memoryOk := by
  induction n generalizing s i with
  | zero => exact h
  | succ n ih => exact ih (h.landLm ..) _
@[simp] theorem State.memoryOk.landAt {s : State} (h : s.memoryOk) (core idx mb : Nat) (m : Msg) (i span : Nat) (claim : Option Nat) :
    (s.landAt core idx mb m i span claim).memoryOk := by
  unfold State.landAt
  split
  · exact h
  · next a _ =>
    have hp (f : Actor → Actor) (b : Mailbox) (hd : BitVec 128) (n : Nat) : ((s.upActor core idx f).putHeaders core b hd i n).memoryOk :=
      ((State.memoryOk_upActor core idx f).2 h).putHeaders ..
    refine (State.memoryOk_faultEach ..).2 ?_
    split
    · exact (hp ..).landLm ..
    · exact hp ..
@[simp] theorem State.memoryOk.combine {s : State} (h : s.memoryOk) (core idx mb part : Nat) (sender : BitVec 32) (pay : List (Word × Byte)) :
    (s.combine core idx mb part sender pay).memoryOk := by
  unfold State.combine
  repeat' split
  all_goals simp [h]
@[simp] theorem State.memoryOk_countIn {s : State} (core idx mb : Nat) (m : Msg) :
    (s.countIn core idx mb m).memoryOk ↔ s.memoryOk := by simp [State.countIn]
@[simp] theorem State.memoryOk.cascade {s : State} (h : s.memoryOk) (core idx mb n : Nat) : (s.cascade core idx mb n).memoryOk := by
  induction n generalizing s with
  | zero => exact h
  | succ n ih =>
    unfold State.cascade
    split
    · exact h
    · dsimp only
      split
      · exact h
      · split
        · exact h
        · split
          · exact h
          · exact ih ((State.memoryOk_upMb ..).2 (h.combine ..))
@[simp] theorem State.memoryOk.tileDone {s : State} (h : s.memoryOk) (core idx mb i : Nat) : (s.tileDone core idx mb i).memoryOk := by
  unfold State.tileDone
  split
  · exact h
  · have hl (f : Actor → Actor) (gr : Nat) (l : List (Word × Byte)) : ((s.upActor core idx f).landLm core gr l).memoryOk :=
      ((State.memoryOk_upActor ..).2 h).landLm ..
    dsimp only
    split
    · exact (State.memoryOk_upMb ..).2 h
    · split
      · exact (State.memoryOk_upMb ..).2 h
      · split
        · exact (hl ..).cascade ..
        · exact hl ..
@[simp] theorem State.memoryOk_fetchTiles {s : State} (core idx mb : Nat) (recv : BitVec 32) (m : Msg) :
    (s.fetchTiles core idx mb recv m).memoryOk ↔ s.memoryOk := by simp [State.fetchTiles, ↓memoryOk_mk]
@[simp] theorem State.memoryOk.accept {s : State} (h : s.memoryOk) (core idx mb : Nat) (m : Msg) (f : Fit) : (s.accept core idx mb m f).memoryOk := by
  have hc : (s.countIn core idx mb m).memoryOk := (State.memoryOk_countIn ..).2 h
  unfold State.accept
  split
  · exact h
  · dsimp only
    split
    · refine State.memoryOk.landAt ?_ ..
      split
      · exact hc
      · exact h
    · exact (State.memoryOk_fetchTiles ..).2 (((State.memoryOk_faultEach ..).2 (hc.combine ..)).cascade ..)
    · exact h
theorem State.memoryOk.landReply {s t : State} (h : s.memoryOk) {core idx tag : Nat} {m : Msg} (e : s.landReply core idx tag m = .ok t) :
    t.memoryOk := by
  unfold State.landReply at e
  split at e
  · cases e
  · dsimp only at e
    split at e
    · cases e
    · split at e
      · cases e
      · cases e
      · cases e
        exact (State.memoryOk_faultEach ..).2 ((State.memoryOk_upActor ..).2 (h.landLm ..))
      · cases e
        exact ((State.memoryOk_upActor ..).2 h).landAt ..
@[simp] theorem State.memoryOk_typeReject {s : State} (m : Msg) (reason : Nat) : (s.typeReject m reason).memoryOk ↔ s.memoryOk := Iff.rfl

/-! ## Launch queues -/

@[simp] theorem State.memoryOk.distWrite {s : State} (h : s.memoryOk) (part va : Nat) (w : Word) (sl : Byte) :
    (s.distWrite part va w sl).memoryOk := by
  unfold State.distWrite
  split <;> simp [h]
@[simp] theorem State.memoryOk.distWrites {s : State} (h : s.memoryOk) (part va : Nat) (l : List (Word × Byte)) :
    (s.distWrites part va l).memoryOk := by
  induction l generalizing s part va with
  | nil => exact h
  | cons e r ih => simp [State.distWrites, ih, h]
@[simp] theorem State.memoryOk_upQueue {s : State} (part q : Nat) (f : Queue → Queue) : (s.upQueue part q f).memoryOk ↔ s.memoryOk := Iff.rfl
@[simp] theorem State.memoryOk.setCtl {s : State} (h : s.memoryOk) (part q off v : Nat) :
    (s.setCtl part q off v).memoryOk := by simp [State.setCtl, h]
theorem State.memoryOk.qTake {s t : State} (h : s.memoryOk) {part q i : Nat} (e : s.qTake part q = some (i, t)) : t.memoryOk := by
  simp only [State.qTake] at e
  split at e
  · cases e
  · cases e
    exact h.setCtl ..
@[simp] theorem State.memoryOk_qCommit {s : State} (part q i : Nat) : (s.qCommit part q i).memoryOk ↔ s.memoryOk := by
  unfold State.qCommit
  dsimp only
  repeat' split
  all_goals simp
theorem State.memoryOk.qAppend {s t : State} (h : s.memoryOk) {part q : Nat} {l : List (Word × Byte)} (e : s.qAppend part q l = some t) :
    t.memoryOk := by
  unfold State.qAppend at e
  split at e
  · cases e
  · next hq =>
    cases e
    exact (State.memoryOk_qCommit ..).2 ((h.qTake hq).distWrites ..)

/-! ## Local memory instructions -/

@[simp] theorem nextOk_loadLocal {s : State} (h : s.memoryOk) (len n : Nat) (signed : Bool) (o : BitVec 8) (a d : BitVec 5) (l : BitVec 3) :
    NextOk (loadLocal len n signed o a d l s) := nextOk_finish h .steps
@[simp] theorem nextOk_storeLocal {s : State} (h : s.memoryOk) (len n : Nat) (o : BitVec 8) (a d : BitVec 5) (l : BitVec 3) :
    NextOk (storeLocal len n o a d l s) := nextOk_finish h .steps
@[simp] theorem keeps_laneFaults (base : Word) (off : Vec) (kind : Nat) (l : List Nat) : Keeps (laneFaults base off kind l) := by
  induction l generalizing base off kind with
  | nil => simp [laneFaults]
  | cons e r ih =>
    unfold laneFaults
    exact .steps
@[simp] theorem keeps_gatherBase (base : Word) (kind : Nat) : Keeps (gatherBase base kind) := by simp [gatherBase]
@[simp] theorem keeps_lanesLanded (base : Word) (off : Vec) (l : List Nat) : Keeps (lanesLanded base off l) := by
  induction l generalizing base off with
  | nil => simp [lanesLanded]
  | cons e r ih =>
    unfold lanesLanded
    exact .steps
@[simp] theorem keeps_checkOlds (l : List Nat) : Keeps (checkOlds l) := by
  induction l with
  | nil => simp [checkOlds]
  | cons e r ih =>
    unfold checkOlds
    exact .steps
@[simp] theorem State.memoryOk.scatter {s : State} (h : s.memoryOk) (base : Word) (off data : Vec) (l : List Nat) :
    (s.scatter base off data l).memoryOk := by
  induction l generalizing s base off data with
  | nil => exact h
  | cons e r ih => simp [State.scatter, ih, h]
@[simp] theorem nextOk_execVldl {s : State} (h : s.memoryOk) (o : BitVec 8) (a d : BitVec 5) (l : BitVec 3) :
    NextOk (execVldl o a d l s) := nextOk_finish h .steps
@[simp] theorem nextOk_execVstl {s : State} (h : s.memoryOk) (o : BitVec 8) (a d : BitVec 5) (l : BitVec 3) :
    NextOk (execVstl o a d l s) := nextOk_finish h .steps
@[simp] theorem nextOk_execVbcl {s : State} (h : s.memoryOk) (o : BitVec 8) (a d : BitVec 5) (l : BitVec 3) :
    NextOk (execVbcl o a d l s) := nextOk_finish h .steps
@[simp] theorem nextOk_execVgatl {s : State} (h : s.memoryOk) (o : BitVec 8) (a d : BitVec 5) (l : BitVec 3) :
    NextOk (execVgatl o a d l s) := nextOk_finish h .steps
@[simp] theorem nextOk_execVscatl {s : State} (h : s.memoryOk) (o : BitVec 8) (a d : BitVec 5) (l : BitVec 3) :
    NextOk (execVscatl o a d l s) := nextOk_finish h .steps

/-! ## Stream operations -/

@[simp] theorem State.memoryOk_upStream {s : State} (n k : Nat) (f : Stream → Stream) : (s.upStream n k f).memoryOk ↔ s.memoryOk :=
  State.memoryOk_upCore rfl
@[simp] theorem State.memoryOk_streamEvent {s : State} (n k : Nat) (ev : BitVec 3) : (s.streamEvent n k ev).memoryOk ↔ s.memoryOk := by
  unfold State.streamEvent
  dsimp only
  repeat' split
  all_goals simp
@[simp] theorem State.memoryOk_moveStream {s : State} (n k : Nat) (loc : BitVec 2) (id : Nat) (reason : BitVec 2) (ev : BitVec 3) :
    (s.moveStream n k loc id reason ev).memoryOk ↔ s.memoryOk := by simp -implicitDefEqProofs [State.moveStream]
@[simp] theorem State.memoryOk_progress {s : State} (n k : Nat) (f : Stream → Stream) : (s.progress n k f).memoryOk ↔ s.memoryOk := by
  unfold State.progress
  dsimp only
  repeat' split
  all_goals simp
@[simp] theorem State.memoryOk_discardAhead {s : State} (n k : Nat) : (s.discardAhead n k).memoryOk ↔ s.memoryOk := by
  unfold State.discardAhead
  dsimp only
  repeat' split
  all_goals simp
@[simp] theorem State.memoryOk_recallAs {s : State} (n k : Nat) (ev : BitVec 3) :
    (s.recallAs n k ev).memoryOk ↔ s.memoryOk := by simp [State.recallAs]
@[simp] theorem State.memoryOk_recall {s : State} (n k : Nat) : (s.recall n k).memoryOk ↔ s.memoryOk := by simp [State.recall]
@[simp] theorem State.memoryOk_patchFaults {s : State} (n : Nat) (e : StoreEntry) (l : List Byte) :
    (s.patchFaults n e l).memoryOk ↔ s.memoryOk := by simp [State.patchFaults]
@[simp] theorem State.memoryOk_patchBufs {s : State} (n : Nat) (e : StoreEntry) (l : List (Nat × Nat)) :
    (s.patchBufs n e l).memoryOk ↔ s.memoryOk := by
  induction l generalizing s n e with
  | nil => rfl
  | cons e r ih => simp [State.patchBufs, ih]

/-! ## Global memory instructions and events -/

@[simp] theorem keeps_issueFar (kind : FarKind) (va : Word) (x : Xlat) (n : Nat) (direct hd : Bool) (writes : List GWrite) :
    Keeps (issueFar kind va x n direct hd writes) := by
  unfold issueFar
  exact .steps
@[simp] theorem State.memoryOk_waiting {s : State} (grs : List Nat) : (s.waiting grs).memoryOk ↔ s.memoryOk := by
  unfold State.waiting
  dsimp only
  repeat' split
  all_goals simp
@[simp] theorem keeps_holdUntil {s : State} (h : s.memoryOk) (b : Bool) (grs : List Nat) : Keeps (holdUntil s b grs) := by
  unfold holdUntil
  exact .steps
@[simp] theorem nextOk_loadGlobal {s : State} (h : s.memoryOk) (n : Nat) (i : RegId) (o : BitVec 8) (a : BitVec 5) (l : BitVec 3) :
    NextOk (loadGlobal n i o a l s) := nextOk_finish h .steps
@[simp] theorem nextOk_storeGlobal {s : State} (h : s.memoryOk) (n : Nat) (i : RegId) (o : BitVec 8) (a : BitVec 5) (l : BitVec 3) :
    NextOk (storeGlobal n i o a l s) := nextOk_finish h .steps
@[simp] theorem nextOk_execFreq {s : State} (h : s.memoryOk) (o : BitVec 8) (a d : BitVec 5) (l : BitVec 3) :
    NextOk (execFreq o a d l s) := nextOk_finish h .steps
@[simp] theorem nextOk_execPfg {s : State} (h : s.memoryOk) (o : BitVec 8) (a : BitVec 5) (d : Bool) (l : BitVec 3) : NextOk (execPfg o a d l s) := by
  refine nextOk_finish h (Keeps.bind (keeps_issue _ _ _) fun r => Keeps.get_bind fun t ht => keeps_ite.2 ⟨fun _ => ?_, fun _ => .steps⟩)
  split
  · next e =>
    have hu := ht.translate e
    exact .steps
  · next e =>
    have hu := ht.translate e
    exact .steps
@[simp] theorem State.memoryOk.maintain {s : State} (h : s.memoryOk) (va len : Nat) (wb inv flush : Bool) :
    (s.maintain va len wb inv flush).memoryOk := by simp [State.maintain, h]
@[simp] theorem nextOk_maintenance {s : State} (h : s.memoryOk) (wb inv flush : Bool) (b a : BitVec 5) (l : BitVec 3) :
    NextOk (maintenance wb inv flush b a l s) := nextOk_finish h .steps
@[simp] theorem State.memoryOk.convert {s : State} (h : s.memoryOk) (n : Nat) : (s.convert n).memoryOk := by
  unfold State.convert
  refine State.memoryOk.upM ?_ (Memory.wf_zero _ _ _)
  split
  · exact (State.memoryOk_dropCore ..).2 (h.cleanCore ..)
  · exact h
@[simp] theorem nextOk_execCways {s : State} (h : s.memoryOk) (a d : BitVec 5) (l : BitVec 3) : NextOk (execCways a d l s) := nextOk_finish h .steps
@[simp] theorem nextOk_execCwayq {s : State} (h : s.memoryOk) (d : BitVec 5) (l : BitVec 3) : NextOk (execCwayq d l s) := nextOk_finish h .steps
@[simp] theorem State.memoryOk_cacheMerge {s : State} (n way : Nat) (e : StoreEntry) (w : GWrite) :
    (s.cacheMerge n way e w).memoryOk ↔ s.memoryOk := by simp [State.cacheMerge]
@[simp] theorem State.memoryOk_fillCore {s : State} (n way part : Nat) (grs : List Nat) : (s.fillCore n way part grs).memoryOk ↔ s.memoryOk := by
  unfold State.fillCore
  split <;> simp
@[simp] theorem State.memoryOk.drainWrite {s : State} (h : s.memoryOk) (n way : Nat) (e : StoreEntry) (w : GWrite) :
    (s.drainWrite n way e w).memoryOk := by simp -implicitDefEqProofs [State.drainWrite, h]
@[simp] theorem nextOk_execStoreQueueDrain {s : State} (h : s.memoryOk) (core id : Nat) :
    NextOk (execStoreQueueDrain core id s) := nextOk_runEvent h .steps
@[simp] theorem nextOk_execHomeFillRequest {s : State} (h : s.memoryOk) (dst pa : Nat) (evicts : List Nat) :
    NextOk (execHomeFillRequest dst pa evicts s) := by
  have hu : ((s.evictHome evicts).visit (pa / 8)).memoryOk := by simp [h]
  refine nextOk_runEvent h (Keeps.needSome_bind fun n _ => Keeps.bind (keeps_need _) fun _ => keeps_ite.2 ⟨fun _ => ?_, fun _ => ?_⟩)
  · refine Keeps.needSome_bind fun way _ => Keeps.bind (keeps_need _) fun _ => keeps_set.2 (memoryOk_mk.2 ?_)
    refine (State.memoryOk_upCore ?_).2 (hu.roomCore ..)
    dsimp only
    split <;> rfl
  · exact Keeps.bind (keeps_need _) fun _ => keeps_set.2 (hu.fillCluster ..)
@[simp] theorem State.memoryOk_countWaits {s : State} (lines : List Nat) : (s.countWaits lines).memoryOk ↔ s.memoryOk :=
  State.memoryOk_congr rfl (lm_tget_map (fun ⟨_, _⟩ => rfl) (fun ⟨_, _⟩ => by dsimp only; split <;> rfl) s.cores)
theorem State.memoryOk.takeGran {s t : State} (h : s.memoryOk) {n g : Nat} {f : Far} {v : Word × Byte} (e : s.takeGran n f g = some (v, t)) :
    t.memoryOk := by
  simp only [State.takeGran] at e
  split at e
  · split at e
    · cases e; exact h
    · split at e
      · split at e
        · cases e
        · cases e; simp [h]
      · obtain ⟨_, _, e⟩ := Option.map_eq_some_iff.1 e
        cases e
        exact h
  · split at e
    · cases e
    · split at e
      · obtain ⟨_, _, e⟩ := Option.map_eq_some_iff.1 e
        cases e
        split
        · exact h
        · exact (State.memoryOk_fillCore ..).2 (h.roomCore ..)
      · cases e
@[simp] theorem State.memoryOk.prefetched {s : State} (h : s.memoryOk) (n part : Nat) (l : Tab Nat) : (s.prefetched n part l).memoryOk := by
  induction l generalizing s n part with
  | nil => exact h
  | cons e r ih => simp [State.prefetched, ih, h]
@[simp] theorem State.memoryOk_loaded {s : State} (core : Nat) (f : Far) (v : List (Word × Byte)) : (s.loaded core f v).memoryOk ↔ s.memoryOk :=
  State.memoryOk_upCore rfl
@[simp] theorem nextOk_execLoadReply {s : State} (h : s.memoryOk) (core id : Nat) : NextOk (execLoadReply core id s) := by
  refine nextOk_runEvent h (Keeps.needSome_bind fun f _ => ?_)
  split
  · refine keeps_ite.2 ⟨fun _ => .steps, fun _ => ?_⟩
    refine Keeps.bind (keeps_need _) fun _ => Keeps.needSome_bind fun g _ => Keeps.needSome_bind fun r e => keeps_set.2 ?_
    have hr : r.2.memoryOk := h.takeGran e
    split
    · exact (State.memoryOk_loaded ..).2 (memoryOk_mk.2 hr)
    · exact (State.memoryOk_upCore (by rfl)).2 (memoryOk_mk.2 hr)
  · exact .steps
  · exact .steps
@[simp] theorem nextOk_execWriteBackArrival {s : State} (h : s.memoryOk) (src : Nat) (fromCore : Bool) (line : Nat) (evicts : List Nat) :
    NextOk (execWriteBackArrival src fromCore line evicts s) := nextOk_runEvent h .steps
@[simp] theorem State.memoryOk.accessHome {s : State} (h : s.memoryOk) (core : Nat) (f : Far) (ok : Bool) : (s.accessHome core f ok).memoryOk := by
  unfold State.accessHome
  dsimp only
  split
  · simp -implicitDefEqProofs [↓memoryOk_mk, h]
  · simp -implicitDefEqProofs [↓memoryOk_mk, h]
  · have h1 {g : Core → Core} (hg : ∀ c, (g c).m.lm = c.m.lm) : (s.upCore core g).memoryOk := (State.memoryOk_upCore (hg _)).2 h
    simp only [memoryOk_mk]
    split
    · split
      · exact (h1 fun _ => by split <;> rfl).homeMerge ..
      · exact h1 fun _ => by split <;> rfl
    · exact h1 fun _ => by split <;> rfl
  · exact h
@[simp] theorem nextOk_execHomeDirectAccess {s : State} (h : s.memoryOk) (core id : Nat) (err : Bool) (evicts : List Nat) :
    NextOk (execHomeDirectAccess core id err evicts s) := nextOk_runEvent h .steps
@[simp] theorem nextOk_execRemoteDeviceAccess {s : State} (h : s.memoryOk) (core id : Nat) (routed : Bool) :
    NextOk (execRemoteDeviceAccess core id routed s) := nextOk_runEvent h .steps
@[simp] theorem nextOk_execFreqReadAtHome {s : State} (h : s.memoryOk) (core id : Nat) (err : Bool) :
    NextOk (execFreqReadAtHome core id err s) := nextOk_runEvent h .steps

/-! ## Stream instructions -/

@[simp] theorem keeps_streamTrap {α : Type} (cause slot : Nat) : Keeps (streamTrap cause slot : M α) := fun _ _ => trivial
@[simp] theorem keeps_orStream (b : Bool) (cause slot : Nat) : Keeps (orStream b cause slot) := by simp [orStream]
@[simp] theorem keeps_openSlot (k : Nat) : Keeps (openSlot k) := by
  unfold openSlot
  exact .steps
@[simp] theorem keeps_openDescr (k : Nat) : Keeps (openDescr k) := by
  unfold openDescr
  exact .steps
@[simp] theorem keeps_awaitArray (k : Nat) : Keeps (awaitArray k) := by
  intro s h
  unfold awaitArray
  split
  · exact h
  · split
    · exact keeps_streamTrap _ _ s h
    · trivial
@[simp] theorem keeps_upSlot (k : Nat) (f : Stream → Stream) : Keeps (upSlot k f) := by simp [upSlot]
@[simp] theorem keeps_fmtCode (c : Nat) (w : Word) : Keeps (fmtCode c w) := by
  unfold fmtCode
  exact .steps
@[simp] theorem nextOk_execSopen {s : State} (h : s.memoryOk) (i : Dir) (a : BitVec 5) (k : BitVec 4) (l : BitVec 3) :
    NextOk (execSopen i a k l s) := nextOk_finish h .steps
@[simp] theorem nextOk_execSdim {s : State} (h : s.memoryOk) (i : BitVec 2) (b a : BitVec 5) (k : BitVec 4) (l : BitVec 3) :
    NextOk (execSdim i b a k l s) := nextOk_finish h .steps
@[simp] theorem nextOk_execSbase {s : State} (h : s.memoryOk) (a : BitVec 5) (k : BitVec 4) (l : BitVec 3) :
    NextOk (execSbase a k l s) := nextOk_finish h .steps
@[simp] theorem nextOk_execSidx {s : State} (h : s.memoryOk) (b : BitVec 5) (a k : BitVec 4) (l : BitVec 3) :
    NextOk (execSidx b a k l s) := nextOk_finish h .steps
@[simp] theorem keeps_attach (k : Nat) (t : Stream) (f : Descr → Descr) : Keeps (attach k t f) := by
  unfold attach
  exact .steps
@[simp] theorem nextOk_satt {s : State} (h : s.memoryOk) (op : BitVec 4) (useA useB : Bool) (b a : BitVec 5) (k : BitVec 4) (l : BitVec 3) :
    NextOk (satt op useA useB b a k l s) := nextOk_finish h .steps
@[simp] theorem nextOk_execSattCvt {s : State} (h : s.memoryOk) (a : Fmt) (k : BitVec 4) (l : BitVec 3) :
    NextOk (execSattCvt a k l s) := nextOk_finish h .steps
@[simp] theorem nextOk_execSattAdd2 {s : State} (h : s.memoryOk) (a k : BitVec 4) (l : BitVec 3) :
    NextOk (execSattAdd2 a k l s) := nextOk_finish h .steps
@[simp] theorem State.memoryOk.pushHome {s : State} (h : s.memoryOk) : (s.pushHome).memoryOk := by simp [State.pushHome, h]
@[simp] theorem nextOk_execSgo {s : State} (h : s.memoryOk) (k : BitVec 4) (l : BitVec 3) : NextOk (execSgo k l s) := nextOk_finish h .steps
@[simp] theorem State.memoryOk_closeSlots {s : State} (ks : List Nat) : (s.closeSlots ks).memoryOk ↔ s.memoryOk := by simp [State.closeSlots]
@[simp] theorem nextOk_execSclose {s : State} (h : s.memoryOk) (a : BitVec 5) (k : BitVec 4) (l : BitVec 3) :
    NextOk (execSclose a k l s) := nextOk_finish h .steps
@[simp] theorem nextOk_execSpin {s : State} (h : s.memoryOk) (i : BitVec 2) (k : BitVec 4) (l : BitVec 3) :
    NextOk (execSpin i k l s) := nextOk_finish h .steps
@[simp] theorem keeps_checkGranules (slot : Nat) (l : List (Word × Byte × Nat)) : Keeps (checkGranules slot l) := by
  induction l generalizing slot with
  | nil => simp [checkGranules]
  | cons e r ih =>
    unfold checkGranules
    exact .steps
@[simp] theorem keeps_checkPopped (slot w per : Nat) (op : BitVec 4) (es : List Elem) (l : List Nat) : Keeps (checkPopped slot w per op es l) := by
  induction l generalizing slot w per op es with
  | nil => simp [checkPopped]
  | cons e r ih =>
    unfold checkPopped
    exact .steps
@[simp] theorem State.memoryOk_takeElems {s : State} (n k : Nat) (es : List Elem) :
    (s.takeElems n k es).memoryOk ↔ s.memoryOk := by simp [State.takeElems]
@[simp] theorem keeps_popElems (k : Nat) : Keeps (popElems k) := by
  unfold popElems
  exact .steps
@[simp] theorem nextOk_popWith {s : State} (h : s.memoryOk) (len : Nat) (a : BitVec 5) (k : BitVec 4) (l : BitVec 3) :
    NextOk (popWith len a k l s) := nextOk_finish h .steps
@[simp] theorem nextOk_execSpopk {s : State} (h : s.memoryOk) (b : BitVec 3) (a : BitVec 5) (k : BitVec 4) (l : BitVec 3) :
    NextOk (execSpopk b a k l s) := nextOk_finish h .steps
@[simp] theorem nextOk_pushWith {s : State} (h : s.memoryOk) (len : Nat) (a : BitVec 5) (k : BitVec 4) (l : BitVec 3) :
    NextOk (pushWith len a k l s) := nextOk_finish h .steps
@[simp] theorem nextOk_execSgrant {s : State} (h : s.memoryOk) (a : BitVec 5) (f : Bool) (k : BitVec 4) (l : BitVec 3) :
    NextOk (execSgrant a f k l s) := nextOk_finish h .steps
@[simp] theorem nextOk_execSfront {s : State} (h : s.memoryOk) (a : BitVec 5) (k : BitVec 4) (l : BitVec 3) :
    NextOk (execSfront a k l s) := nextOk_finish h .steps
@[simp] theorem nextOk_execSwaitf {s : State} (h : s.memoryOk) (a : BitVec 5) (k : BitVec 4) (l : BitVec 3) :
    NextOk (execSwaitf a k l s) := nextOk_finish h .steps
@[simp] theorem nextOk_execSevt {s : State} (h : s.memoryOk) (a : BitVec 5) (k : BitVec 4) (l : BitVec 3) :
    NextOk (execSevt a k l s) := nextOk_finish h .steps
@[simp] theorem nextOk_execSrecall {s : State} (h : s.memoryOk) (k : BitVec 4) (l : BitVec 3) : NextOk (execSrecall k l s) := nextOk_finish h .steps
@[simp] theorem nextOk_execSskip {s : State} (h : s.memoryOk) (a : BitVec 5) (k : BitVec 4) (l : BitVec 3) :
    NextOk (execSskip a k l s) := nextOk_finish h .steps
@[simp] theorem nextOk_execSsave {s : State} (h : s.memoryOk) (a : BitVec 5) (k : BitVec 4) (l : BitVec 3) :
    NextOk (execSsave a k l s) := nextOk_finish h .steps
@[simp] theorem keeps_checkLms (gr l : Nat) : Keeps (checkLms gr l) := by
  induction l generalizing gr with
  | zero => simp [checkLms]
  | succ n ih =>
    unfold checkLms
    exact .steps
@[simp] theorem nextOk_execSload {s : State} (h : s.memoryOk) (a : BitVec 5) (k : BitVec 4) (l : BitVec 3) :
    NextOk (execSload a k l s) := nextOk_finish h .steps
@[simp] theorem nextOk_execSquery {s : State} (h : s.memoryOk) (i : BitVec 3) (a : BitVec 5) (k : BitVec 4) (l : BitVec 3) :
    NextOk (execSquery i a k l s) := nextOk_finish h .steps

/-! ## Synchronisation -/

@[simp] theorem State.memoryOk.relWrites {s : State} (h : s.memoryOk) (sc : Scope) : (s.relWrites sc).memoryOk := by simp [State.relWrites, h]
@[simp] theorem State.memoryOk.released {s : State} (h : s.memoryOk) (sc : Scope) : (s.released sc).2.memoryOk :=
  (State.memoryOk_upM (s := s.relWrites sc) (f := fun m => { m with pcl := .empty, pdv := if isFar sc then .empty else m.pdv }) rfl).2
    (h.relWrites sc)
@[simp] theorem keeps_releaseM (sc : Scope) (streams : Bool) : Keeps (releaseM sc streams) := by
  unfold releaseM
  exact .steps
@[simp] theorem nextOk_execRel {s : State} (h : s.memoryOk) (k : Scope) (l : BitVec 3) : NextOk (execRel k l s) := nextOk_finish h .steps
@[simp] theorem State.memoryOk.acquired {s : State} (h : s.memoryOk) (sc : Scope) : (s.acquired sc).memoryOk := by
  unfold State.acquired
  split <;> simp [h, ↓memoryOk_mk]
@[simp] theorem keeps_acquireM (sc : Scope) : Keeps (acquireM sc) := by
  unfold acquireM
  exact .steps
@[simp] theorem nextOk_execAcq {s : State} (h : s.memoryOk) (k : Scope) (l : BitVec 3) : NextOk (execAcq k l s) := nextOk_finish h .steps
@[simp] theorem nextOk_execStrel {s : State} (h : s.memoryOk) (k : Scope) (b a : BitVec 5) (l : BitVec 3) :
    NextOk (execStrel k b a l s) := nextOk_finish h .steps
@[simp] theorem nextOk_execLdacq {s : State} (h : s.memoryOk) (k : Scope) (a d : BitVec 5) (l : BitVec 3) :
    NextOk (execLdacq k a d l s) := nextOk_finish h .steps
@[simp] theorem nextOk_execFenceL {s : State} (h : s.memoryOk) (l : BitVec 3) : NextOk (execFenceL l s) := nextOk_finish h .steps
@[simp] theorem nextOk_execFenceS {s : State} (h : s.memoryOk) (l : BitVec 3) : NextOk (execFenceS l s) := nextOk_finish h .steps
@[simp] theorem nextOk_execFenceA {s : State} (h : s.memoryOk) (l : BitVec 3) : NextOk (execFenceA l s) := nextOk_finish h .steps
@[simp] theorem nextOk_atomicOp {s : State} (h : s.memoryOk) (fn w : Nat) (b a d : BitVec 5) (p : Bool) (sc : Scope) :
    NextOk (atomicOp fn w b a d p sc s) := nextOk_finish h .steps
@[simp] theorem nextOk_execAtomicExecute {s : State} (h : s.memoryOk) (core id : Nat) (evicts : List Nat) :
    NextOk (execAtomicExecute core id evicts s) := by
  refine nextOk_runEvent h (Keeps.needSome_bind fun f _ => ?_)
  split
  · next fn w posted _ b cmp sc _ =>
    refine Keeps.bind (keeps_need _) fun _ => Keeps.bind (keeps_need _) fun _ => ?_
    extract_lets s0 bad s1 g r s2 s3 sig s4 s5 v
    have h1 : s1.memoryOk := by simp [s1, s0, h]
    have h2 : s2.memoryOk := by simp [s2, h1]
    have h3 : s3.memoryOk := by simp [s3, h2]
    have h4 : s4.memoryOk := by simp only [s4]; split <;> simp [h3]
    have h5 : s5.memoryOk := by simp [s5, h4]
    refine keeps_set.2 (memoryOk_mk.2 ((State.memoryOk_upCore ?_).2 h5))
    split <;> rfl
  · exact keeps_need _
@[simp] theorem nextOk_execAtomicReply {s : State} (h : s.memoryOk) (core id : Nat) : NextOk (execAtomicReply core id s) := nextOk_runEvent h .steps
@[simp] theorem keeps_barrierTrap {α : Type} (cause tag : Nat) : Keeps (barrierTrap cause tag : M α) := fun _ _ => trivial
@[simp] theorem keeps_ridgeState (t : Nat) : Keeps (ridgeState t) := by
  unfold ridgeState
  exact .steps
@[simp] theorem State.memoryOk_setRidge {s : State} (t : Nat) (q : TagState) : (s.setRidge t q).memoryOk ↔ s.memoryOk := by simp [State.setRidge]
@[simp] theorem State.memoryOk_upGang {s : State} (n : Nat) (f : Gang → Gang) : (s.upGang n f).memoryOk ↔ s.memoryOk := Iff.rfl
@[simp] theorem State.memoryOk_arrive {s : State} (t : Nat) : (s.arrive t).memoryOk ↔ s.memoryOk := by simp [State.arrive]
@[simp] theorem keeps_barv (t : Nat) : Keeps (barv t) := by
  unfold barv
  exact .steps
@[simp] theorem State.memoryOk_passed {s : State} (t : Nat) : (s.passed t).memoryOk ↔ s.memoryOk := by simp [State.passed]
@[simp] theorem nextOk_execBarv {s : State} (h : s.memoryOk) (a l : BitVec 3) : NextOk (execBarv a l s) := nextOk_finish h .steps
@[simp] theorem nextOk_execBarw {s : State} (h : s.memoryOk) (a l : BitVec 3) : NextOk (execBarw a l s) := nextOk_finish h .steps
@[simp] theorem nextOk_execBarvw {s : State} (h : s.memoryOk) (a l : BitVec 3) : NextOk (execBarvw a l s) := nextOk_finish h .steps
@[simp] theorem nextOk_execBarq {s : State} (h : s.memoryOk) (a : BitVec 3) (d : BitVec 5) (l : BitVec 3) :
    NextOk (execBarq a d l s) := nextOk_finish h .steps
@[simp] theorem State.memoryOk_releaseMembers {s : State} (t : Nat) (l : List (Nat × Nat × BitVec 32)) :
    (s.releaseMembers t l).memoryOk ↔ s.memoryOk := by
  induction l generalizing s with
  | nil => rfl
  | cons e r ih =>
    refine ih.trans (State.memoryOk_upCore ?_)
    split
    · split <;> rfl
    · rfl
@[simp] theorem nextOk_execBarrierRelease {s : State} (h : s.memoryOk) (gang tag : Nat) :
    NextOk (execBarrierRelease gang tag s) := nextOk_runEvent h .steps
@[simp] theorem State.memoryOk_arm {s : State} (n gr : Nat) (va : Word) : (s.arm n gr va).memoryOk ↔ s.memoryOk := by simp [State.arm]
@[simp] theorem nextOk_execWatch {s : State} (h : s.memoryOk) (a d : BitVec 5) (l : BitVec 3) : NextOk (execWatch a d l s) := nextOk_finish h .steps
@[simp] theorem keeps_wakeUp (d : BitVec 5) (va : Word) (gr status : Nat) : Keeps (wakeUp d va gr status) := by
  unfold wakeUp
  exact .steps
@[simp] theorem nextOk_execWaitw {s : State} (h : s.memoryOk) (b a d : BitVec 5) (l : BitVec 3) :
    NextOk (execWaitw b a d l s) := nextOk_finish h .steps
@[simp] theorem nextOk_execUnwatch {s : State} (h : s.memoryOk) (a : BitVec 5) (l : BitVec 3) : NextOk (execUnwatch a l s) := nextOk_finish h .steps
@[simp] theorem nextOk_execWaitwTimeout {s : State} (h : s.memoryOk) (core ctx : Nat) :
    NextOk (execWaitwTimeout core ctx s) := nextOk_runEvent h .steps

/-! ## Message instructions -/

@[simp] theorem keeps_mailboxTrap {α : Type} (cause : Nat) (info : Word) : Keeps (mailboxTrap cause info : M α) := fun _ _ => trivial
@[simp] theorem State.memoryOk_post {s : State} (core idx : Nat) (a : Actor) (i : SendInfo) (payload : List (Word × Byte)) :
    (s.post core idx a i payload).memoryOk ↔ s.memoryOk := by
  unfold State.post
  split <;> simp [↓memoryOk_mk]
@[simp] theorem keeps_granFaults (a : Word) (l : Nat) : Keeps (granFaults a l) := by
  induction l generalizing a with
  | zero => simp [granFaults]
  | succ n ih =>
    unfold granFaults
    exact .steps
@[simp] theorem keeps_sendInfo (k : SendKind) (a : Actor) (t : Word) (tc xf len : Nat) (p : List (Word × Byte)) :
    Keeps (sendInfo k a t tc xf len p) := by
  unfold sendInfo
  exact .steps
@[simp] theorem keeps_commitSend (k : SendKind) (a : Actor) (i : SendInfo) (p : List (Word × Byte)) : Keeps (commitSend k a i p) := by
  unfold commitSend
  refine Keeps.get_bind fun _ _ => keeps_ite.2 ⟨fun _ => keeps_pure _, fun _ => Keeps.bind (keeps_modify.2 fun s h => ?_) fun _ => keeps_pure _⟩
  have hp := (State.memoryOk_post s.cur s.actIdx a i p).2 h
  cases k with
  | request g => exact (State.memoryOk_upAct _).2 hp
  | weighted => exact (State.memoryOk_upAct _).2 hp
  | _ => exact hp
@[simp] theorem keeps_sendLm (k : SendKind) (z tc : Nat) (t g : Word) : Keeps (sendLm k z tc t g) := by
  unfold sendLm
  exact .steps
@[simp] theorem nextOk_sendWith {s : State} (h : s.memoryOk) (readD : Bool) (k : Word → SendKind) (z : BitVec 3) (b a d : BitVec 5) (tc : Nat) :
    NextOk (sendWith readD k z b a d tc s) := nextOk_finish h .steps
@[simp] theorem nextOk_execSendv {s : State} (h : s.memoryOk) (b a d : BitVec 5) (t : BitVec 2) :
    NextOk (execSendv b a d t s) := nextOk_finish h .steps
@[simp] theorem nextOk_execReply {s : State} (h : s.memoryOk) (z : BitVec 3) (b a d : BitVec 5) :
    NextOk (execReply z b a d s) := nextOk_finish h .steps
@[simp] theorem nextOk_execJadd {s : State} (h : s.memoryOk) (b a d : BitVec 5) (l : BitVec 3) : NextOk (execJadd b a d l s) := nextOk_finish h .steps
@[simp] theorem nextOk_execFwd {s : State} (h : s.memoryOk) (a d : BitVec 5) (t : BitVec 2) : NextOk (execFwd a d t s) := nextOk_finish h .steps
@[simp] theorem nextOk_execMbcfg {s : State} (h : s.memoryOk) (b a d : BitVec 5) (l : BitVec 3) :
    NextOk (execMbcfg b a d l s) := nextOk_finish h .steps
@[simp] theorem nextOk_execMbcnt {s : State} (h : s.memoryOk) (b a d : BitVec 5) (l : BitVec 3) :
    NextOk (execMbcnt b a d l s) := nextOk_finish h .steps
@[simp] theorem nextOk_execMbmask {s : State} (h : s.memoryOk) (a d : BitVec 5) (l : BitVec 3) : NextOk (execMbmask a d l s) := nextOk_finish h .steps
@[simp] theorem nextOk_execMsgf {s : State} (h : s.memoryOk) (a d : BitVec 5) (l : BitVec 3) : NextOk (execMsgf a d l s) := nextOk_finish h .steps
@[simp] theorem nextOk_execTagbind {s : State} (h : s.memoryOk) (b a d : BitVec 5) (l : BitVec 3) : NextOk (execTagbind b a d l s) := by
  refine nextOk_finish h (Keeps.bind (keeps_issue _ _ _) fun r => Keeps.bind (keeps_readG _ _) fun g => Keeps.bind (keeps_readG _ _) fun w =>
    Keeps.get_bind fun u hu => ?_)
  dsimp only
  split
  · exact .steps
  · split
    · exact .steps
    · refine keeps_ite.2 ⟨fun _ => .steps, fun _ => ?_⟩
      split
      · exact .steps
      · refine keeps_ite.2 ⟨fun _ => .steps, fun _ => Keeps.bind .steps fun _ => ?_⟩
        split
        · exact .steps
        · refine Keeps.bind (keeps_modify.2 fun v hv => ?_) fun _ => .steps
          split
          · next e => exact hv.landReply e
          · exact hv
@[simp] theorem nextOk_execTagwait {s : State} (h : s.memoryOk) (a d : BitVec 5) (l : BitVec 3) :
    NextOk (execTagwait a d l s) := nextOk_finish h .steps
@[simp] theorem nextOk_execWret {s : State} (h : s.memoryOk) (d : BitVec 5) (l : BitVec 3) : NextOk (execWret d l s) := nextOk_finish h .steps
@[simp] theorem nextOk_execWq {s : State} (h : s.memoryOk) (d : BitVec 5) (l : BitVec 3) : NextOk (execWq d l s) := nextOk_finish h .steps
@[simp] theorem nextOk_execJcfg {s : State} (h : s.memoryOk) (b a d : BitVec 5) (l : BitVec 3) : NextOk (execJcfg b a d l s) := nextOk_finish h .steps
@[simp] theorem nextOk_execLaunch {s : State} (h : s.memoryOk) (b a d : BitVec 5) (l : BitVec 3) : NextOk (execLaunch b a d l s) := by
  refine nextOk_finish h (Keeps.bind (keeps_issue _ _ _) fun r => Keeps.bind (keeps_readG _ _) fun g => Keeps.bind (keeps_readG _ _) fun w =>
    Keeps.get_bind fun u hu => ?_)
  dsimp only
  split
  · exact .steps
  · refine Keeps.bind (keeps_waitUntil _) fun _ => Keeps.bind .steps fun sig => Keeps.bind .steps fun _ => Keeps.get_bind fun v hv =>
      keeps_ite.2 ⟨fun _ => .steps, fun _ => ?_⟩
    split
    · exact .steps
    · split
      · exact .steps
      · next e =>
        have ht := hv.qAppend e
        exact .steps
@[simp] theorem nextOk_execSelfq {s : State} (h : s.memoryOk) (a d : BitVec 5) (l : BitVec 3) : NextOk (execSelfq a d l s) := nextOk_finish h .steps
@[simp] theorem nextOk_execGangq {s : State} (h : s.memoryOk) (a d : BitVec 5) (l : BitVec 3) : NextOk (execGangq a d l s) := nextOk_finish h .steps
@[simp] theorem nextOk_execFenceM {s : State} (h : s.memoryOk) (l : BitVec 3) : NextOk (execFenceM l s) := nextOk_finish h .steps

/-! ## Gangs -/

@[simp] theorem State.memoryOk_setAmap {s : State} (part : Nat) (addr : BitVec 32) (e : Word) :
    (s.setAmap part addr e).memoryOk ↔ s.memoryOk := Iff.rfl
@[simp] theorem State.memoryOk.parkWrite {s : State} (h : s.memoryOk) (e : Word) (o : Nat) (l : List (Word × Byte)) :
    (s.parkWrite e o l).memoryOk := by
  induction l generalizing s e o with
  | nil => exact h
  | cons e r ih => simp [State.parkWrite, ih, h]
@[simp] theorem State.memoryOk.parkSet {s : State} (h : s.memoryOk) (e : Word) (field v : Nat) :
    (s.parkSet e field v).memoryOk := by simp [State.parkSet, h]
theorem State.memoryOk.parkAppend {s t : State} (h : s.memoryOk) {e : Word} {m : Msg} (ha : s.parkAppend e m = some t) : t.memoryOk := by
  unfold State.parkAppend at ha
  dsimp only at ha
  split at ha
  · cases ha
  · cases ha
    exact (h.parkWrite ..).parkSet e 1 _
@[simp] theorem State.memoryOk.parkTake {s : State} (h : s.memoryOk) (e : Word) :
    (s.parkTake e).memoryOk := by simp -implicitDefEqProofs [State.parkTake, h, ↓memoryOk_mk]
@[simp] theorem State.memoryOk_endReplay {s : State} (core idx : Nat) : (s.endReplay core idx).memoryOk ↔ s.memoryOk := by
  unfold State.endReplay
  dsimp only
  repeat' split
  all_goals simp
@[simp] theorem State.memoryOk_haltMember {s : State} (core idx : Nat) (but : Option (Nat × Nat)) :
    (s.haltMember core idx but).memoryOk ↔ s.memoryOk :=
  (State.memoryOk_upCore (Core.lm_foldl (fun _ _ => by split <;> rfl) _ _)).trans (State.memoryOk_upActor ..)
@[simp] theorem State.memoryOk.settleTo {s : State} (h : s.memoryOk) (core idx : Nat) (sc : Scope) : (s.settleTo core idx sc).memoryOk := by
  unfold State.settleTo
  split <;> simp [h, ↓memoryOk_mk]
@[simp] theorem State.memoryOk.settle {s : State} (h : s.memoryOk) (core idx : Nat) : (s.settle core idx).memoryOk := by simp [State.settle, h]
@[simp] theorem State.memoryOk_unmap {s : State} (part : Nat) (addr : BitVec 32) :
    (s.unmap part addr).memoryOk ↔ s.memoryOk := by simp [State.unmap, ↓memoryOk_mk]
@[simp] theorem State.memoryOk_reland {s : State} (part : Nat) (addr : BitVec 32) (at' : Option (Nat × Nat)) :
    (s.reland part addr at').memoryOk ↔ s.memoryOk := Iff.rfl
@[simp] theorem State.memoryOk_freeMember {s : State} (g : Gang) (m : Nat × Nat × BitVec 32) : (s.freeMember g m).memoryOk ↔ s.memoryOk := by
  refine (State.memoryOk_unmap ..).trans ((State.memoryOk_reland ..).trans ?_)
  split
  · exact State.memoryOk_upCore (Core.vacated_lm ..)
  · rfl
@[simp] theorem State.memoryOk_freeGang {s : State} (g : Gang) : (s.freeGang g).memoryOk ↔ s.memoryOk :=
  memoryOk_foldl fun _ _ => State.memoryOk_freeMember ..
@[simp] theorem State.memoryOk.queueDone {s : State} (h : s.memoryOk) (part q i status : Nat) : (s.queueDone part q i status).memoryOk := by
  have hs {t : State} (ht : t.memoryOk) (v w : Nat) : ((t.setCtl part q 40 v).setCtl part q 32 w).memoryOk := (ht.setCtl ..).setCtl ..
  unfold State.queueDone
  dsimp only
  refine (State.memoryOk_upQueue ..).2 (hs ?_ ..)
  split
  · exact h.distWrite ..
  · exact h
@[simp] theorem State.memoryOk.endStage {s : State} (h : s.memoryOk) (key status : Nat) : (s.endStage key status).memoryOk := by
  have h1 : ((s.stageMembers key).foldl (fun u p => u.settleTo p.1 p.2 .sy) s).memoryOk := .foldl (fun _ _ ht => ht.settleTo ..) h
  unfold State.endStage
  split
  · exact h
  · next t _ =>
    refine (memoryOk_foldl fun _ _ => State.memoryOk_freeGang _).2 (State.memoryOk.queueDone ?_ ..)
    split
    · exact h1
    · exact (State.memoryOk_sendHw ..).2 h1

/-! ## Arrivals -/

@[simp] theorem State.memoryOk_upMsg {s : State} (r : MsgRef) (f : Msg → Option Msg) : (s.upMsg r f).memoryOk ↔ s.memoryOk := by
  unfold State.upMsg
  split <;> simp [↓memoryOk_mk]
@[simp] theorem State.memoryOk_dropMsg {s : State} (r : MsgRef) : (s.dropMsg r).memoryOk ↔ s.memoryOk := by simp [State.dropMsg]
@[simp] theorem State.memoryOk.reject {s : State} (h : s.memoryOk) (r : MsgRef) (m : Msg) (reason : Nat) : (s.reject r m reason).memoryOk := by
  unfold State.reject
  split <;> simp [h]
@[simp] theorem State.memoryOk_refuse {s : State} (r : MsgRef) (m : Msg) (core idx : Nat) : (s.refuse r m core idx).memoryOk ↔ s.memoryOk := by
  unfold State.refuse
  repeat' split
  all_goals simp -implicitDefEqProofs
@[simp] theorem nextOk_execMessageLanding {s : State} (h : s.memoryOk) (m : MsgRef) : NextOk (execMessageLanding m s) := nextOk_runEvent h .steps
@[simp] theorem nextOk_execTagReplyLanding {s : State} (h : s.memoryOk) (m : MsgRef) : NextOk (execTagReplyLanding m s) := by
  have hdone (n i : Nat) : (s.upCore n fun c => c.dropFar i).memoryOk := (State.memoryOk_upCore rfl).2 h
  refine nextOk_runEvent h ?_
  split
  · refine Keeps.needSome_bind fun f _ => ?_
    split
    · split
      · refine Keeps.needSome_bind fun a _ => keeps_ite.2 ⟨fun _ => .steps, fun _ => keeps_set.2 (memoryOk_mk.2 ?_)⟩
        split
        · next e => exact (hdone ..).landReply e
        · exact hdone ..
      · exact keeps_need _
      · exact .steps
    · exact keeps_need _
  · refine Keeps.needSome_bind fun k _ => Keeps.bind (keeps_need _) fun _ => keeps_ite.2 ⟨fun _ => .steps, fun _ => ?_⟩
    dsimp only
    split
    · refine Keeps.needSome_bind fun a _ => Keeps.bind (keeps_need _) fun _ => ?_
      split
      · next e => exact keeps_set.2 (((State.memoryOk_dropMsg _).2 h).landReply e)
      · exact .steps
    · exact keeps_need _
    · exact .steps
@[simp] theorem nextOk_execHwFaultMessageLanding {s : State} (h : s.memoryOk) (id : Nat) :
    NextOk (execHwFaultMessageLanding id s) := nextOk_runEvent h .steps
@[simp] theorem nextOk_execMailboxOverflowTrap {s : State} (h : s.memoryOk) (core : Nat) : NextOk (execMailboxOverflowTrap core s) := by
  refine nextOk_runEvent h (Keeps.needSome_bind fun o _ => Keeps.needSome_bind fun k _ => keeps_set.2 ?_)
  have h1 : (s.upCore core fun c => { c with overflow := c.overflow.map fun q => if q == o then { q with taken := true } else q }).memoryOk :=
    (State.memoryOk_upCore rfl).2 h
  exact memoryOk_mk.2 (State.memoryOk_upX.2 ((memoryOk_takeTrap ..).2 (memoryOk_mk.2 h1)))
@[simp] theorem nextOk_execRetrySignal {s : State} (h : s.memoryOk) (m : MsgRef) : NextOk (execRetrySignal m s) := nextOk_runEvent h .steps
@[simp] theorem nextOk_execRetryBackoffExpiry {s : State} (h : s.memoryOk) (m : MsgRef) :
    NextOk (execRetryBackoffExpiry m s) := nextOk_runEvent h .steps
@[simp] theorem nextOk_execSlotHoldExpiry {s : State} (h : s.memoryOk) (core idx mb holder : Nat) :
    NextOk (execSlotHoldExpiry core idx mb holder s) := nextOk_runEvent h .steps
@[simp] theorem nextOk_execParkAppend {s : State} (h : s.memoryOk) (m : MsgRef) : NextOk (execParkAppend m s) := by
  refine nextOk_runEvent h (Keeps.needSome_bind fun k _ => Keeps.bind (keeps_need _) fun _ => Keeps.bind (keeps_need _) fun _ => ?_)
  split
  · exact .steps
  · next t e =>
    have ht := h.parkAppend e
    exact .steps
theorem State.memoryOk.replayOne {s t : State} (h : s.memoryOk) {core idx : Nat} (e : s.replayOne core idx = some t) : t.memoryOk := by
  unfold State.replayOne at e
  split at e
  · cases e
  · dsimp only at e
    split at e
    · cases e
    · next a _ _ m _ =>
      have ht := h.parkTake (s.amap a.part a.addr)
      split at e
      · split at e
        · next hr =>
          cases e
          exact (State.memoryOk_endReplay ..).2 (ht.landReply hr)
        · cases e
          simp [ht]
      · split at e
        · cases e
          exact (State.memoryOk_endReplay ..).2 (ht.landAt ..)
        · cases e
      · split at e
        · cases e
        · split at e
          · cases e
            simp [ht]
          · cases e
        · cases e
          exact (State.memoryOk_endReplay ..).2 (ht.accept ..)
@[simp] theorem nextOk_execParkReplayRecord {s : State} (h : s.memoryOk) (core idx : Nat) : NextOk (execParkReplayRecord core idx s) :=
  nextOk_runEvent h (Keeps.needSome_bind fun _ e => keeps_set.2 (h.replayOne e))
@[simp] theorem State.memoryOk_enter {s : State} (core k : Nat) (a : Actor) (x : Cand) (i : Nat) :
    (s.enter core k a x i).memoryOk ↔ s.memoryOk := by simp -implicitDefEqProofs [State.enter]
@[simp] theorem State.memoryOk_enterJoin {s : State} (core k : Nat) (a : Actor) (x : Cand) (j : Join) :
    (s.enterJoin core k a x j).memoryOk ↔ s.memoryOk := by
  unfold State.enterJoin
  split <;> simp -implicitDefEqProofs [↓memoryOk_mk]
@[simp] theorem nextOk_execFiringSelection {s : State} (h : s.memoryOk) (core : Nat) : NextOk (execFiringSelection core s) := nextOk_runEvent h .steps
@[simp] theorem nextOk_execAgeExpiry {s : State} (h : s.memoryOk) (core idx mb : Nat) :
    NextOk (execAgeExpiry core idx mb s) := nextOk_runEvent h .steps
@[simp] theorem nextOk_execBudgetExpiry {s : State} (h : s.memoryOk) (core ctx : Nat) :
    NextOk (execBudgetExpiry core ctx s) := nextOk_runEvent h .steps

/-! ## Bit buffer and seals -/

@[simp] theorem keeps_setBb (d : BitVec 128) (p : Nat) : Keeps (setBb d p) := by simp [setBb]
@[simp] theorem keeps_refillWord (p : Word) : Keeps (refillWord p) := by
  unfold refillWord
  exact .steps
@[simp] theorem keeps_refill (a : BitVec 5) (p : Word) (pos : Nat) : Keeps (refill a p pos) := by
  unfold refill
  exact .steps
@[simp] theorem nextOk_execBbinit {s : State} (h : s.memoryOk) (b a d : BitVec 5) (l : BitVec 3) :
    NextOk (execBbinit b a d l s) := nextOk_finish h .steps
@[simp] theorem nextOk_execBget {s : State} (h : s.memoryOk) (b a d : BitVec 5) (l : BitVec 3) : NextOk (execBget b a d l s) := nextOk_finish h .steps
@[simp] theorem nextOk_execBpeek {s : State} (h : s.memoryOk) (b d : BitVec 5) (l : BitVec 3) : NextOk (execBpeek b d l s) := nextOk_finish h .steps
@[simp] theorem nextOk_execBskip {s : State} (h : s.memoryOk) (b a : BitVec 5) (l : BitVec 3) : NextOk (execBskip b a l s) := nextOk_finish h .steps
@[simp] theorem nextOk_execBput {s : State} (h : s.memoryOk) (b a d : BitVec 5) (l : BitVec 3) : NextOk (execBput b a d l s) := nextOk_finish h .steps
@[simp] theorem nextOk_execBflush {s : State} (h : s.memoryOk) (a d : BitVec 5) (l : BitVec 3) : NextOk (execBflush a d l s) := nextOk_finish h .steps
@[simp] theorem nextOk_execBgetx {s : State} (h : s.memoryOk) (b a d : BitVec 5) (l : BitVec 3) :
    NextOk (execBgetx b a d l s) := nextOk_finish h .steps
@[simp] theorem nextOk_execBbpos {s : State} (h : s.memoryOk) (d : BitVec 5) (l : BitVec 3) : NextOk (execBbpos d l s) := nextOk_finish h .steps
@[simp] theorem nextOk_execSealg {s : State} (h : s.memoryOk) (a d : BitVec 5) (l : BitVec 3) : NextOk (execSealg a d l s) := nextOk_finish h .steps
@[simp] theorem nextOk_execSealset {s : State} (h : s.memoryOk) (b d : BitVec 5) (l : BitVec 3) :
    NextOk (execSealset b d l s) := nextOk_finish h .steps
@[simp] theorem nextOk_execSealchk {s : State} (h : s.memoryOk) (a d : BitVec 5) (l : BitVec 3) :
    NextOk (execSealchk a d l s) := nextOk_finish h .steps
@[simp] theorem nextOk_execPoison {s : State} (h : s.memoryOk) (d : BitVec 5) (l : BitVec 3) : NextOk (execPoison d l s) := nextOk_finish h .steps
@[simp] theorem nextOk_execSealmode {s : State} (h : s.memoryOk) (a d : BitVec 5) (l : BitVec 3) :
    NextOk (execSealmode a d l s) := nextOk_finish h .steps

/-! ## Control flow -/

@[simp] theorem keeps_branchTo (take : Bool) (target : Word) (len : Nat) : Keeps (branchTo take target len) := by
  unfold branchTo
  exact .steps
@[simp] theorem nextOk_branch2 {s : State} (h : s.memoryOk) (p : Word → Word → Bool) (o : BitVec 11) (b a : BitVec 5) :
    NextOk (branch2 p o b a s) := nextOk_finish h .steps
@[simp] theorem nextOk_branchK {s : State} (h : s.memoryOk) (p : Mask → Bool) (o : BitVec 11) (a : BitVec 3) :
    NextOk (branchK p o a s) := nextOk_finish h .steps
@[simp] theorem nextOk_branchZ {s : State} (h : s.memoryOk) (p : Word → Bool) (o a : BitVec 5) : NextOk (branchZ p o a s) := nextOk_finish h .steps
@[simp] theorem keeps_pushReturn (ret : Word) : Keeps (pushReturn ret) := by
  unfold pushReturn
  exact .steps
@[simp] theorem keeps_popReturn : Keeps popReturn := by
  unfold popReturn
  refine Keeps.get_bind fun s h => ?_
  dsimp only
  split
  · exact .steps
  · exact .steps
@[simp] theorem keeps_evenTarget (t : Word) : Keeps (evenTarget t) := by simp [evenTarget]
@[simp] theorem nextOk_returnWith {s : State} (h : s.memoryOk) (l : Nat) (compact : Bool) : NextOk (returnWith l compact s) := nextOk_finish h .steps
@[simp] theorem nextOk_endWith {s : State} (h : s.memoryOk) (l : Nat) (compact : Bool) : NextOk (endWith l compact s) := nextOk_finish h .steps
@[simp] theorem nextOk_nothing {s : State} (h : s.memoryOk) (len l : Nat) : NextOk (nothing len l s) := nextOk_finish h .steps
@[simp] theorem nextOk_execJ {s : State} (h : s.memoryOk) (o : BitVec 23) : NextOk (execJ o s) := nextOk_finish h .steps
@[simp] theorem nextOk_execCJ {s : State} (h : s.memoryOk) (o : BitVec 10) : NextOk (execCJ o s) := nextOk_finish h .steps
@[simp] theorem nextOk_execCall {s : State} (h : s.memoryOk) (o : BitVec 23) : NextOk (execCall o s) := nextOk_finish h .steps
@[simp] theorem nextOk_execJr {s : State} (h : s.memoryOk) (a : BitVec 5) (l : BitVec 3) : NextOk (execJr a l s) := nextOk_finish h .steps
@[simp] theorem nextOk_execCallr {s : State} (h : s.memoryOk) (a : BitVec 5) (l : BitVec 3) : NextOk (execCallr a l s) := nextOk_finish h .steps
@[simp] theorem nextOk_execLoop {s : State} (h : s.memoryOk) (e : BitVec 11) (a : BitVec 5) (l : BitVec 3) :
    NextOk (execLoop e a l s) := nextOk_finish h .steps
@[simp] theorem nextOk_execTrap {s : State} (h : s.memoryOk) (a : BitVec 5) (l : BitVec 3) : NextOk (execTrap a l s) := nextOk_finish h .steps
@[simp] theorem nextOk_execBrk {s : State} (h : s.memoryOk) (l : BitVec 3) : NextOk (execBrk l s) := nextOk_finish h .steps

/-! ## Images -/

@[simp] theorem State.memoryOk.writeImage {s : State} (h : s.memoryOk) (core idx va : Nat) : (s.writeImage core idx va).memoryOk := by
  unfold State.writeImage
  split
  · exact h
  · have h1 := fun part l => h.distWrites part va l
    refine State.memoryOk.distWrites ?_ ..
    split
    · exact (h1 ..).distWrites ..
    · exact h1 ..
@[simp] theorem State.memoryOk.saveActor {s : State} (h : s.memoryOk) (core idx va : Nat) : (s.saveActor core idx va).memoryOk :=
  ((State.memoryOk_upCore (Core.loseEntries_lm ..)).2 (h.settle ..)).writeImage ..
@[simp] theorem State.memoryOk_parkEntry {s : State} (a : Actor) (core idx : Nat) : (s.parkEntry a core idx).memoryOk ↔ s.memoryOk := Iff.rfl
@[simp] theorem State.memoryOk.evictActor {s : State} (h : s.memoryOk) (core idx va : Nat) : (s.evictActor core idx va).memoryOk := by
  unfold State.evictActor
  split <;> simp [h]
@[simp] theorem State.memoryOk_moveMember {s : State} (a : Actor) (core idx : Nat) : (s.moveMember a core idx).memoryOk ↔ s.memoryOk := Iff.rfl
@[simp] theorem State.memoryOk_settleOwed {s : State} (a : Actor) : (s.settleOwed a).memoryOk ↔ s.memoryOk := Iff.rfl
@[simp] theorem State.memoryOk.loadActor {s : State} (h : s.memoryOk) (va idx : Nat) (hd : ImageHeader) (i : Option Image) (bp : Bool) :
    (s.loadActor va idx hd i bp).memoryOk := by
  have hs : (if s.c.m.ways < hd.ways then s.convert hd.ways else s).memoryOk := by
    split
    · exact h.convert _
    · exact h
  unfold State.loadActor
  simp only [State.memoryOk_reland, State.memoryOk_settleOwed, State.memoryOk_moveMember]
  refine hs.upCore _ fun hw => ?_
  have hc {p : Prop} [Decidable p] (c : Core) (a : Cim) : (if p then { c with arr := a } else c).m.lm = c.m.lm := by split <;> rfl
  refine (congrArg Memory.wf ?_).trans (Memory.wf_setGrans
    ((s.distReads hd.part (va + imageBase (hd.flags % 2 == 1)) ((hd.hi - hd.lo) * 1024)).getD []) _ (hd.lo * 1024) hw)
  split
  · exact (hc ..).trans (Core.lm_foldl (by intros; rfl) _ _)
  · exact (hc ..).trans (Core.lm_foldl (by intros; rfl) _ _)

/-! ## The distributor -/

@[simp] theorem State.memoryOk_tell {s : State} (i : HostItem) : (s.tell i).memoryOk ↔ s.memoryOk := Iff.rfl
@[simp] theorem State.memoryOk_upStage {s : State} (key : Nat) (f : Stage → Stage) : (s.upStage key f).memoryOk ↔ s.memoryOk := Iff.rfl
@[simp] theorem nextOk_execLqrsvRead {s : State} (h : s.memoryOk) (part queue : Nat) : NextOk (execLqrsvRead part queue s) := by
  refine nextOk_runEvent h (Keeps.bind (keeps_need _) fun _ => ?_)
  split
  · next e => exact keeps_set.2 ((State.memoryOk_tell _).2 (h.qTake e))
  · exact keeps_set.2 ((State.memoryOk_tell _).2 h)
@[simp] theorem nextOk_execLqtailWrite {s : State} (h : s.memoryOk) (part queue : Nat) (idx : Word) :
    NextOk (execLqtailWrite part queue idx s) := nextOk_runEvent h .steps
@[simp] theorem nextOk_execLaunchQueueSetup {s : State} (h : s.memoryOk) (part queue : Nat) (cb base : Word) (count : Nat) (enable : Bool) :
    NextOk (execLaunchQueueSetup part queue cb base count enable s) := nextOk_runEvent h .steps
@[simp] theorem nextOk_execDistributorTakeStage {s : State} (h : s.memoryOk) (part queue : Nat) :
    NextOk (execDistributorTakeStage part queue s) := nextOk_runEvent h .steps
@[simp] theorem State.memoryOk.placeOne {s : State} (h : s.memoryOk) (t : Stage) (gang rank : Nat) (e : GangEntry) (r : ActorRec) (q : Place) :
    (s.placeOne t gang rank e r q).memoryOk := by
  unfold State.placeOne
  refine (State.memoryOk_sendHw ..).2 (State.memoryOk.parkSet (State.memoryOk.parkSet ?_ ..) ..)
  refine (State.memoryOk_setAmap ..).2 ((State.memoryOk_upPart ..).2 (h.upCore _ fun hw => ?_))
  exact Memory.wf_relocate _ _ _ (Memory.wf_copyIn _ _ _ (Memory.wf_zero _ _ _ (Memory.wf_copyIn _ _ _ hw)))
@[simp] theorem State.memoryOk.placeAll {s : State} (h : s.memoryOk) (t : Stage) (gang : Nat) (e : GangEntry) (r : ActorRec) (l : Nat)
    (k : List Place) :
    (s.placeAll t gang e r l k).memoryOk := by
  induction k generalizing s t gang e r l with
  | nil => exact h
  | cons e r ih => simp [State.placeAll, ih, h]
@[simp] theorem State.memoryOk.evictGang {s : State} (h : s.memoryOk) (x : Nat × List Word) : (s.evictGang x).memoryOk := by
  unfold State.evictGang
  split
  · exact h
  · refine (State.memoryOk_upGang ..).2 (.foldl (fun u p hu => ?_) (.foldl (fun u m hu => ?_) h))
    · dsimp only
      split
      · split
        · exact State.memoryOk.evictActor ((State.memoryOk_parkEntry ..).2 hu) ..
        · exact hu
      · exact hu
    · split
      · exact (State.memoryOk_haltMember ..).2 hu
      · exact hu
theorem State.memoryOk.evictFor {s u : State} (h : s.memoryOk) {t : Stage} {e : GangEntry} {l : List (Nat × List Word)}
    (he : s.evictFor t e l = some u) : u.memoryOk := by
  induction l generalizing s with
  | nil => cases he; exact h
  | cons x r ih =>
    unfold State.evictFor at he
    split at he
    · exact ih (h.evictGang x) he
    · cases he
@[simp] theorem nextOk_execGangPlacement {s : State} (h : s.memoryOk) (stage gang : Nat) (places : List Place) (tags : List Nat)
    (evict : List (Nat × List Word)) : NextOk (execGangPlacement stage gang places tags evict s) := by
  refine nextOk_runEvent h (Keeps.needSome_bind fun t _ => Keeps.bind (keeps_need _) fun _ => Keeps.bind (keeps_need _) fun _ =>
    Keeps.needSome_bind fun e _ => keeps_ite.2 ⟨fun _ => .steps, fun _ => Keeps.needSome_bind fun r _ => Keeps.needSome_bind fun u hu => ?_⟩)
  have hp := (h.evictFor hu).placeAll t gang e r 0 places
  exact .steps
@[simp] theorem nextOk_execStageAgingExpiry {s : State} (h : s.memoryOk) (stage : Nat) :
    NextOk (execStageAgingExpiry stage s) := nextOk_runEvent h .steps
@[simp] theorem nextOk_execWeightReturnArrival {s : State} (h : s.memoryOk) (id : Nat) :
    NextOk (execWeightReturnArrival id s) := nextOk_runEvent h .steps
@[simp] theorem nextOk_execHostAccess {s : State} (h : s.memoryOk) (part : Nat) (va : Word) (len : Nat) (data : Option (List Byte)) :
    NextOk (execHostAccess part va len data s) := by
  refine nextOk_runEvent h (Keeps.bind (keeps_need _) fun _ => ?_)
  split
  · exact .steps
  · next xs _ =>
    have ht : (xs.foldl (fun u x => (u.visit (x.pa / 8)).noteSlot part x) s).memoryOk := .foldl (fun _ _ hu => by simp [hu]) h
    split
    · exact .steps
    · refine keeps_set.2 (.foldl (fun u p hu => ?_) ht)
      dsimp only
      split
      · exact hu
      · exact hu.homePut ..

/-! ## Copies -/

@[simp] theorem nextOk_execTlrdef {s : State} (h : s.memoryOk) (a d : BitVec 5) (l : BitVec 3) : NextOk (execTlrdef a d l s) := nextOk_finish h .steps
@[simp] theorem nextOk_execTlrfree {s : State} (h : s.memoryOk) (a d : BitVec 5) (l : BitVec 3) :
    NextOk (execTlrfree a d l s) := nextOk_finish h .steps
@[simp] theorem nextOk_copyWith {s : State} (h : s.memoryOk) (follow : Bool) (a d : BitVec 5) (l : BitVec 3) :
    NextOk (copyWith follow a d l s) := nextOk_finish h .steps
@[simp] theorem State.memoryOk_upCopy {s : State} (id : Nat) (f : Copy → Option Copy) : (s.upCopy id f).memoryOk ↔ s.memoryOk := Iff.rfl
@[simp] theorem nextOk_execCopyRequest {s : State} (h : s.memoryOk) (id : Nat) : NextOk (execCopyRequest id s) := nextOk_runEvent h .steps
@[simp] theorem State.memoryOk_carry {s : State} (c : Copy) (l : Option (Word × Nat)) : (s.carry c l).memoryOk ↔ s.memoryOk := by
  unfold State.carry
  split
  · rfl
  · split
    · rfl
    · next va _ _ =>
      have hw := s.memoryOk_walkers c.core c.part va.toNat
      split
      · next e => rw [e] at hw; exact hw
      · next e => rw [e] at hw; exact hw
@[simp] theorem State.memoryOk_carryPart {s : State} (c : Copy) (p : CopyPart) : (s.carryPart c p).memoryOk ↔ s.memoryOk := by simp [State.carryPart]
@[simp] theorem State.memoryOk_copyFault {s : State} (c : Copy) (p : CopyPart) (kind : Nat) (dst : Bool) (who code info : Nat) (va : Word)
    (elems : Nat) :
    (s.copyFault c p kind dst who code info va elems).memoryOk ↔ s.memoryOk := Iff.rfl
@[simp] theorem State.memoryOk_relock {s : State} (c : Copy) (lines : List Nat) : (s.relock c lines).memoryOk ↔ s.memoryOk := Iff.rfl
@[simp] theorem State.memoryOk.writeGroups {s : State} (h : s.memoryOk) (c : Copy) (p : CopyPart) (l : Tab (List Piece)) :
    (s.writeGroups c p l).memoryOk := by
  induction l generalizing s c p with
  | nil => exact h
  | cons e r ih => simp [State.writeGroups, ih, h]
@[simp] theorem State.memoryOk_copyDone {s : State} (c : Copy) : (s.copyDone c).memoryOk ↔ s.memoryOk := by
  unfold State.copyDone
  repeat' split
  all_goals simp [↓memoryOk_mk]
@[simp] theorem State.memoryOk.copyEnd {s : State} (h : s.memoryOk) (c : Copy) : (s.copyEnd c).memoryOk := by
  unfold State.copyEnd
  split <;> simp [h]
@[simp] theorem State.memoryOk.copyCheck {s : State} (h : s.memoryOk) (id : Nat) : (s.copyCheck id).memoryOk := by
  unfold State.copyCheck
  split <;> simp [h]
@[simp] theorem State.memoryOk_visitLines {s : State} (lines : List Nat) : (s.visitLines lines).memoryOk ↔ s.memoryOk :=
  memoryOk_foldl fun _ _ => State.memoryOk_visit _
@[simp] theorem nextOk_execCopyPart {s : State} (h : s.memoryOk) (id part : Nat) (err : Option Bool) :
    NextOk (execCopyPart id part err s) := nextOk_runEvent h .steps
@[simp] theorem State.memoryOk.landImage {s : State} (h : s.memoryOk) (core : Nat) (a : Actor) (c : Copy) :
    (s.landImage core a c).memoryOk := by simp [State.landImage, h, ↓memoryOk_mk]
@[simp] theorem nextOk_execCopyLanding {s : State} (h : s.memoryOk) (id part : Nat) : NextOk (execCopyLanding id part s) := nextOk_runEvent h .steps
@[simp] theorem nextOk_execCpatch {s : State} (h : s.memoryOk) (b a d : BitVec 5) (l : BitVec 3) :
    NextOk (execCpatch b a d l s) := nextOk_finish h .steps
@[simp] theorem nextOk_execCopyq {s : State} (h : s.memoryOk) (a d : BitVec 5) (l : BitVec 3) : NextOk (execCopyq a d l s) := nextOk_finish h .steps
@[simp] theorem nextOk_execCcancel {s : State} (h : s.memoryOk) (a d : BitVec 5) (l : BitVec 3) :
    NextOk (execCcancel a d l s) := nextOk_finish h .steps
@[simp] theorem nextOk_execPft {s : State} (h : s.memoryOk) (b a : BitVec 5) (l : BitVec 3) : NextOk (execPft b a l s) := by
  refine nextOk_finish h (Keeps.bind (keeps_issue _ _ _) fun r => Keeps.bind (keeps_readG _ _) fun g => Keeps.bind (keeps_readG _ _) fun w => ?_)
  split
  · exact .steps
  · refine keeps_ite.2 ⟨fun _ => Keeps.bind (keeps_modify.2 fun v hv => .foldl (fun u va hu => ?_) hv) fun _ => .steps, fun _ => .steps⟩
    split
    · exact hu
    · split
      · next e =>
        have ht := hu.translate e
        split
        · exact (State.memoryOk_visit _).2 (ht.fillCluster ..)
        · exact ht
      · next e => exact hu.translate e
@[simp] theorem State.memoryOk_swapDone {s : State} (w : Swap) : (s.swapDone w).memoryOk ↔ s.memoryOk := Iff.rfl
@[simp] theorem nextOk_execPageSwap {s : State} (h : s.memoryOk) (frame : Nat) : NextOk (execPageSwap frame s) := by
  have hc (lines : List Nat) := (State.memoryOk_countWaits (s := s) lines).2 h
  refine nextOk_runEvent h ?_
  dsimp only
  split
  · exact Keeps.needSome_bind fun r _ => Keeps.bind (keeps_need _) fun _ => Keeps.bind (keeps_need _) fun _ => keeps_set.2 (hc _)
  · exact keeps_ite.2 ⟨fun _ => Keeps.bind (keeps_need _) fun _ => keeps_set.2 (hc _), fun _ => .steps⟩

/-! ## Operations of the array -/

@[simp] theorem State.memoryOk_upArr {s : State} (n : Nat) (f : Cim → Cim) : (s.upArr n f).memoryOk ↔ s.memoryOk := by simp [State.upArr]
@[simp] theorem State.memoryOk_giveFlags {s : State} (n : Nat) (owner : Option (Nat × Option Nat)) (f : Flags) :
    (s.giveFlags n owner f).memoryOk ↔ s.memoryOk := by
  unfold State.giveFlags
  split
  · rfl
  · refine State.memoryOk_upCore ?_
    dsimp only
    split <;> rfl
@[simp] theorem State.memoryOk.doArrOp {s : State} (h : s.memoryOk) (n : Nat) (o : ArrOp) : (s.doArrOp n o).memoryOk := by
  have hg (f : Flags) := (State.memoryOk_giveFlags (s := s) n o.owner f).2 h
  unfold State.doArrOp
  dsimp only
  split
  · exact (State.memoryOk_upArr ..).2 h
  · split
    · exact (State.memoryOk_upCore (by rfl)).2 (hg _)
    · exact hg _
  · split
    · exact (hg _).upCore _ (Memory.wf_setGrans _ _ _)
    · exact (State.memoryOk_upCore (by rfl)).2 (hg _)
@[simp] theorem State.memoryOk.drainArr {s : State} (h : s.memoryOk) (n m : Nat) : (s.drainArr n m).memoryOk := by
  induction m generalizing s with
  | zero => exact h
  | succ m ih =>
    unfold State.drainArr
    dsimp only
    split
    · exact ih (((State.memoryOk_upArr ..).2 h).doArrOp ..)
    · exact (State.memoryOk_upArr ..).2 h
@[simp] theorem State.memoryOk.addArrOp {s : State} (h : s.memoryOk) (n : Nat) (o : ArrOp) : (s.addArrOp n o).memoryOk := by simp [State.addArrOp, h]
@[simp] theorem State.memoryOk.endArrOp {s : State} (h : s.memoryOk) (n : Nat) (o : ArrOp) : (s.endArrOp n o).memoryOk := by simp [State.endArrOp, h]
@[simp] theorem State.memoryOk_upArrOp {s : State} (n id : Nat) (f : ArrOp → ArrOp) :
    (s.upArrOp n id f).memoryOk ↔ s.memoryOk := by simp [State.upArrOp]
@[simp] theorem State.memoryOk_matrixBank {s : State} (n : Nat) (o : ArrOp) (told : List Nat) (l : List (Nat × BitVec 8 × Word)) :
    (s.matrixBank n o told l).memoryOk ↔ s.memoryOk := by
  induction l generalizing s with
  | nil => rfl
  | cons k r ih =>
    refine ih.trans ?_
    split
    · rfl
    · split <;> rfl
@[simp] theorem State.memoryOk_arrRows {s : State} (n : Nat) (o : ArrOp) (bank : Bool) (errs : BitVec 8) (told : List Nat) (first : Nat)
    (rows : List ARow) (e : ArrayErrors) : (s.arrRows n o bank errs told first rows e).1.memoryOk ↔ s.memoryOk :=
  (State.memoryOk_matrixBank ..).trans ((State.memoryOk_upCore (by rfl)).trans (State.memoryOk_upArr ..))
@[simp] theorem State.memoryOk_tileErrors {s : State} (n : Nat) (e : ArrayErrors) :
    (s.tileErrors n e).memoryOk ↔ s.memoryOk := by simp -implicitDefEqProofs [State.tileErrors]

/-! ## Matrix instructions and events -/

@[simp] theorem keeps_matrixTrap {α : Type} (cause : Nat) (info : Word) : Keeps (matrixTrap cause info : M α) := fun _ _ => trivial
@[simp] theorem keeps_orMatrix (b : Bool) (cause : Nat) (info : Word) : Keeps (orMatrix b cause info) := by simp [orMatrix]
@[simp] theorem keeps_arrayOf (z : Word) : Keeps (arrayOf z) := by
  unfold arrayOf
  exact .steps
@[simp] theorem keeps_matrixIssue (m : Nat) (w : Word) (l : BitVec 3) (rd : List RegId) (z : Word) : Keeps (matrixIssue m w l rd z) := by
  unfold matrixIssue
  exact .steps
@[simp] theorem keeps_rangeFaults (kind : Nat) (a : Word) (l : Nat) : Keeps (rangeFaults kind a l) := by
  induction l generalizing kind a with
  | zero => simp [rangeFaults]
  | succ n ih =>
    unfold rangeFaults
    exact .steps
@[simp] theorem keeps_alignTo (a : Word) (n : Nat) : Keeps (alignTo a n) := by simp [alignTo]
@[simp] theorem keeps_pushOp (o : ArrOp) : Keeps (pushOp o) := by
  unfold pushOp
  exact .steps
@[simp] theorem keeps_loadB (sp : BitVec 2) (f : Fmt) (ta : Word) (sa : Option Word) (pc : Word) (owner : Option (Nat × Option Nat)) :
    Keeps (loadB sp f ta sa pc owner) := by
  unfold loadB
  exact .steps
@[simp] theorem nextOk_mldbWith {s : State} (h : s.memoryOk) (sp : BitVec 2) (b a : BitVec 5) (f : Fmt) (l : BitVec 3) :
    NextOk (mldbWith sp b a f l s) := nextOk_finish h .steps
@[simp] theorem nextOk_execMatrixLoadComplete {s : State} (h : s.memoryOk) (core : Nat) :
    NextOk (execMatrixLoadComplete core s) := nextOk_runEvent h .steps
@[simp] theorem nextOk_execMswap {s : State} (h : s.memoryOk) (l : BitVec 3) : NextOk (execMswap l s) := nextOk_finish h .steps
@[simp] theorem nextOk_execMscale {s : State} (h : s.memoryOk) (m : Bool) (a : BitVec 5) (l : BitVec 3) :
    NextOk (execMscale m a l s) := nextOk_finish h .steps
@[simp] theorem keeps_setKind (z : Bool) (k : BitVec 2) : Keeps (setKind z k) := by simp [setKind]
@[simp] theorem nextOk_execMzero {s : State} (h : s.memoryOk) (z : BitVec 1) (l : BitVec 3) : NextOk (execMzero z l s) := nextOk_finish h .steps
@[simp] theorem keeps_needRows (w : Word) (extra : Bool) (z : Word) : Keeps (needRows w extra z) := by
  unfold needRows
  exact .steps
@[simp] theorem keeps_sourceSlot (k : Nat) : Keeps (sourceSlot k) := by
  unfold sourceSlot
  exact .steps
@[simp] theorem keeps_enoughElems (k n : Nat) : Keeps (enoughElems k n) := by
  unfold enoughElems
  refine Keeps.get_bind fun s h => ?_
  dsimp only
  split
  · simp
  · exact .steps
@[simp] theorem keeps_multiply (sparse : Bool) (f : Fmt) (z : Bool) (src : Word ⊕ Nat) (rows pc : Word) (owner : Option (Nat × Option Nat)) :
    Keeps (multiply sparse f z src rows pc owner) := by
  unfold multiply
  exact .steps
@[simp] theorem nextOk_mmaWith {s : State} (h : s.memoryOk) (sparse m : Bool) (b a : BitVec 5) (e : Fmt) (z : BitVec 1) (l : BitVec 3) :
    NextOk (mmaWith sparse m b a e z l s) := nextOk_finish h .steps
@[simp] theorem nextOk_execMoutl {s : State} (h : s.memoryOk) (b a : BitVec 5) (e : Fmt) (z : BitVec 1) (l : BitVec 3) :
    NextOk (execMoutl b a e z l s) := nextOk_finish h .steps
@[simp] theorem State.memoryOk.finishOp {s : State} (h : s.memoryOk) (n id : Nat) : (s.finishOp n id).memoryOk := by
  unfold State.finishOp
  split <;> simp [h]
@[simp] theorem nextOk_execMmaComplete {s : State} (h : s.memoryOk) (core : Nat) (errs : ArrayErrors) :
    NextOk (execMmaComplete core errs s) := nextOk_runEvent h .steps
@[simp] theorem nextOk_execQuadMmaReceive {s : State} (h : s.memoryOk) (core : Nat) (errs : ArrayErrors) :
    NextOk (execQuadMmaReceive core errs s) := nextOk_runEvent h .steps
@[simp] theorem keeps_needScales (sc : Bool) (z : Word) : Keeps (needScales sc z) := by
  unfold needScales
  exact .steps
@[simp] theorem nextOk_execMrdz {s : State} (h : s.memoryOk) (m : Bool) (b a : BitVec 5) (e : Fmt) (z : BitVec 1) (l : BitVec 3) :
    NextOk (execMrdz m b a e z l s) := nextOk_finish h .steps
@[simp] theorem nextOk_execMstz {s : State} (h : s.memoryOk) (m : Bool) (b a : BitVec 5) (e : Fmt) (z : BitVec 1) (l : BitVec 3) :
    NextOk (execMstz m b a e z l s) := nextOk_finish h .steps
@[simp] theorem nextOk_execMdrain {s : State} (h : s.memoryOk) (t : BitVec 2) (m : Bool) (b a : BitVec 5) (e : Fmt) (z : BitVec 1) (l : BitVec 3) :
    NextOk (execMdrain t m b a e z l s) := nextOk_finish h .steps
@[simp] theorem nextOk_execMwait {s : State} (h : s.memoryOk) (z : BitVec 1) (l : BitVec 3) : NextOk (execMwait z l s) := nextOk_finish h .steps
@[simp] theorem nextOk_execMquad {s : State} (h : s.memoryOk) (a : BitVec 5) (l : BitVec 3) : NextOk (execMquad a l s) := nextOk_finish h .steps

/-! ## Follow-ons -/

@[simp] theorem State.memoryOk_followCtx {s : State} (core idx : Nat) : (s.followCtx core idx).memoryOk ↔ s.memoryOk := by
  unfold State.followCtx
  simp -implicitDefEqProofs [↓memoryOk_mk]
@[simp] theorem State.memoryOk_followEnd {s t : State} (core : Nat) : (s.followEnd t core).memoryOk ↔ t.memoryOk :=
  memoryOk_mk.trans (State.memoryOk_upCore (by rfl))
@[simp] theorem keeps_needArray (m fw : Nat) : Keeps (needArray m fw) := by
  unfold needArray
  exact .steps
@[simp] theorem keeps_sendFollow {m : M Nat} (hm : Keeps m) : Keeps (sendFollow m) := hm.bind fun _ => keeps_waitUntil _
@[simp] theorem keeps_followDo (f : Follow) (fw : Nat) (fa fb fd : Word) : Keeps (followDo f fw fa fb fd) := by
  unfold followDo
  exact .steps
@[simp] theorem State.memoryOk_followFault {s : State} (c : Copy) (core code info : Nat) :
    (s.followFault c core code info).memoryOk ↔ s.memoryOk := Iff.rfl
@[simp] theorem nextOk_execCopyfFollowon {s : State} (h : s.memoryOk) (id : Nat) : NextOk (execCopyfFollowon id s) := by
  refine nextOk_runEvent h (Keeps.needSome_bind fun c _ => Keeps.bind (keeps_need _) fun _ => Keeps.needSome_bind fun f _ =>
    Keeps.needSome_bind fun p _ => Keeps.needSome_bind fun a _ => Keeps.bind (keeps_need _) fun _ => ?_)
  dsimp only
  split
  · next e =>
    have ht := (keeps_followDo _ _ _ _ _).ok_of_eq ((State.memoryOk_followCtx ..).2 h) e
    exact .steps
  · exact .steps
  · exact .steps

/-! ## CSRs -/

@[simp] theorem State.memoryOk_upTrap {s : State} (f : TrapRegs → TrapRegs) : (s.upTrap f).memoryOk ↔ s.memoryOk := by simp [State.upTrap]
@[simp] theorem State.memoryOk_upCsrs {s : State} (f : ActorCsrs → ActorCsrs) : (s.upCsrs f).memoryOk ↔ s.memoryOk := by simp [State.upCsrs]
@[simp] theorem State.memoryOk_writeLc {s : State} (v : Word) : (s.writeLc v).memoryOk ↔ s.memoryOk := by simp [State.writeLc]
@[simp] theorem State.memoryOk_writeAsg {s : State} (idx : Nat) (v : Word) : (s.writeAsg idx v).memoryOk ↔ s.memoryOk := by
  unfold State.writeAsg
  repeat' split
  all_goals simp -implicitDefEqProofs
@[simp] theorem State.memoryOk_writeCsr {s : State} (sup : Bool) (v : Word) (l : Csr) : (s.writeCsr sup v l).memoryOk ↔ s.memoryOk := by
  unfold State.writeCsr
  repeat' split
  all_goals simp
@[simp] theorem keeps_privTrap {α : Type} (n w : Nat) : Keeps (privTrap n w : M α) := fun _ _ => trivial
@[simp] theorem nextOk_csrWith {s : State} (h : s.memoryOk) (fn : Nat) (c : Csr) (a d : BitVec 5) (l : BitVec 3) :
    NextOk (csrWith fn c a d l s) := nextOk_finish h .steps
@[simp] theorem nextOk_execAsgWrite {s : State} (h : s.memoryOk) (idx : BitVec 4) (val : Word) : NextOk (execAsgWrite idx val s) := by
  unfold execAsgWrite
  simp [h]
@[simp] theorem nextOk_execLcWrite {s : State} (h : s.memoryOk) (val : Word) : NextOk (execLcWrite val s) := by
  unfold execLcWrite
  simp [h]

/-! ## System instructions -/

@[simp] theorem keeps_supIssue (m fn b a d : Nat) (l : BitVec 3) (rd : List RegId) : Keeps (supIssue m fn b a d l rd) := by
  unfold supIssue
  exact .steps
@[simp] theorem keeps_statusM (d : BitVec 5) (n : Nat) : Keeps (statusM d n) := by
  unfold statusM
  exact .steps
@[simp] theorem State.memoryOk_haltGang {s : State} (g : Gang) : (s.haltGang g).memoryOk ↔ s.memoryOk := by simp [State.haltGang]
@[simp] theorem State.memoryOk.settleGang {s : State} (h : s.memoryOk) (g : Gang) : (s.settleGang g).memoryOk := by
  unfold State.settleGang
  dsimp only
  rw [State.memoryOk_upX, State.memoryOk_upGang]
  exact State.memoryOk.foldl (fun _ _ h => h.settle ..) ((State.memoryOk_haltGang g).2 h)
@[simp] theorem nextOk_execGstop {s : State} (h : s.memoryOk) (a d : BitVec 5) (l : BitVec 3) : NextOk (execGstop a d l s) := nextOk_finish h .steps
@[simp] theorem State.memoryOk.replayAll {s : State} (h : s.memoryOk) (core idx n : Nat) : (s.replayAll core idx n).memoryOk := by
  induction n generalizing s with
  | zero => exact h
  | succ n ih =>
    unfold State.replayAll
    split
    · next e => exact ih (h.replayOne e)
    · exact h
@[simp] theorem State.memoryOk.resumeMember {s : State} (h : s.memoryOk) (core idx : Nat) : (s.resumeMember core idx).memoryOk := by
  unfold State.resumeMember
  split
  · exact h
  · rw [State.memoryOk_upCore (Core.lm_foldl (by intros; rfl) _ _), State.memoryOk_endReplay]
    exact ((State.memoryOk_upActor ..).2 h).replayAll ..
@[simp] theorem nextOk_execGresume {s : State} (h : s.memoryOk) (a d : BitVec 5) (l : BitVec 3) : NextOk (execGresume a d l s) := by
  have hr (g : Gang) {u : State} (hu : u.memoryOk) : ((s.residents g).foldl (fun u p => u.resumeMember p.1 p.2) u).memoryOk :=
    .foldl (fun _ _ ht => ht.resumeMember _ _) hu
  exact nextOk_finish h .steps
@[simp] theorem nextOk_execCtxsave {s : State} (h : s.memoryOk) (b a d : BitVec 5) (l : BitVec 3) :
    NextOk (execCtxsave b a d l s) := nextOk_finish h .steps
@[simp] theorem nextOk_execEvict {s : State} (h : s.memoryOk) (b a d : BitVec 5) (l : BitVec 3) :
    NextOk (execEvict b a d l s) := nextOk_finish h .steps
@[simp] theorem nextOk_execCtxload {s : State} (h : s.memoryOk) (b a d : BitVec 5) (l : BitVec 3) :
    NextOk (execCtxload b a d l s) := nextOk_finish h .steps
@[simp] theorem State.memoryOk_restoreEntry {s : State} (idx : Nat) : (s.restoreEntry idx).memoryOk ↔ s.memoryOk := by
  unfold State.restoreEntry
  split <;> simp
@[simp] theorem nextOk_execRestore {s : State} (h : s.memoryOk) (b a d : BitVec 5) (l : BitVec 3) :
    NextOk (execRestore b a d l s) := nextOk_finish h .steps
@[simp] theorem nextOk_execTret {s : State} (h : s.memoryOk) (a : BitVec 5) (l : BitVec 3) : NextOk (execTret a l s) := nextOk_finish h .steps
@[simp] theorem State.memoryOk_dropTlb {s : State} (sc : Nat) (p : Tlb → Bool) : (s.dropTlb sc p).memoryOk ↔ s.memoryOk := by
  unfold State.dropTlb
  repeat' split
  all_goals simp [↓memoryOk_mk]
@[simp] theorem keeps_invalidate {s : State} (h : s.memoryOk) (sc : Word) (page : Option Word) (d : BitVec 5) : Keeps (invalidate sc page d s) := by
  unfold invalidate
  exact .steps
@[simp] theorem nextOk_execTlbinv {s : State} (h : s.memoryOk) (b a d : BitVec 5) (l : BitVec 3) :
    NextOk (execTlbinv b a d l s) := nextOk_finish h .steps
@[simp] theorem nextOk_execTlbinva {s : State} (h : s.memoryOk) (a d : BitVec 5) (l : BitVec 3) :
    NextOk (execTlbinva a d l s) := nextOk_finish h .steps
@[simp] theorem nextOk_execPageq {s : State} (h : s.memoryOk) (a d : BitVec 5) (l : BitVec 3) : NextOk (execPageq a d l s) := nextOk_finish h .steps
@[simp] theorem State.memoryOk.setXb {s : State} (h : s.memoryOk) (n b : Nat) : (s.setXb n b).memoryOk := by
  refine h.upCore n fun hc => ?_
  dsimp only
  split
  · exact Memory.wf_zero _ _ _ hc
  · exact hc
@[simp] theorem nextOk_execXbset {s : State} (h : s.memoryOk) (a d : BitVec 5) (l : BitVec 3) : NextOk (execXbset a d l s) := nextOk_finish h .steps
@[simp] theorem nextOk_execAmapset {s : State} (h : s.memoryOk) (b a d : BitVec 5) (l : BitVec 3) :
    NextOk (execAmapset b a d l s) := nextOk_finish h .steps

/-! ## The device -/

@[simp] theorem nextOk_execPowerOn {s : State} (h : s.memoryOk) (r : Fratre) (genuine : Bool) :
    NextOk (execPowerOn r genuine s) := nextOk_runEvent h .steps
@[simp] theorem nextOk_execFunctionReady {s : State} (h : s.memoryOk) (f : Fn) : NextOk (execFunctionReady f s) := nextOk_runEvent h .steps
@[simp] theorem State.memoryOk_haltStage {s : State} (key : Nat) : (s.haltStage key).memoryOk ↔ s.memoryOk := by simp [State.haltStage]
@[simp] theorem State.memoryOk_dropStage {s : State} (key : Nat) : (s.dropStage key).memoryOk ↔ s.memoryOk := by simp [State.dropStage, ↓memoryOk_mk]
@[simp] theorem State.memoryOk_freeStages {s : State} (keys : List Nat) : (s.freeStages keys).memoryOk ↔ s.memoryOk := by
  refine (memoryOk_foldl fun s k => ?_).trans (memoryOk_foldl fun _ _ => State.memoryOk_haltStage _)
  split
  · rfl
  · exact State.memoryOk_dropStage k
@[simp] theorem nextOk_execFunctionFailure {s : State} (h : s.memoryOk) (f : Fn) : NextOk (execFunctionFailure f s) := nextOk_runEvent h .steps
@[simp] theorem nextOk_execFlitReceive {s : State} (h : s.memoryOk) (link : Nat) (good : Bool) :
    NextOk (execFlitReceive link good s) := nextOk_runEvent h .steps
@[simp] theorem nextOk_execLinkFailure {s : State} (h : s.memoryOk) (link : Nat) : NextOk (execLinkFailure link s) := nextOk_runEvent h .steps
@[simp] theorem nextOk_execMonitorSample {s : State} (h : s.memoryOk) (site : MonitorSite) (temp volt proc : Int) :
    NextOk (execMonitorSample site temp volt proc s) := by
  have hcores {u : State} (ns : List Nat) (hu : u.memoryOk) :
      (ns.foldl (fun u n => u.upCore n fun c => { c with throttled := 105 ≤ temp }) u).memoryOk :=
    .foldl (fun _ _ h => (State.memoryOk_upCore rfl).2 h) hu
  have hhalt {u : State} (gs : List Gang) (hu : u.memoryOk) :
      (gs.foldl (fun u g => (u.residents g).foldl (fun u p => u.haltMember p.1 p.2 none) u) u).memoryOk :=
    .foldl (fun _ _ h => .foldl (fun _ _ h => (State.memoryOk_haltMember ..).2 h) h) hu
  refine nextOk_runEvent h (Keeps.bind (keeps_need _) fun _ => keeps_ite.2 ⟨fun _ => ?_, fun _ => keeps_ite.2 ⟨fun _ => ?_, fun _ => ?_⟩⟩)
  · exact keeps_set.2 (hcores _ h)
  · refine keeps_set.2 (memoryOk_mk.2 (.foldl (fun u g hu => ?_) (hhalt _ (hcores _ h))))
    split
    · exact hu.evictGang _
    · exact hu
  · exact keeps_set.2 (hhalt _ (hcores _ h))
@[simp] theorem nextOk_execRampWindowExpiry {s : State} (h : s.memoryOk) (slate demand : Nat) :
    NextOk (execRampWindowExpiry slate demand s) := nextOk_runEvent h .steps
@[simp] theorem nextOk_execPartitionCreate {s : State} (h : s.memoryOk) (part : Nat) : NextOk (execPartitionCreate part s) := nextOk_runEvent h .steps
@[simp] theorem State.memoryOk_assignFrame {s : State} (part f : Nat) : (s.assignFrame part f).memoryOk ↔ s.memoryOk := Iff.rfl
@[simp] theorem nextOk_execPartitionActivate {s : State} (h : s.memoryOk) (part : Nat) (p : PartSetup) :
    NextOk (execPartitionActivate part p s) := nextOk_runEvent h .steps
@[simp] theorem nextOk_execPartitionFree {s : State} (h : s.memoryOk) (part : Nat) : NextOk (execPartitionFree part s) := nextOk_runEvent h .steps
@[simp] theorem State.memoryOk_forgetFrames {s : State} (part : Nat) (fs : List Nat) : (s.forgetFrames part fs).memoryOk ↔ s.memoryOk :=
  State.memoryOk_congr rfl (lm_tget_map (fun ⟨_, _⟩ => rfl) (fun ⟨_, _⟩ => rfl) s.cores)
@[simp] theorem nextOk_execPartitionErase {s : State} (h : s.memoryOk) (part : Nat) : NextOk (execPartitionErase part s) := nextOk_runEvent h .steps
@[simp] theorem nextOk_execEraseComplete {s : State} (h : s.memoryOk) (part : Nat) : NextOk (execEraseComplete part s) := nextOk_runEvent h .steps
@[simp] theorem nextOk_execKeySlotGenerate {s : State} (h : s.memoryOk) (part slot : Nat) :
    NextOk (execKeySlotGenerate part slot s) := nextOk_runEvent h .steps
@[simp] theorem nextOk_execKeySlotDiscard {s : State} (h : s.memoryOk) (part slot : Nat) :
    NextOk (execKeySlotDiscard part slot s) := nextOk_runEvent h .steps
@[simp] theorem nextOk_execFrameAssign {s : State} (h : s.memoryOk) (frame part : Nat) :
    NextOk (execFrameAssign frame part s) := nextOk_runEvent h .steps
@[simp] theorem nextOk_execCheckpointExport {s : State} (h : s.memoryOk) (req : CkRequest) :
    NextOk (execCheckpointExport req s) := nextOk_runEvent h .steps
@[simp] theorem State.memoryOk.putFrame {s : State} (h : s.memoryOk) (key : BitVec 512) (k : CkFrame) : (s.putFrame key k).memoryOk := by
  have hz := Memory.wf_zero s.home.mem (1024 * k.frame) 1024 h.1
  refine ⟨?_, h.2⟩
  unfold State.putFrame
  dsimp only
  split
  · exact hz
  · split
    · exact Memory.wf_foldl (fun m _ hm => Memory.wf_setSeal m _ _ hm) _ (Memory.wf_foldl (fun m _ hm => Memory.wf_setByte m _ _ hm) _ hz)
    · exact Memory.wf_setGrans _ _ _ hz
@[simp] theorem nextOk_execCheckpointImport {s : State} (h : s.memoryOk) (req : CkRequest) (frames : List CkFrame) :
    NextOk (execCheckpointImport req frames s) :=
  nextOk_runEvent h (Keeps.bind (keeps_need _) fun _ => keeps_set.2 (State.memoryOk.foldl (fun _ _ h => h.putFrame _ _) h))
@[simp] theorem nextOk_execAttestationReport {s : State} (h : s.memoryOk) (nonce : Word) :
    NextOk (execAttestationReport nonce s) := nextOk_runEvent h .steps
@[simp] theorem nextOk_execIllegalEncoding {s : State} (h : s.memoryOk) (e : DecodeError) (word : BitVec 32) (half : Bool) :
    NextOk (execIllegalEncoding e word half s) := by
  unfold execIllegalEncoding
  dsimp only
  repeat' split
  all_goals simp -implicitDefEqProofs [h, ↓memoryOk_mk]
@[simp] theorem nextOk_execVariableLatencyResult {s : State} (h : s.memoryOk) (core ctx id : Nat) :
    NextOk (execVariableLatencyResult core ctx id s) := nextOk_runEvent h .steps

/-! ## Scalar instructions -/

@[simp] theorem nextOk_alu2 {s : State} (h : s.memoryOk) (lat : Nat) (f : Word → Word → Word) (b a d : BitVec 5) (l : BitVec 3) :
    NextOk (alu2 lat f b a d l s) := nextOk_finish h .steps
@[simp] theorem nextOk_alu3 {s : State} (h : s.memoryOk) (lat : Nat) (f : Word → Word → Word → Word) (b a d : BitVec 5) (l : BitVec 3) :
    NextOk (alu3 lat f b a d l s) := nextOk_finish h .steps
@[simp] theorem nextOk_alu1 {s : State} (h : s.memoryOk) (len : Nat) (f : Word → Word) (a d : BitVec 5) (l : BitVec 3) :
    NextOk (alu1 len f a d l s) := nextOk_finish h .steps
@[simp] theorem nextOk_aluDiv {s : State} (h : s.memoryOk) (f : Word → Word → Word) (b a d : BitVec 5) (l : BitVec 3) :
    NextOk (aluDiv f b a d l s) := nextOk_finish h .steps
@[simp] theorem nextOk_move {s : State} (h : s.memoryOk) (len : Nat) (a d : BitVec 5) (l : BitVec 3) :
    NextOk (move len a d l s) := nextOk_finish h .steps
@[simp] theorem nextOk_constG {s : State} (h : s.memoryOk) (len : Nat) (w : Word) (d : BitVec 5) (l : BitVec 3) :
    NextOk (constG len w d l s) := nextOk_finish h .steps
@[simp] theorem nextOk_execOr {s : State} (h : s.memoryOk) (b a d : BitVec 5) (l : BitVec 3) : NextOk (execOr b a d l s) := by
  unfold execOr
  split <;> simp [h]

/-! ## Stream events -/

@[simp] theorem State.memoryOk_haltSlot {s : State} (n k e : Nat) : (s.haltSlot n k e).memoryOk ↔ s.memoryOk := by simp [State.haltSlot]
@[simp] theorem State.memoryOk_haltChain {s : State} (n k e : Nat) : (s.haltChain n k e).memoryOk ↔ s.memoryOk := by
  unfold State.haltChain
  repeat' split
  all_goals simp
@[simp] theorem State.memoryOk_elemFault {s : State} (n k kind e : Nat) (va : Word) (home : Nat) :
    (s.elemFault n k kind e va home).memoryOk ↔ s.memoryOk := by
  unfold State.elemFault
  split <;> simp
theorem State.memoryOk_streamXlat {s : State} (n k part va : Nat) : (s.streamXlat n k part va).2.memoryOk ↔ s.memoryOk := by
  have hw := s.memoryOk_walkers n part va
  unfold State.streamXlat
  split
  · exact State.memoryOk_noteSlot ..
  · split
    · next e => rw [e] at hw; exact hw
    · next e => rw [e] at hw; exact (State.memoryOk_noteSlot ..).trans ((State.memoryOk_upStream ..).trans hw)
theorem State.memoryOk.place {s u : State} (h : s.memoryOk) {n k : Nat} {va : Word} {w : Bool} {r : Except (Nat × Nat) Xlat}
    (e : s.place n k va w = some (r, u)) : u.memoryOk := by
  have hx := (s.memoryOk_streamXlat n k (s.core n).partNo va.toNat).2 h
  unfold State.place at e
  dsimp only at e
  split at e
  · cases e; exact h
  · split at e
    · cases e
    · cases e; exact h
    · next ex =>
      rw [ex] at hx
      split at e
      · cases e; exact h
      · split at e
        · cases e; exact h
        · cases e; exact hx
@[simp] theorem State.memoryOk.streamPut {s : State} (h : s.memoryOk) (n k unit : Nat) (va : Word) (gr : Nat) (r : Word × Byte × Byte) :
    (s.streamPut n k unit va gr r).memoryOk := by
  unfold State.streamPut
  repeat' split
  all_goals simp [h]
@[simp] theorem State.memoryOk_passElems {s : State} (n k m : Nat) : (s.passElems n k m).memoryOk ↔ s.memoryOk := by simp [State.passElems]
@[simp] theorem keeps_pullIndex {s : State} (h : s.memoryOk) (n k : Nat) : Keeps (s.pullIndex n k) := by
  unfold State.pullIndex
  exact .steps
@[simp] theorem keeps_readElem {s : State} (h : s.memoryOk) (n k : Nat) (err : Bool) : Keeps (s.readElem n k err) := by
  unfold State.readElem
  refine Keeps.needSome_bind fun q _ => ?_
  refine Keeps.bind (keeps_need _) fun _ => Keeps.needSome_bind fun r e => ?_
  have hu := h.place e
  exact .steps
@[simp] theorem keeps_drainElem {s : State} (h : s.memoryOk) (n k : Nat) (err : Bool) : Keeps (s.drainElem n k err) := by
  unfold State.drainElem
  refine Keeps.bind (keeps_need _) fun _ => keeps_ite.2 ⟨fun _ => .steps, fun _ => ?_⟩
  refine Keeps.needSome_bind fun _ _ => Keeps.needSome_bind fun _ _ => Keeps.needSome_bind fun r e => ?_
  have hu := h.place e
  exact .steps
@[simp] theorem State.memoryOk_passBoth {s : State} (n k m : Nat) : (s.passBoth n k m).memoryOk ↔ s.memoryOk := by simp [State.passBoth]
@[simp] theorem keeps_updateRead {s : State} (h : s.memoryOk) (n k : Nat) (err : Bool) : Keeps (s.updateRead n k err) := by
  unfold State.updateRead
  refine Keeps.bind (keeps_need _) fun _ => keeps_ite.2 ⟨fun _ => .steps, fun _ => ?_⟩
  refine Keeps.bind (keeps_need _) fun _ => Keeps.needSome_bind fun _ _ => Keeps.needSome_bind fun r e => ?_
  have hu := h.place e
  exact .steps
@[simp] theorem keeps_updateSecond {s : State} (h : s.memoryOk) (n k : Nat) (hf : Half) (err : Bool) : Keeps (s.updateSecond n k hf err) := by
  unfold State.updateSecond
  refine Keeps.needSome_bind fun _ _ => Keeps.needSome_bind fun r e => ?_
  have hu := h.place e
  exact .steps
@[simp] theorem keeps_updateWrite {s : State} (hs : s.memoryOk) (n k : Nat) (h : Half) (y2 : Nat × Byte) (err : Bool) :
    Keeps (s.updateWrite n k h y2 err) := by
  unfold State.updateWrite
  exact .steps
@[simp] theorem keeps_updateElem {s : State} (h : s.memoryOk) (n k : Nat) (err : Bool) : Keeps (s.updateElem n k err) := by
  unfold State.updateElem
  dsimp only
  split
  · exact keeps_updateRead h _ _ _
  · refine keeps_ite.2 ⟨fun _ => ?_, fun _ => keeps_updateWrite h _ _ _ _ _⟩
    split
    · exact keeps_updateSecond h _ _ _ _
    · exact keeps_updateWrite h _ _ _ _ _
@[simp] theorem keeps_element {s : State} (h : s.memoryOk) (n k : Nat) (err : Bool) : Keeps (s.element n k err) := by
  unfold State.element
  exact .steps
@[simp] theorem nextOk_execStreamElement {s : State} (h : s.memoryOk) (core slot : Nat) (err : Bool) :
    NextOk (execStreamElement core slot err s) := nextOk_runEvent h .steps
@[simp] theorem keeps_wholeElem {s : State} (h : s.memoryOk) (core slot n : Nat) : Keeps (s.wholeElem core slot n) := by
  induction n generalizing s with
  | zero => exact keeps_set.2 h
  | succ n ih =>
    refine Keeps.bind (keeps_updateElem h _ _ _) fun _ => Keeps.get_bind fun u hu => keeps_ite.2 ⟨fun _ => ih hu, fun _ => keeps_pure _⟩
@[simp] theorem keeps_elements {s : State} (h : s.memoryOk) (core slot n : Nat) : Keeps (s.elements core slot n) := by
  induction n generalizing s with
  | zero => exact keeps_set.2 h
  | succ n ih =>
    exact Keeps.bind (keeps_need _) fun _ => Keeps.bind (keeps_wholeElem h _ _ _) fun _ => Keeps.get_bind fun u hu => ih hu
@[simp] theorem nextOk_execNbuRowOperation {s : State} (h : s.memoryOk) (core slot n : Nat) :
    NextOk (execNbuRowOperation core slot n s) := nextOk_runEvent h .steps
@[simp] theorem nextOk_execStreamMove {s : State} (h : s.memoryOk) (core slot : Nat) (loc : BitVec 2) (locId : Nat) :
    NextOk (execStreamMove core slot loc locId s) := nextOk_runEvent h .steps
@[simp] theorem nextOk_execStreamPatchArrival {s : State} (h : s.memoryOk) (core id : Nat) :
    NextOk (execStreamPatchArrival core id s) := nextOk_runEvent h .steps
@[simp] theorem nextOk_execFrontierAck {s : State} (h : s.memoryOk) (core slot : Nat) :
    NextOk (execFrontierAck core slot s) := nextOk_runEvent h .steps

/-! ## Vector instructions -/

@[simp] theorem keeps_vrun (lat : Option Nat) (a b d : BitVec 5) (o : VSrc) (pas pbs pds : List Nat) (w : Nat → LaneW) (fl : Flags) :
    Keeps (vrun lat a b d o pas pbs pds w fl) := by
  unfold vrun
  exact .steps
@[simp] theorem nextOk_vop {s : State} (h : s.memoryOk) (lat : Option Nat) (useB useD compact : Bool)
    (f : BitVec 32 → BitVec 32 → BitVec 32 → BitVec 32 × Flags) (k : BitVec 3) (b a d : BitVec 5) (l : BitVec 3) :
    NextOk (vop lat useB useD compact f k b a d l s) := nextOk_finish h .steps
@[simp] theorem nextOk_vcmp {s : State} (h : s.memoryOk) (useB : Bool) (p : BitVec 32 → BitVec 32 → Bool) (k : BitVec 3) (b a : BitVec 5)
    (d l : BitVec 3) :
    NextOk (vcmp useB p k b a d l s) := nextOk_finish h .steps
@[simp] theorem keeps_vmoves (d a b : BitVec 5) (o : VSrc) (psB : List Nat) (w : Nat → LaneW) : Keeps (vmoves d a b o psB w) := by simp [vmoves]
@[simp] theorem nextOk_vmovWith {s : State} (h : s.memoryOk) (compact : Bool) (k : BitVec 3) (a d : BitVec 5) (l : BitVec 3) :
    NextOk (vmovWith compact k a d l s) := nextOk_finish h .steps
@[simp] theorem nextOk_vnarrow {s : State} (h : s.memoryOk) (f : Fmt) (k : BitVec 3) (b a d : BitVec 5) (l : BitVec 3) :
    NextOk (vnarrow f k b a d l s) := nextOk_finish h .steps
@[simp] theorem nextOk_vwiden {s : State} (h : s.memoryOk) (f : Fmt) (k : BitVec 3) (a d : BitVec 5) (l : BitVec 3) :
    NextOk (vwiden f k a d l s) := nextOk_finish h .steps
@[simp] theorem nextOk_vreduce {s : State} (h : s.memoryOk) (ident : Nat) (op : Nat → Nat → Nat × Flags) (k : BitVec 2) (a d : BitVec 5)
    (l : BitVec 3) :
    NextOk (vreduce ident op k a d l s) := nextOk_finish h .steps
@[simp] theorem nextOk_vrandom {s : State} (h : s.memoryOk) (f : Nat → BitVec 32) (k : BitVec 3) (a d : BitVec 5) (l : BitVec 3) :
    NextOk (vrandom f k a d l s) := nextOk_finish h .steps
@[simp] theorem nextOk_kop {s : State} (h : s.memoryOk) (f : Mask → Mask → Mask) (b a d l : BitVec 3) :
    NextOk (kop f b a d l s) := nextOk_finish h .steps
@[simp] theorem nextOk_kToG {s : State} (h : s.memoryOk) (f : Mask → Word) (a : BitVec 3) (d : BitVec 5) (l : BitVec 3) :
    NextOk (kToG f a d l s) := nextOk_finish h .steps
@[simp] theorem nextOk_execVdotqQ4x {s : State} (h : s.memoryOk) (k : BitVec 3) (b a d : BitVec 5) (l : BitVec 3) :
    NextOk (execVdotqQ4x k b a d l s) := nextOk_finish h .steps
@[simp] theorem nextOk_execVsel {s : State} (h : s.memoryOk) (k : BitVec 2) (b a d : BitVec 5) (l : BitVec 3) :
    NextOk (execVsel k b a d l s) := nextOk_finish h .steps
@[simp] theorem nextOk_execVcvtE4F32 {s : State} (h : s.memoryOk) (k : BitVec 3) (a d : BitVec 5) (l : BitVec 3) :
    NextOk (execVcvtE4F32 k a d l s) := nextOk_finish h .steps
@[simp] theorem nextOk_execVcvtF32E4 {s : State} (h : s.memoryOk) (k : BitVec 3) (a d : BitVec 5) (l : BitVec 3) :
    NextOk (execVcvtF32E4 k a d l s) := nextOk_finish h .steps
@[simp] theorem nextOk_execVperm {s : State} (h : s.memoryOk) (k : BitVec 3) (b a d : BitVec 5) (l : BitVec 3) :
    NextOk (execVperm k b a d l s) := nextOk_finish h .steps
@[simp] theorem nextOk_vfromG {s : State} (h : s.memoryOk) (f : BitVec 32 → Nat → BitVec 32) (k : BitVec 3) (a d : BitVec 5) (l : BitVec 3) :
    NextOk (vfromG f k a d l s) := nextOk_finish h .steps
@[simp] theorem nextOk_execVext {s : State} (h : s.memoryOk) (b a d : BitVec 5) (l : BitVec 3) : NextOk (execVext b a d l s) := nextOk_finish h .steps
@[simp] theorem nextOk_execVins {s : State} (h : s.memoryOk) (b a d : BitVec 5) (l : BitVec 3) : NextOk (execVins b a d l s) := nextOk_finish h .steps
@[simp] theorem nextOk_execVcomp {s : State} (h : s.memoryOk) (k : BitVec 3) (a d : BitVec 5) (l : BitVec 3) :
    NextOk (execVcomp k a d l s) := nextOk_finish h .steps
@[simp] theorem nextOk_execVnzscan {s : State} (h : s.memoryOk) (k : BitVec 2) (b a d : BitVec 5) (l : BitVec 3) :
    NextOk (execVnzscan k b a d l s) := nextOk_finish h .steps
@[simp] theorem nextOk_execVunpq {s : State} (h : s.memoryOk) (k : BitVec 3) (b a d : BitVec 5) (l : BitVec 3) :
    NextOk (execVunpq k b a d l s) := nextOk_finish h .steps
@[simp] theorem nextOk_execKmovGk {s : State} (h : s.memoryOk) (a : BitVec 5) (d l : BitVec 3) : NextOk (execKmovGk a d l s) := nextOk_finish h .steps

/-! ## Every instruction and event -/

/-- Whatever instruction or event runs, its next state has canonical memory: those of one shape by the lemma of the shape, the rest by the lemmas of
the single instructions and events above. -/
theorem nextOk_exec (i : Instr) {s : State} (h : s.memoryOk) : NextOk (exec i s) := by
  cases i
  all_goals dsimp only [exec]
  case add | sub | and | xor | andn | sll | srl | sra | ror | minS | maxS | minN | maxN | mul | mulhS | mulhN | seq | sne | sltS | sltN | sleS
    | sleN | bfx => exact nextOk_alu2 h ..
  case clz | popc | addi | andi | ori | xori | slli | srli | srai | slti | lsh | cAddi => exact nextOk_alu1 h ..
  case divS | divN | remS | remN => exact nextOk_aluDiv h ..
  case madd | csel => exact nextOk_alu3 h ..
  case li | cLi => exact nextOk_constG h ..
  case beq | bne | bltS | bgeS | bltN | bgeN => exact nextOk_branch2 h ..
  case bkany | bknone => exact nextOk_branchK h ..
  case ret | cRet => exact nextOk_returnWith h ..
  case endFiring | cEnd => exact nextOk_endWith h ..
  case nop | cNop => exact nextOk_nothing h ..
  case ldlS8 | ldlN8 | ldlS16 | ldlN16 | ldlS32 | ldlN32 | ldl64 | cLdl => exact nextOk_loadLocal h ..
  case stl8 | stl16 | stl32 | stl64 | cStl => exact nextOk_storeLocal h ..
  case ldg32 | ldg64 | vldg => exact nextOk_loadGlobal h ..
  case stg32 | stg64 | vstg => exact nextOk_storeGlobal h ..
  case cwb | cinv | cwbinv | cflush => exact nextOk_maintenance h ..
  case vaddF32 | vsubF32 | vmulF32 | vfmaF32 | vfmsF32 | vminF32 | vmaxF32 | vabsF32 | vaddF16 | vmulF16 | vfmaF16 | vaddB16 | vmulB16 | vfmaB16
    | vdotF16 | vdotB16 | vaddS32 | vsubS32 | vmulS32 | vmaddS32 | vminS32 | vmaxS32 | vdotbS8 | vand | vor | vxor | vsll | vsrl | vsra
    | vcvtF32S32 | vcvtS32F32 | vexp2F32 | vlog2F32 | vrcpF32 | vrsqrtF32 | vdivF32 | cVfmaF32 => exact nextOk_vop h ..
  case vmov | cVmov => exact nextOk_vmovWith h ..
  case vceqF32 | vcltF32 | vcleF32 | vcunF32 | vceqS32 | vcltS32 | vcltN32 | vcnz => exact nextOk_vcmp h ..
  case vcvtF16F32 | vcvtB16F32 => exact nextOk_vnarrow h ..
  case vcvtF32F16 | vcvtF32B16 => exact nextOk_vwiden h ..
  case vbcst | viota => exact nextOk_vfromG h ..
  case vrsumF32 | vrmaxF32 | vrsumS32 => exact nextOk_vreduce h ..
  case vrng | vrngf => exact nextOk_vrandom h ..
  case kand | kor | kxor | knot | kmovKk => exact nextOk_kop h ..
  case kpop | kmovKg => exact nextOk_kToG h ..
  case sattNone | sattScale | sattAdds | sattFmas | sattMins | sattMaxs | sattSumr => exact nextOk_satt h ..
  case spop | cSpop => exact nextOk_popWith h ..
  case spush | cSpush => exact nextOk_pushWith h ..
  case send | sendr | sendw | sendt | sendg => exact nextOk_sendWith h ..
  case aaddS32 | aaddS64 | aminS32 | amaxS32 | aminN32 | axchg | acas | aaddF32 | aor | aand | axor | aminN64 => exact nextOk_atomicOp h ..
  case mldb | mldbs => exact nextOk_mldbWith h ..
  case mma | mmas => exact nextOk_mmaWith h ..
  case copy | copyf => exact nextOk_copyWith h ..
  case csrr | csrw | csrs | csrc => exact nextOk_csrWith h ..
  case cMov => exact nextOk_move h ..
  case cBeqz | cBnez => exact nextOk_branchZ h ..
  all_goals simp [h]

/-! ## Steps -/

/-- The first event of a list that can happen. -/
theorem State.memoryOk.firstEvent {s t : State} (h : s.memoryOk) {l : List Instr} (e : s.firstEvent l = some t) : t.memoryOk := by
  induction l with
  | nil => cases e
  | cons i r ih =>
    have hi := nextOk_exec i h
    unfold State.firstEvent at e
    split at e
    · next ei =>
      rw [ei] at hi
      cases e
      exact hi
    · exact ih e

@[simp] theorem State.memoryOk_later {s : State} {n : Nat} : (s.later n).memoryOk ↔ s.memoryOk := Iff.rfl
@[simp] theorem State.memoryOk_focus {s : State} {n k : Nat} : (s.focus n k).memoryOk ↔ s.memoryOk := Iff.rfl
@[simp] theorem State.memoryOk_stirred {s : State} : s.stirred.memoryOk ↔ s.memoryOk := Iff.rfl

theorem nextOk_runInstr {s : State} (h : s.memoryOk) : NextOk (runInstr s) := by
  unfold runInstr
  split
  · exact (memoryOk_takeTrap ..).2 h
  · exact nextOk_exec _ h
  · exact nextOk_exec _ h
  · exact (memoryOk_takeTrap ..).2 h

theorem nextOk_runCtx {s : State} (h : s.memoryOk) : NextOk (runCtx s) := by
  have hb := nextOk_execBudgetExpiry h s.cur s.curCtx
  unfold runCtx
  split
  · next e => rwa [e] at hb
  · split
    · exact memoryOk_mk.2 h
    · exact nextOk_runInstr h

theorem nextOk_autoStep {s : State} (h : s.memoryOk) : NextOk (autoStep s) := by
  unfold autoStep
  split
  · exact nextOk_runCtx h
  · split
    · next e => exact State.memoryOk_stirred.2 (h.firstEvent e)
    · split
      · exact nextOk_runCtx (State.memoryOk_focus.2 h)
      · exact State.memoryOk_stirred.2 h

theorem nextOk_feedStep (m : Move) {s : State} (h : s.memoryOk) : NextOk (feedStep m s) := by
  cases m with
  | run n k dt =>
    have ht : ((s.later dt).focus n k).memoryOk := h
    unfold feedStep
    dsimp only
    split
    · exact nextOk_runCtx ht
    · exact ht
  | event i dt =>
    have hi := nextOk_exec i (State.memoryOk_later (n := dt).2 h)
    unfold feedStep
    dsimp only
    split
    · split
      · next e =>
        rw [e] at hi
        exact State.memoryOk_stirred.2 hi
      · trivial
      · trivial
    · trivial

theorem nextOk_step {s : State} (h : s.memoryOk) : NextOk (step s) := by
  unfold step
  split
  · exact nextOk_feedStep _ (memoryOk_mk.2 h)
  · exact nextOk_autoStep (State.memoryOk_later.2 h)

/-- Settles O59: canonical memory is an invariant of the step, whose every instruction and event keeps it (`nextOk_exec`). -/
theorem stepsKeepMemoryCanonical : Obligations.StepsKeepMemoryCanonical := by
  intro s t hs e
  have h := nextOk_step hs
  rwa [e] at h

end Sys2Proof.Machine
end
